-- ==== Sys2Proof/Word.lean ====
section
/-! DEFINITION. The word types of the DZ7 and their plainest arithmetic (02 R18, 00 R1): 64-bit registers, bytes, fields of words. -/

namespace Sys2Proof

/-- A general register or a structure word (R18). -/
abbrev Word := BitVec 64

/-- One byte, the DZ7's smallest addressable unit (R1). -/
abbrev Byte := BitVec 8

/-- The word of a natural number, modulo 2^64. -/
abbrev W (n : Nat) : Word := BitVec.ofNat 64 n

/-- The all-ones word. -/
abbrev ones : Word := 0xffffffffffffffff#64

/-- Field [hi:lo] of a number, bit 0 least significant (R1). -/
def fld (n hi lo : Nat) : Nat := n / 2 ^ lo % 2 ^ (hi + 1 - lo)

/-- Field [hi:lo] of a word as a number. -/
def bits (w : Word) (hi lo : Nat) : Nat := fld w.toNat hi lo

/-- Bit n of a number. -/
def bit (n i : Nat) : Bool := n / 2 ^ i % 2 == 1

/-- A truth value as a number. -/
def b2n (b : Bool) : Nat := if b then 1 else 0

/-- The signed reading of the low w bits of a number (two's complement, R21). -/
def sgn (w n : Nat) : Int :=
  let m := n % 2 ^ w
  if 2 * m < 2 ^ w then (m : Int) else (m : Int) - (2 ^ w : Nat)

/-- The low w bits of an integer. -/
def wrapI (w : Nat) (i : Int) : Nat := (i % ((2 ^ w : Nat) : Int)).toNat

end Sys2Proof
end

