-- ==== Sys2Proof/Syntax.lean ====
section
/-! DEFINITION. The rows of the opcode table (03 R41-R59 and 95_what_each_step_holds): instruction words with their fields, and
the part's events. What an event carries stands in the state (`State.ev`), not in its constructor. -/

namespace Sys2Proof

/-- The trap causes of R372, in the order of their numbers. -/
inductive Cause where
  | software | illegalInstr | illegalChain | lookaheadViolation | illegalConvergence | predOverflow | predUnderflow
  | misaligned | permission | notPresent | deferredStore | sealedWrite | crewOnly | roamOnly | uniformWrite
  | windowDeparted | messageOverflow | arith | uncorrectable | privileged | trapStackOverflow
  deriving DecidableEq, Repr

/-- The number of a cause (R372). -/
def Cause.num : Cause → Nat
  | .software => 0 | .illegalInstr => 1 | .illegalChain => 2 | .lookaheadViolation => 3 | .illegalConvergence => 4
  | .predOverflow => 5 | .predUnderflow => 6 | .misaligned => 7 | .permission => 8 | .notPresent => 9
  | .deferredStore => 10 | .sealedWrite => 11 | .crewOnly => 12 | .roamOnly => 13 | .uniformWrite => 14
  | .windowDeparted => 15 | .messageOverflow => 16 | .arith => 17 | .uncorrectable => 18 | .privileged => 19
  | .trapStackOverflow => 20


/-- CTL words with a code (R87). -/
structure CtlF where
  i : BitVec 13
  deriving DecidableEq, Repr

/-- B-format words (R94, R95). -/
structure BrF where
  o : BitVec 22
  deriving DecidableEq, Repr

/-- JR, CALLR (R96). -/
structure JrF where
  a : BitVec 5
  p : BitVec 1
  deriving DecidableEq, Repr

/-- RET (R96). -/
structure RetF where
  p : BitVec 1
  deriving DecidableEq, Repr

/-- PRED words with a source (R100), chain bit C (R41). -/
structure PredAF where
  c : BitVec 1
  a : BitVec 5
  deriving DecidableEq, Repr

/-- words with no operand but the chain bit. -/
structure ChainF where
  c : BitVec 1
  deriving DecidableEq, Repr

/-- PGET (R100). -/
structure PredDF where
  c : BitVec 1
  d : BitVec 5
  deriving DecidableEq, Repr

/-- REJOIN words with a j operand code (R147). -/
structure RejF where
  c : BitVec 1
  j : BitVec 8
  deriving DecidableEq, Repr

/-- S2-format words (R46, R49). -/
structure S2F where
  c : BitVec 1
  d : BitVec 8
  a : BitVec 8
  deriving DecidableEq, Repr

/-- L3 words: TY and MD as R48, R51. -/
structure L3F where
  c : BitVec 1
  d : BitVec 5
  a : BitVec 5
  b : BitVec 5
  t : BitVec 3
  p : BitVec 1
  m : BitVec 2
  deriving DecidableEq, Repr

/-- SEL, which has no PR (R102). -/
structure SelF where
  c : BitVec 1
  d : BitVec 5
  a : BitVec 5
  b : BitVec 5
  t : BitVec 3
  m : BitVec 2
  deriving DecidableEq, Repr

/-- long-latency L3 words: MD is the lookahead value (R56). -/
structure LongF where
  c : BitVec 1
  d : BitVec 5
  a : BitVec 5
  b : BitVec 5
  t : BitVec 3
  p : BitVec 1
  l : BitVec 2
  deriving DecidableEq, Repr

/-- L3 words of one source (R48). -/
structure UnF where
  c : BitVec 1
  d : BitVec 5
  a : BitVec 5
  t : BitVec 3
  p : BitVec 1
  deriving DecidableEq, Repr

/-- L3 words whose MD must be 0. -/
structure L3NF where
  c : BitVec 1
  d : BitVec 5
  a : BitVec 5
  b : BitVec 5
  t : BitVec 3
  p : BitVec 1
  deriving DecidableEq, Repr

/-- LI words (R110). -/
structure LiF where
  c : BitVec 1
  d : BitVec 5
  a : BitVec 5
  i : BitVec 12
  p : BitVec 1
  deriving DecidableEq, Repr

/-- compares: condition k (R53). -/
structure CmpF where
  c : BitVec 1
  d : BitVec 5
  a : BitVec 5
  b : BitVec 5
  k : BitVec 4
  t : BitVec 3
  p : BitVec 1
  deriving DecidableEq, Repr

/-- compares that push (R53). -/
structure CmpPF where
  c : BitVec 1
  a : BitVec 5
  b : BitVec 5
  k : BitVec 4
  t : BitVec 3
  p : BitVec 1
  deriving DecidableEq, Repr

/-- MV words (R111). -/
structure MovF where
  c : BitVec 1
  d : BitVec 5
  i : BitVec 16
  h : BitVec 2
  deriving DecidableEq, Repr

/-- L4 words (R118). -/
structure FmaF where
  c : BitVec 1
  d : BitVec 5
  a : BitVec 5
  b : BitVec 5
  e : BitVec 5
  t : BitVec 3
  p : BitVec 1
  deriving DecidableEq, Repr

/-- FSPEC words (R127). -/
structure SpecF where
  c : BitVec 1
  d : BitVec 5
  a : BitVec 5
  t : BitVec 3
  p : BitVec 1
  l : BitVec 2
  deriving DecidableEq, Repr

/-- SI words of SIMM (R144). -/
structure SiF where
  c : BitVec 1
  d : BitVec 8
  i : BitVec 13
  deriving DecidableEq, Repr

/-- SHFL, SHFLX (R157). -/
structure XmvF where
  c : BitVec 1
  d : BitVec 5
  a : BitVec 5
  b : BitVec 5
  p : BitVec 1
  m : BitVec 2
  deriving DecidableEq, Repr

/-- SHFLI (R157). -/
structure ShfliF where
  c : BitVec 1
  d : BitVec 5
  a : BitVec 5
  b : BitVec 5
  p : BitVec 1
  deriving DecidableEq, Repr

/-- BCAST (R157), SEAL, UNSEAL (R249). -/
structure DapF where
  c : BitVec 1
  d : BitVec 5
  a : BitVec 5
  p : BitVec 1
  deriving DecidableEq, Repr

/-- LM loads (R181): lookahead l, size code s, offset o. -/
structure LmF where
  c : BitVec 1
  d : BitVec 5
  a : BitVec 5
  l : BitVec 4
  s : BitVec 3
  o : BitVec 5
  p : BitVec 1
  deriving DecidableEq, Repr

/-- LM stores (R181). -/
structure StF where
  c : BitVec 1
  d : BitVec 5
  a : BitVec 5
  s : BitVec 3
  o : BitVec 5
  p : BitVec 1
  deriving DecidableEq, Repr

/-- LDFE, LDFF (R201). -/
structure LdfeF where
  c : BitVec 1
  d : BitVec 5
  a : BitVec 5
  l : BitVec 4
  o : BitVec 5
  p : BitVec 1
  deriving DecidableEq, Repr

/-- STEF (R201). -/
structure StefF where
  c : BitVec 1
  d : BitVec 5
  a : BitVec 5
  o : BitVec 5
  p : BitVec 1
  deriving DecidableEq, Repr

/-- SETE (R201). -/
structure SeteF where
  c : BitVec 1
  a : BitVec 5
  o : BitVec 5
  p : BitVec 1
  deriving DecidableEq, Repr

/-- ATOM words (R204): t is TY2 bit 1, lookahead l. -/
structure AtomF where
  c : BitVec 1
  d : BitVec 5
  a : BitVec 5
  b : BitVec 5
  t : BitVec 1
  l : BitVec 4
  deriving DecidableEq, Repr

/-- RED words (R204). -/
structure RedF where
  c : BitVec 1
  a : BitVec 5
  b : BitVec 5
  t : BitVec 1
  deriving DecidableEq, Repr

/-- MIGR, HOMEQ (R211). -/
structure FlowF where
  c : BitVec 1
  d : BitVec 5
  a : BitVec 5
  deriving DecidableEq, Repr

/-- SPAWN (R214). -/
structure SpawnF where
  c : BitVec 1
  d : BitVec 5
  a : BitVec 5
  b : BitVec 5
  deriving DecidableEq, Repr

/-- FENCE (R215). -/
structure FenceF where
  c : BitVec 1
  d : BitVec 5
  s : BitVec 3
  deriving DecidableEq, Repr

/-- WAITW (R217): s is SZ bit 0. -/
structure WaitwF where
  c : BitVec 1
  d : BitVec 5
  a : BitVec 5
  s : BitVec 1
  o : BitVec 5
  p : BitVec 1
  deriving DecidableEq, Repr

/-- X words with SB and G. -/
structure XgF where
  c : BitVec 1
  s : BitVec 8
  g : BitVec 5
  deriving DecidableEq, Repr

/-- X words with SB, lookahead and G (R265, R308). -/
structure XlgF where
  c : BitVec 1
  s : BitVec 8
  l : BitVec 4
  g : BitVec 5
  deriving DecidableEq, Repr

/-- MMAM.tree (R265). -/
structure MmamF where
  c : BitVec 1
  s : BitVec 8
  l : BitVec 4
  g : BitVec 5
  t : BitVec 2
  deriving DecidableEq, Repr

/-- X words with SB only. -/
structure XsF where
  c : BitVec 1
  s : BitVec 8
  deriving DecidableEq, Repr

/-- QPOP (R313). -/
structure QpopF where
  c : BitVec 1
  g : BitVec 5
  q : BitVec 3
  deriving DecidableEq, Repr

/-- QFREE (R313). -/
structure QfreeF where
  c : BitVec 1
  q : BitVec 3
  deriving DecidableEq, Repr

/-- BAR, BARA, BARW (R344). -/
structure BarF where
  c : BitVec 1
  s : BitVec 8
  f : BitVec 4
  deriving DecidableEq, Repr

/-- TEMPO.or (R344). -/
structure CgF where
  c : BitVec 1
  g : BitVec 5
  deriving DecidableEq, Repr

/-- SYSP words with SB and G (R384). -/
structure SgF where
  s : BitVec 8
  g : BitVec 5
  deriving DecidableEq, Repr

/-- PINVAL (R384). -/
structure SF where
  s : BitVec 8
  deriving DecidableEq, Repr

/-- DROPR (R384). -/
structure DroprF where
  s : BitVec 8
  k : BitVec 4
  deriving DecidableEq, Repr

/-- prefix before an arithmetic base (R55): KM, RM, F4, MZ, F4V. -/
structure PfxArithF where
  k : BitVec 3
  r : BitVec 3
  e : BitVec 5
  z : BitVec 1
  v : BitVec 1
  deriving DecidableEq, Repr

/-- prefix before a memory base (R55): KM, ORD, SCOPE, MZ. -/
structure PfxMemF where
  k : BitVec 3
  o : BitVec 3
  s : BitVec 3
  z : BitVec 1
  deriving DecidableEq, Repr

/-- Every row of the opcode table: the instruction words, the prefixes (R54), the TRAPV commands (R376) and
the part's events. -/
inductive Instr where
  /-- NOP (R87): Does nothing; a NOP chain with only NOP chains after it in its packet is skipped at no cost. -/
  | nop
  /-- EXIT (R88): Ends the thread: strikes a crew lane from every rejoin register and enters the EXIT drain. -/
  | exit
  /-- YIELD (R89): Leaves the thread READY, outside every bin for one cycle, and restarts its issue wait. -/
  | yield
  /-- TRAPF (R90): Raises DEFERRED_STORE if a deferred fault is recorded (querying the directory when LOGPEND is 1), else ARITH if FLAGS AND TRAPEN is non-zero. -/
  | trapf
  /-- TRAP (R91): Pushes a SOFTWARE trap frame with code n and enters the handler at TRAPV. -/
  | trap (f : CtlF)
  /-- SLEEP (R92): Blocks the thread until its core's CLOCK reaches CLOCK + 16n. -/
  | sleep (f : CtlF)
  /-- SNAP (R93): Fires the device's common snapshot trigger with tag n, if the context holds the snapshot right. -/
  | snap (f : CtlF)
  /-- BRK (R91): Escalates the thread to the management core whatever its trap depth, writing a fault record with information n OR 0x2000. -/
  | brk (f : CtlF)
  /-- BR (R94): Branches every issuing lane to the word's address + 4 × OFS22. -/
  | br (f : BrF)
  /-- CALL (R94): Writes the return address to g31 and branches to the word's address + 4 × OFS22. -/
  | call (f : BrF)
  /-- BRP_T (R95): Branches each issuing lane whose predicate top is 1. -/
  | brpT (f : BrF)
  /-- BRP_F (R95): Branches each issuing lane whose predicate top is 0. -/
  | brpF (f : BrF)
  /-- BRP_ANY (R95): Branches all issuing crew lanes if at least one issuing lane's top is 1. -/
  | brpAny (f : BrF)
  /-- BRP_ALL (R95): Branches all issuing crew lanes if every issuing lane's top is 1. -/
  | brpAll (f : BrF)
  /-- BRP_NONE (R95): Branches all issuing crew lanes if no issuing lane's top is 1. -/
  | brpNone (f : BrF)
  /-- JR (R96): Sets the PC of each active lane to g[A]. -/
  | jr (f : JrF)
  /-- RET (R96): Sets the PC of each active lane to g31. -/
  | ret (f : RetF)
  /-- CALLR (R96): Writes the return address to g31 and jumps to the old g[A] in each active lane. -/
  | callr (f : JrF)
  /-- PPUSH (R100): Pushes (g[A] ≠ 0) AND top onto each issuing lane's predicate stack. -/
  | ppush (f : PredAF)
  /-- PINV (R100): Replaces the predicate top with (NOT top) AND the entry below. -/
  | pinv (f : ChainF)
  /-- PPOP (R100): Pops one entry from the predicate stack. -/
  | ppop (f : ChainF)
  /-- PAND (R100): ANDs the predicate top with (g[A] ≠ 0). -/
  | pand (f : PredAF)
  /-- PGET (R100): Copies PSTK to g[D]. -/
  | pget (f : PredDF)
  /-- PSET (R100): Writes PSTK from g[A], per R98. -/
  | pset (f : PredAF)
  /-- ENROL (R147): Adds the chain's issuing lanes to ENROLLED of a rejoin register. -/
  | enrol (f : RejF)
  /-- PARK (R149): Parks each enrolled issuing lane on a rejoin register, blocking it until release. -/
  | park (f : RejF)
  /-- STRIKE (R147): Removes the issuing lanes from ENROLLED and PARKED of a rejoin register. -/
  | strike (f : RejF)
  /-- JMOV (R152): Copies between a rejoin register and an s, k or g register. -/
  | jmov (f : S2F)
  /-- ADD (R102): Adds integer elements, wrapping, with INT_OVERFLOW when out of range. -/
  | add (f : L3F)
  /-- SUB (R102): Subtracts integer elements, wrapping, with INT_OVERFLOW when out of range. -/
  | sub (f : L3F)
  /-- MUL (R102): Writes the low w bits of each element product. -/
  | mul (f : L3F)
  /-- MULH (R102): Writes the high w bits of each exact 2w-bit product. -/
  | mulh (f : L3F)
  /-- AND (R102): Bitwise AND of elements. -/
  | andW (f : L3F)
  /-- OR (R102): Bitwise OR of elements. -/
  | orW (f : L3F)
  /-- XOR (R102): Bitwise XOR of elements. -/
  | xorW (f : L3F)
  /-- ANDN (R102): Writes a AND NOT b per element. -/
  | andn (f : L3F)
  /-- SHL (R103): Shifts each element left by the count in B. -/
  | shl (f : L3F)
  /-- SHR (R103): Shifts each element right, filling with zeros. -/
  | shr (f : L3F)
  /-- SAR (R103): Shifts each element right, filling with copies of its top bit. -/
  | sar (f : L3F)
  /-- ROT (R103): Rotates each element left by c mod w. -/
  | rot (f : L3F)
  /-- MIN (R102): Writes the lesser of each element pair, signedness per TY. -/
  | minW (f : L3F)
  /-- MAX (R102): Writes the greater of each element pair, signedness per TY. -/
  | maxW (f : L3F)
  /-- SEL (R102): Selects a where the lane's predicate top is 1, else b. -/
  | sel (f : SelF)
  /-- ADDSAT (R102): Adds elements with saturation, setting INT_OVERFLOW when saturated. -/
  | addsat (f : L3F)
  /-- DIV (R109): Long-latency integer division truncated toward zero, per element. -/
  | div (f : LongF)
  /-- REM (R109): Long-latency integer remainder whose sign follows the dividend. -/
  | rem (f : LongF)
  /-- MULW (R105): Writes the exact widened products of the low-half elements. -/
  | mulw (f : L3F)
  /-- ABSD (R104): Writes |a − b| as an unsigned element. -/
  | absd (f : L3F)
  /-- CLZ (R104): Counts leading zeros per element. -/
  | clz (f : UnF)
  /-- CTZ (R104): Counts trailing zeros per element. -/
  | ctz (f : UnF)
  /-- POPC (R104): Counts one bits per element. -/
  | popc (f : UnF)
  /-- BREV (R104): Reverses the bit order of each element. -/
  | brev (f : UnF)
  /-- ABS (R104): Writes the absolute value of each element. -/
  | absW (f : UnF)
  /-- NEG (R104): Negates each element, wrapping. -/
  | neg (f : UnF)
  /-- BFX (R106): Extracts a bit field described by register B. -/
  | bfx (f : L3NF)
  /-- BFI (R106): Inserts the low bits of a into a bit field of D described by register B. -/
  | bfi (f : L3NF)
  /-- LEA (R107): Computes g[A] + g[B] × element size modulo 2^64. -/
  | lea (f : L3F)
  /-- PACK (R108): Narrows the elements of A and B with saturation into D. -/
  | pack (f : L3NF)
  /-- UNPK (R108): Widens the low-half elements of A into D. -/
  | unpk (f : UnF)
  /-- SWAPB (R104): Reverses the byte order within each element. -/
  | swapb (f : UnF)
  /-- ADDI (R110): Adds a sign-extended 12-bit immediate on i64. -/
  | addi (f : LiF)
  /-- ANDI (R110): ANDs with a sign-extended 12-bit immediate. -/
  | andi (f : LiF)
  /-- ORI (R110): ORs with a sign-extended 12-bit immediate. -/
  | ori (f : LiF)
  /-- XORI (R110): XORs with a sign-extended 12-bit immediate. -/
  | xori (f : LiF)
  /-- SHLI (R110): Shifts an i64 left by an immediate count 0–63. -/
  | shli (f : LiF)
  /-- SHRI (R110): Shifts an i64 right with zeros by an immediate count. -/
  | shri (f : LiF)
  /-- SARI (R110): Shifts an i64 right arithmetically by an immediate count. -/
  | sari (f : LiF)
  /-- ROTI (R110): Rotates an i64 left by an immediate count. -/
  | roti (f : LiF)
  /-- ICMP (R112): Writes an all-ones or zero mask per element for an integer condition. -/
  | icmp (f : CmpF)
  /-- ICMPP (R112): Pushes (integer condition AND top) onto the predicate stack of every issuing lane. -/
  | icmpp (f : CmpPF)
  /-- MOVZ (R111): Writes IMM16 shifted by 16 × HW, zeros elsewhere. -/
  | movz (f : MovF)
  /-- MOVK (R111): Writes IMM16 into one 16-bit field of g[D], keeping the other bits. -/
  | movk (f : MovF)
  /-- MOVN (R111): Writes NOT (IMM16 shifted by 16 × HW). -/
  | movn (f : MovF)
  /-- FADD (R113): Rounded float addition per element. -/
  | fadd (f : L3F)
  /-- FSUB (R113): Rounded float subtraction per element. -/
  | fsub (f : L3F)
  /-- FMUL (R113): Rounded float multiplication per element. -/
  | fmul (f : L3F)
  /-- FMIN (R114): Float minimum with −0 below +0; a NaN operand gives NaN. -/
  | fmin (f : L3F)
  /-- FMAX (R114): Float maximum with −0 below +0; a NaN operand gives NaN. -/
  | fmax (f : L3F)
  /-- FMINNUM (R114): Float minimum that returns the number when one operand is a NaN. -/
  | fminnum (f : L3F)
  /-- FMAXNUM (R114): Float maximum that returns the number when one operand is a NaN. -/
  | fmaxnum (f : L3F)
  /-- FSGN (R115): Replaces the sign bit of a with that of b, on bits alone. -/
  | fsgn (f : L3F)
  /-- FSCALE (R116): Computes Round(a × 2^b) with b an integer element. -/
  | fscale (f : L3F)
  /-- FDOT2 (R117): Forms pairwise dot products plus an optional F4 addend, rounded once to binary32. -/
  | fdot2 (f : L3F)
  /-- FMA (R118): Fused multiply-add Round(a × b + c). -/
  | fma (f : FmaF)
  /-- FNMA (R118): Fused negated multiply-add Round(−(a × b) + c). -/
  | fnma (f : FmaF)
  /-- CVTF (R120): Converts between float formats with rounding, narrowing or widening into a half per MD. -/
  | cvtf (f : L3F)
  /-- CVTFI (R121): Converts float to integer, rounding per the mode; out-of-range gives the bound with INVALID. -/
  | cvtfi (f : L3NF)
  /-- CVTIF (R122): Converts integer to float, rounding per the mode. -/
  | cvtif (f : L3NF)
  /-- CVTN (R124): Long-latency narrowing of two binary32 elements into FP8 or FP4 codes in slot POS of D. -/
  | cvtn (f : LongF)
  /-- CVTW (R125): Decodes two FP8 or FP4 codes exactly into a binary32 pair. -/
  | cvtw (f : L3NF)
  /-- FRND (R126): Rounds each element to an integral value in its own format. -/
  | frnd (f : UnF)
  /-- FRCPS (R36): Long-latency reciprocal seed within 2^-12 relative. -/
  | frcps (f : SpecF)
  /-- FRSQS (R36): Long-latency reciprocal square-root seed within 2^-12 relative. -/
  | frsqs (f : SpecF)
  /-- FEXP2 (R37): Long-latency base-2 exponential within 1 ulp. -/
  | fexp2 (f : SpecF)
  /-- FLOG2 (R37): Long-latency base-2 logarithm. -/
  | flog2 (f : SpecF)
  /-- FSIN (R37): Long-latency sine in radians. -/
  | fsin (f : SpecF)
  /-- FCOS (R37): Long-latency cosine in radians. -/
  | fcos (f : SpecF)
  /-- FCMP (R128): Writes an all-ones or zero mask per element for a float condition. -/
  | fcmp (f : CmpF)
  /-- FCMPP (R128): Pushes (float condition AND top) onto the predicate stack. -/
  | fcmpp (f : CmpPF)
  /-- FCLASS (R129): Writes a one-hot class code per float element. -/
  | fclass (f : UnF)
  /-- SMOV (R143): Scalar move d := a. -/
  | smov (f : S2F)
  /-- SADD (R143): Scalar addition modulo 2^64. -/
  | sadd (f : S2F)
  /-- SSUB (R143): Scalar subtraction modulo 2^64. -/
  | ssub (f : S2F)
  /-- SMUL (R143): Scalar multiplication modulo 2^64. -/
  | smul (f : S2F)
  /-- SAND (R143): Scalar AND. -/
  | sand (f : S2F)
  /-- SOR (R143): Scalar OR. -/
  | sor (f : S2F)
  /-- SXOR (R143): Scalar XOR. -/
  | sxor (f : S2F)
  /-- SSHL (R143): Scalar shift left by an unsigned count. -/
  | sshl (f : S2F)
  /-- SSHR (R143): Scalar logical shift right by an unsigned count. -/
  | sshr (f : S2F)
  /-- SMIN (R143): Scalar signed minimum. -/
  | smin (f : S2F)
  /-- SMAX (R143): Scalar signed maximum. -/
  | smax (f : S2F)
  /-- SDIV (R143): Scalar signed division; the issuer issues no chain for 34 cycles after it. -/
  | sdiv (f : S2F)
  /-- SRDL (R143): Reads g[SA] of lane s[SD] mod WIDTH into s[SD]. -/
  | srdl (f : S2F)
  /-- SBC (R143): Writes the count of one bits of a. -/
  | sbc (f : S2F)
  /-- SMOVI (R144): Writes a sign-extended 13-bit immediate. -/
  | smovi (f : SiF)
  /-- SADDI (R144): Adds a sign-extended immediate modulo 2^64. -/
  | saddi (f : SiF)
  /-- SANDI (R144): ANDs with a sign-extended immediate. -/
  | sandi (f : SiF)
  /-- SORI (R144): ORs with a sign-extended immediate. -/
  | sori (f : SiF)
  /-- SSHLI (R144): Shifts left by an immediate count 0–63. -/
  | sshli (f : SiF)
  /-- SSHRI (R144): Shifts right with zeros by an immediate count 0–63. -/
  | sshri (f : SiF)
  /-- MFSR (R145): Reads a special register into an s, k or g operand. -/
  | mfsr (f : S2F)
  /-- MTSR (R145): Writes a special register per its map; the general write for registers without a row of their own. -/
  | mtsr (f : S2F)
  /-- SLD (R145): Loads a 64-bit word of the crew's scratchpad share into a scalar operand. -/
  | sld (f : S2F)
  /-- SST (R145): Stores a scalar operand to a 64-bit word of the crew's share. -/
  | sst (f : S2F)
  /-- SHFL (R157): Each active lane receives g[A] of the lane named by register or immediate B. -/
  | shfl (f : XmvF)
  /-- SHFLX (R157): Each active lane receives g[A] of lane L XOR B. -/
  | shflx (f : XmvF)
  /-- SHFLI (R157): Each active lane receives g[A] of lane (L + B) mod WIDTH. -/
  | shfli (f : ShfliF)
  /-- BCAST (R157): Each active lane receives g[A] of the lowest-numbered active lane. -/
  | bcast (f : DapF)
  /-- REDL (R158): Reduces the active lanes in the fixed tree into s[D] and writes CREWST.EMPTY. -/
  | redl (f : L3NF)
  /-- SCANL (R158): Writes the inclusive scan over active lanes to g[D] and writes CREWST.EMPTY. -/
  | scanl (f : L3NF)
  /-- BALLOT (R161): Writes the mask of active lanes whose value is non-zero. -/
  | ballot (f : UnF)
  /-- VANY (R161): Writes all ones if some active lane's value is non-zero. -/
  | vany (f : UnF)
  /-- VALL (R161): Writes all ones if every active lane's value is non-zero. -/
  | vall (f : UnF)
  /-- MATCH (R161): Writes the mask of active lanes whose value equals the lane's own. -/
  | matchL (f : UnF)
  /-- MATCHN (R161): Writes the count of lower active lanes whose value equals the lane's own. -/
  | matchN (f : UnF)
  /-- POPL (R161): Writes the count of lower active lanes whose value is non-zero. -/
  | popl (f : UnF)
  /-- LD (R189): Loads global bytes zero-extended, by replica, local access, remote read or migration. -/
  | ld (f : LmF)
  /-- LDSX (R189): Loads global bytes sign-extended. -/
  | ldsx (f : LmF)
  /-- LDNM (R189): Loads global bytes; a roaming thread reads remotely and never migrates. -/
  | ldnm (f : LmF)
  /-- ST (R191): Stores the low bytes of g[D] to global memory, combining a rank's lanes per line and home. -/
  | st (f : StF)
  /-- STNM (R192): Stores to global memory, each lane sent and performed on its own. -/
  | stnm (f : StF)
  /-- LDS (R198): Loads bytes of the crew's scratchpad share. -/
  | lds (f : LmF)
  /-- STS (R198): Stores bytes to the crew's scratchpad share. -/
  | sts (f : StF)
  /-- LDW (R200): Loads bytes at a window address from a member crew's share. -/
  | ldw (f : LmF)
  /-- STW (R200): Stores bytes at a window address into a member crew's share. -/
  | stw (f : StF)
  /-- LDFE (R201): Loads a FULL scratchpad word and makes it EMPTY, waiting while EMPTY. -/
  | ldfe (f : LdfeF)
  /-- STEF (R201): Stores to an EMPTY scratchpad word and makes it FULL, waiting while FULL. -/
  | stef (f : StefF)
  /-- LDFF (R201): Loads a FULL scratchpad word, leaving it FULL, waiting while EMPTY. -/
  | ldff (f : LdfeF)
  /-- SETE (R201): Makes a scratchpad word EMPTY, data unchanged. -/
  | sete (f : SeteF)
  /-- LDR (R190): Loads from a sealed page, allocating in L1 and L2. -/
  | ldr (f : LmF)
  /-- LDRNA (R190): Loads from a sealed page without allocating. -/
  | ldrna (f : LmF)
  /-- LDP (R198): Loads bytes from the lane position's private slice. -/
  | ldp (f : LmF)
  /-- STP (R198): Stores bytes to the lane position's private slice. -/
  | stp (f : StF)
  /-- ATOM_ADD (R204): Atomic integer add at the home, returning the old value. -/
  | atomAdd (f : AtomF)
  /-- ATOM_FADD (R206): Atomic float add at the home, uncombined, returning the old value. -/
  | atomFadd (f : AtomF)
  /-- ATOM_MIN (R204): Atomic signed minimum, returning the old value. -/
  | atomMin (f : AtomF)
  /-- ATOM_MAX (R204): Atomic signed maximum, returning the old value. -/
  | atomMax (f : AtomF)
  /-- ATOM_AND (R204): Atomic AND, returning the old value. -/
  | atomAnd (f : AtomF)
  /-- ATOM_OR (R204): Atomic OR, returning the old value. -/
  | atomOr (f : AtomF)
  /-- ATOM_XOR (R204): Atomic XOR, returning the old value. -/
  | atomXor (f : AtomF)
  /-- ATOM_XCHG (R204): Atomic exchange, returning the old value. -/
  | atomXchg (f : AtomF)
  /-- ATOM_CAS (R204): Atomic compare-and-swap against comparand g[D], returning the old value. -/
  | atomCas (f : AtomF)
  /-- ATOM_INC (R204): Atomic wrapping increment bounded by b, returning the old value. -/
  | atomInc (f : AtomF)
  /-- ATOM_DEC (R204): Atomic wrapping decrement bounded by b, returning the old value. -/
  | atomDec (f : AtomF)
  /-- ATOM_FMIN (R204): Atomic float minimum, returning the old value. -/
  | atomFmin (f : AtomF)
  /-- ATOM_FMAX (R204): Atomic float maximum, returning the old value. -/
  | atomFmax (f : AtomF)
  /-- ATOM_FADD_COMB (R208): Combining atomic float add: lanes with one address are summed in a tree and applied in one occupancy. -/
  | atomFaddComb (f : AtomF)
  /-- RED_ADD (R204): Reduction add at the home without return. -/
  | redAdd (f : RedF)
  /-- RED_FADD (R206): Reduction float add without return; conditions discarded. -/
  | redFadd (f : RedF)
  /-- RED_MIN (R204): Reduction signed minimum without return. -/
  | redMin (f : RedF)
  /-- RED_MAX (R204): Reduction signed maximum without return. -/
  | redMax (f : RedF)
  /-- RED_AND (R204): Reduction AND without return. -/
  | redAnd (f : RedF)
  /-- RED_OR (R204): Reduction OR without return. -/
  | redOr (f : RedF)
  /-- RED_XOR (R204): Reduction XOR without return. -/
  | redXor (f : RedF)
  /-- RED_INC (R204): Reduction increment without return. -/
  | redInc (f : RedF)
  /-- RED_DEC (R204): Reduction decrement without return. -/
  | redDec (f : RedF)
  /-- RED_FMIN (R204): Reduction float minimum without return. -/
  | redFmin (f : RedF)
  /-- RED_FMAX (R204): Reduction float maximum without return. -/
  | redFmax (f : RedF)
  /-- RED_FADD_COMB (R208): Combining reduction float add without return. -/
  | redFaddComb (f : RedF)
  /-- MIGR (R213): Moves a roaming thread to the home of g[A] without loading and writes the HOMEQ value. -/
  | migr (f : FlowF)
  /-- SPAWN (R214): Creates a pawn at the home of g[A] starting at g[D] with argument g[B]. -/
  | spawn (f : SpawnF)
  /-- HOMEQ (R212): Writes the home of g[A] computed from the issuing core's placement table. -/
  | homeq (f : FlowF)
  /-- FENCE (R216): Blocks the thread until the acquire, release or acquire-release conditions at the scope hold. -/
  | fence (f : FenceF)
  /-- SEAL (R250): After release conditions, asks every home of the range to set S on its pages; the lane blocks until all answer. -/
  | seal (f : DapF)
  /-- UNSEAL (R251): Asks every home of the range to unseal its pages; the lane blocks until all answer. -/
  | unseal (f : DapF)
  /-- WAITW (R217): Sends a watch to the home and blocks each active lane until the word differs from g[D]. -/
  | waitw (f : WaitwF)
  /-- SEND (R416): Sends LEN bytes of the share as a tag-matched MESSAGE and blocks until the MREPLY. -/
  | send (f : XgF)
  /-- RECVP (R417): Posts a receive in the core's receive list, or takes a queued match, and writes a handle. -/
  | recvp (f : XgF)
  /-- RECVW (R418): Waits until a posted receive has ARRIVED, then writes its status and frees it. -/
  | recvw (f : XgF)
  /-- RECVW_TEST (R418): Completes a posted receive if ARRIVED, else writes 0 at once. -/
  | recvwTest (f : XgF)
  /-- PROBE (R419): Reports the oldest matching message in the core's overflow queue without taking it. -/
  | probe (f : XgF)
  /-- MMA (R270): Posts a matrix multiply-accumulate pass described by an eight-word block. -/
  | mma (f : XlgF)
  /-- MMAM_CAUSAL (R271): Posts a masked matrix pass with a causal mask. -/
  | mmamCausal (f : XlgF)
  /-- MMAM_TREE (R271): Posts a masked matrix pass using the token tree of a tree register. -/
  | mmamTree (f : MmamF)
  /-- ACCZ (R279): Posts the zeroing of an accumulator region. -/
  | accz (f : XlgF)
  /-- ACCRD (R279): Posts the conversion of an accumulator region into a share array. -/
  | accrd (f : XlgF)
  /-- ACCWR (R279): Posts the writing or adding of a share array into an accumulator region. -/
  | accwr (f : XlgF)
  /-- WBLD (R277): Posts the loading of a weight image into consecutive weight slots. -/
  | wbld (f : XlgF)
  /-- WBDROP (R277): Posts the dropping of a VALID weight image, emptying its slots. -/
  | wbdrop (f : XlgF)
  /-- TMSET (R278): Posts the setting of a tree register from a parent array in the share. -/
  | tmset (f : XlgF)
  /-- MWAIT (R275): Blocks the crew until every earlier posted operation is COMPLETE, then returns and clears the status register. -/
  | mwait (f : XsF)
  /-- MWAIT_THRU (R275): Blocks the crew until every posted operation up to a ticket's SEQ is COMPLETE, then returns the status. -/
  | mwaitThru (f : XgF)
  /-- POST (R294): Claims a queue slot and writes an eight-word packet from s registers, header last. -/
  | post (f : XlgF)
  /-- TCOPY (R308): Issues a copy job, or a stream, to the core's copy engine. -/
  | tcopy (f : XlgF)
  /-- LAYOUT (R308): Issues a layout job into a staging region. -/
  | layout (f : XlgF)
  /-- MCAST (R307): Issues a multicast job writing one tile to every receiving member crew's share. -/
  | mcast (f : XlgF)
  /-- CPOLL (R296): Reads the completion record for a cursor once and reports it if present. -/
  | cpoll (f : XgF)
  /-- CWAIT (R296): Waits, with an optional limit, until the completion record for a cursor is present. -/
  | cwait (f : XgF)
  /-- QPOP (R313): Pops the next FULL stream tile, blocking until it is FULL while the stream is BOUND. -/
  | qpop (f : QpopF)
  /-- QFREE (R313): Makes the oldest POPPED stream slot EMPTY. -/
  | qfree (f : QfreeF)
  /-- BAR (R346): Joins the crew's gathering for a group barrier and blocks until DONE, optionally acquiring and releasing. -/
  | bar (f : BarF)
  /-- BARA (R346): Joins the gathering for a group barrier without waiting, optionally releasing. -/
  | bara (f : BarF)
  /-- BARW (R346): Waits until the crew's barrier state is DONE or NONE, optionally acquiring. -/
  | barw (f : BarF)
  /-- BEXP (R350): Arms a byte-counting barrier word with n expected bytes. -/
  | bexp (f : XsF)
  /-- BARB (R350): Counts n bytes down on a byte-counting barrier word. -/
  | barb (f : XsF)
  /-- TEMPO (R353): Arrives at the kernel's tempo after the release conditions and blocks until release. -/
  | tempo (f : ChainF)
  /-- TEMPO_OR (R353): Arrives at the tempo with an OR contribution and receives the OR of the instance. -/
  | tempoOr (f : CgF)
  /-- GQRY (R339): Reports the crew's membership and attachment state in a group. -/
  | gqry (f : XgF)
  /-- WOPEN (R340): Requests attachment to a group's window and blocks until it leaves OPENING. -/
  | wopen (f : XgF)
  /-- WDET (R341): Detaches the crew from its window after its window accesses complete. -/
  | wdet (f : ChainF)
  /-- TRET (R385): Releases a TRAPPED thread by action 0, 1 or 2. -/
  | tret (f : SgF)
  /-- XFLT (R386): Takes the record at RCUR of a context's fault queue into s registers and advances RCUR. -/
  | xflt (f : SgF)
  /-- REPLAY (R387): Replays a page's side log and held accesses, or declares the page unmappable. -/
  | replay (f : SgF)
  /-- PINVAL (R388): Clears matching permission-cache entries on every core of the chip. -/
  | pinval (f : SF)
  /-- DROPR (R388): Drops replica lines of named pages on the dies selected by the mask. -/
  | dropr (f : DroprF)
  /-- CTXSW (R389): Makes a core bring a context in, or castle it out and spill it. -/
  | ctxsw (f : SgF)
  /-- HALT (R390): Blocks a firmware thread until a fault record, host request or device fault log event. -/
  | halt
  /-- PREFIX_ARITH (R55): Prefix giving an arithmetic base a lane mask, rounding mode, fourth source and merge or zero. -/
  | prefixArith (f : PfxArithF)
  /-- PREFIX_MEMORY (R55): Prefix giving a memory base a lane mask, ordering annotation, scope and merge or zero. -/
  | prefixMemory (f : PfxMemF)
  /-- TRAPV_SETH (R376): TRAPV command 0: sets the handler address and resets VIEW. -/
  | trapvSeth (v : Word)
  /-- TRAPV_VIEW (R376): TRAPV commands 1–4: selects a word of the top trap frame for MFSR. -/
  | trapvView (v : Word)
  /-- TRAPV_SETPC (R376): TRAPV command 5: sets the PC of the top trap frame. -/
  | trapvSetpc (v : Word)
  /-- TRAPV_RET (R376): TRAPV command 6: returns from the handler to the checked frame PC and pops the frame. -/
  | trapvRet
  /-- LOOKAHEAD_RESULT_DELIVERY (R56): A long-latency result arrives in its lanes and their locks are released. -/
  | lookaheadResultDelivery
  /-- TAKE_TRAP (R374): Once the thread's locks have resolved, pushes a trap frame and enters the handler, or escalates. -/
  | takeTrap
  /-- KNIGHT_DEPARTURE (R71): When the departure drain completes, the knight is injected and the slot freed. -/
  | knightDeparture
  /-- KNIGHT_ARRIVAL (R74): A knight is accepted at a core into a slot or the tail of its context's overflow list. -/
  | knightArrival
  /-- OVERFLOW_RECORD_RELOAD (R75): A freed slot takes the head record of the active context's overflow list. -/
  | overflowRecordReload
  /-- SPAWN_MESSAGE_SEND (R83): The spawn creation record leaves the core once the issuer's earlier writes are acknowledged. -/
  | spawnMessageSend
  /-- SPAWN_RECORD_ARRIVAL (R394): A SPAWN frame reaches its home and is placed as a knight would be, creating a pawn or launched thread. -/
  | spawnRecordArrival
  /-- EXIT_DRAIN_COMPLETE (R88): When the EXIT drain and side-log wait end with no deferred fault, the thread retires. -/
  | exitDrainComplete
  /-- SLEEP_DEADLINE (R92): CLOCK reaches a sleeping thread's deadline and it becomes READY. -/
  | sleepDeadline
  /-- FE_WAITING_ACCESS (R203): A bank performs the oldest waiting FE access that can now proceed. -/
  | feWaitingAccess
  /-- PERMISSION_PROBE (R184): A home answers a permission probe with its page entry's rights. -/
  | permissionProbe
  /-- PERMISSION_PROBE_REPLY (R240): The probe reply fills the permission-cache entry and the held lane becomes READY. -/
  | permissionProbeReply
  /-- REMOTE_READ (R186): A READ request is performed by the home's agent and answered with DATA. -/
  | remoteRead
  /-- LINE_FILL (R253): A line-fill request is answered with data and, on the home's die, a copy token. -/
  | lineFill
  /-- WINDOW_READ (R200): An LDW request is performed at the member crew's core, or refused as departed. -/
  | windowRead
  /-- READ_DATA_RESPONSE (R185): A DATA response delivers a remote read or line fill to the issuing lane or cache. -/
  | readDataResponse
  /-- WRITE_REQUEST (R192): A WRITE request is performed at its home, logged, or refused. -/
  | writeRequest
  /-- WINDOW_WRITE (R200): An STW request is performed at the member crew's core, or refused as departed. -/
  | windowWrite
  /-- ATOMIC_REQUEST (R210): An ATOM, RED or combined group is performed by the home's atomic unit. -/
  | atomicRequest
  /-- WATCH_REQUEST (R218): A WAITW watch arrives at the home and is recorded or woken at once. -/
  | watchRequest
  /-- ACK_RESPONSE (R71): An acknowledgement, with old value or refusal, reaches the source. -/
  | ackResponse
  /-- SIDE_LOG_REGISTRATION (R244): The deferred directory registers a side-log entry, setting LOGPEND as needed, then confirms it. -/
  | sideLogRegistration
  /-- LOGPEND_SET (R244): A core sets its LOGPEND bit for a context and acknowledges. -/
  | logpendSet
  /-- LOGPEND_CLEAR (R245): A core clears its LOGPEND bit when the notice is newer. -/
  | logpendClear
  /-- DIRECTORY_QUERY (R245): The deferred directory answers a thread's query about its entries and deferred records. -/
  | directoryQuery
  /-- DIRECTORY_QUERY_REPLY (R245): The reply reaches a thread waiting in TRAPF or EXIT. -/
  | directoryQueryReply
  /-- SEAL_AT_HOME (R250): A home seals or refuses the pages of a SEAL range it holds. -/
  | sealAtHome
  /-- UNSEAL_AT_HOME (R251): A home puts a sealed page into UNSEALING and recalls its replicas. -/
  | unsealAtHome
  /-- SEAL_ANSWER (R252): A home's answer reaches the SEAL or UNSEAL lane, which completes or traps when all have answered. -/
  | sealAnswer
  /-- RECALL (R253): Every holder drops a page's replica lines and returns their tokens. -/
  | recall
  /-- TOKEN_RETURN (R253): A returned copy token decrements TOKENS at the home. -/
  | tokenReturn
  /-- PAGE_GIVE (R239): Host driver request: gives a page rights and kind without a frame. -/
  | pageGive
  /-- MAP_FRAME (R246): Nyend maps a frame to an UNMAPPED page. -/
  | mapFrame
  /-- UNMAP_FRAME (R239): Nyend unmaps a page's frame. -/
  | unmapFrame
  /-- PAGE_WITHDRAW (R239): Host driver request: withdraws a page, which becomes RETIRED. -/
  | pageWithdraw
  /-- PLACEMENT_TABLE_INSTALL (R166): A placement table is checked and installed, possibly starting home changes. -/
  | placementTableInstall
  /-- HOME_CHANGE_FORWARD (R257): The old home forwards an access, knight or spawn to the new home. -/
  | homeChangeForward
  /-- DRAIN_MARKER_SEND (R257): The old home sends the drain marker once every core installed the table and forwards are acknowledged. -/
  | drainMarkerSend
  /-- HOME_CHANGE_MARKER (R257): The drain marker reaches the new home, which performs its held accesses and resumes. -/
  | homeChangeMarker
  /-- TIER_MOVE_START (R258): Nyend starts a tier move, writing NFRAME and NTIER and setting MOVING. -/
  | tierMoveStart
  /-- TIER_MOVE_LINE_COPY (R259): The home agent copies one line of a MOVING page indivisibly. -/
  | tierMoveLineCopy
  /-- MATRIX_OP_ACCEPT (R263): A WAITING posted operation takes a reservation entry and writes its ticket. -/
  | matrixOpAccept
  /-- MATRIX_OP_GRANT (R272): An idle engine unit grants one eligible entry. -/
  | matrixOpGrant
  /-- MATRIX_OP_COMPLETE (R273): A granted operation finishes; its entry is freed and the status register updated. -/
  | matrixOpComplete
  /-- QUEUE_CREATE (R282): Host driver request: creates a queue from its descriptor. -/
  | queueCreate
  /-- QUEUE_PAUSE (R283): Host driver request: pauses an ACTIVE queue. -/
  | queuePause
  /-- QUEUE_RESUME (R283): Host driver request: resumes a PAUSED queue. -/
  | queueResume
  /-- QUEUE_RESET (R283): Host driver request: resets a queue in ERROR past the malformed packet. -/
  | queueReset
  /-- QUEUE_DESTROY (R283): Host driver request: puts a queue into DRAINING. -/
  | queueDestroy
  /-- QUEUE_NOTICE (R285): A write-index notice reaches the queue's distributor. -/
  | queueNotice
  /-- PACKET_CONSUME (R286): The distributor takes the packet at RIDX once its V bit is seen and advances RIDX. -/
  | packetConsume
  /-- NODE_COMPLETE (R291): A node completes and its dependents become ready. -/
  | nodeComplete
  /-- COMPLETION_RECORD_WRITE (R293): A completion record is written when the ring has room, then WCUR advances. -/
  | completionRecordWrite
  /-- RING_REGISTER (R292): Host driver request: registers a completion ring descriptor. -/
  | ringRegister
  /-- POST_PUBLISH (R294): POST's claimed slot gains room and the packet is written, header last. -/
  | postPublish
  /-- CWAIT_TIMEOUT (R296): A CWAIT's time limit runs out and the lane becomes READY with g[G] unchanged. -/
  | cwaitTimeout
  /-- ENGINE_JOB_ACCEPT (R309): A job enters its engine's table and writes its ticket. -/
  | engineJobAccept
  /-- ENGINE_JOB_START (R305): A job starts once its dependences have completed and checks its descriptor. -/
  | engineJobStart
  /-- ENGINE_GRANULE (R302): An engine reads and writes one group of whole granules of a job's walk. -/
  | engineGranule
  /-- ENGINE_JOB_END (R309): A job completes, faults or is cancelled and frees its entry. -/
  | engineJobEnd
  /-- STAGING_GRANT_WITHDRAW (R311): Host driver request: withdraws a staging grant once no job names it. -/
  | stagingGrantWithdraw
  /-- DISTRIBUTION_START (R319): The kernel's entry is written on every chip of the context, then distribution begins. -/
  | distributionStart
  /-- CREW_PLACEMENT (R326): A distributor places a crew on the first qualifying core. -/
  | crewPlacement
  /-- CREW_START (R138): A placed crew's initial state and fill complete and it becomes RUNNING or SUSPENDED. -/
  | crewStart
  /-- BIND_FILL (R178): The map unit fills a bound scratchpad range from global memory. -/
  | bindFill
  /-- ROAMING_THREAD_CREATE (R322): A distributor reads a seed and sends the creation record of a roaming thread. -/
  | roamingThreadCreate
  /-- STEAL_REQUEST (R325): A victim distributor gives half its unassigned indices or refuses. -/
  | stealRequest
  /-- STEAL_REPLY (R325): A steal reply reaches the thief, which places the indices or steals on. -/
  | stealReply
  /-- CREW_RETIRE (R138): A DRAINING or DETACHING crew's conditions hold and it retires. -/
  | crewRetire
  /-- KERNEL_ENTRY_CLEAR (R319): The kernel's entries are cleared on every chip and its index freed after acknowledgement. -/
  | kernelEntryClear
  /-- GROUP_ENTRY_WRITE (R331): Host driver request: writes a group-table entry. -/
  | groupEntryWrite
  /-- GANG_RESERVE (R333): A chip reserves cores for its gang members and answers yes or no. -/
  | gangReserve
  /-- GANG_RESERVE_ANSWER (R333): The coordinator collects an answer and commits or releases. -/
  | gangReserveAnswer
  /-- GANG_COMMIT (R333): A chip places every member from its reservation. -/
  | gangCommit
  /-- GANG_RELEASE (R333): A chip releases its reservation. -/
  | gangRelease
  /-- WINDOW_OPEN (R335): A member's open reaches the window agent, which attaches the window when all have opened. -/
  | windowOpen
  /-- WINDOW_DEPARTURE (R336): A member's departure reaches the window agent, moving the window toward CLOSED. -/
  | windowDeparture
  /-- WINDOW_OPEN_REPLY (R340): The window's outcome reaches a member core and its waiting WOPEN lanes become READY. -/
  | windowOpenReply
  /-- BARRIER_ARRIVAL (R347): A crew's arrival reaches the group's barrier agent. -/
  | barrierArrival
  /-- BARRIER_RELEASE (R347): A release reaches a member crew's core, which becomes DONE. -/
  | barrierRelease
  /-- TEMPO_ARRIVAL (R352): A participant's arrival reaches the tempo agent. -/
  | tempoArrival
  /-- TEMPO_RELEASE (R353): A tempo release reaches a participant, which acquires and becomes READY. -/
  | tempoRelease
  /-- TEMPO_PARK (R355): A roaming thread waiting at TEMPO gives its slot to the overflow list head. -/
  | tempoPark
  /-- CONTEXT_CREATE (R361): Host driver request: creates a context. -/
  | contextCreate
  /-- CONTEXT_START (R361): Host driver request: makes a CREATED context LIVE. -/
  | contextStart
  /-- CONTEXT_STOP (R361): Host driver request: stops a LIVE context. -/
  | contextStop
  /-- CONTEXT_RESUME (R361): Host driver request: resumes a STOPPED context. -/
  | contextResume
  /-- CONTEXT_DESTROY (R361): Host driver request: starts teardown of a context. -/
  | contextDestroy
  /-- TEARDOWN (R369): Teardown drops the context's units, work and resources and injects flush markers. -/
  | teardown
  /-- FLUSH_MARKER (R411): A flush marker is passed on once received on every input of its class. -/
  | flushMarker
  /-- TEARDOWN_COMPLETE (R369): The flush has reached every sink and the context becomes FREE. -/
  | teardownComplete
  /-- PARTITION_WRITE (R359): Host driver request: writes a partition entry. -/
  | partitionWrite
  /-- APERTURE_MAP (R407): Host driver request: maps a BAR2 aperture to a context. -/
  | apertureMap
  /-- SEND_MATRIX_WRITE (R412): Host driver request: writes the send-permission matrix. -/
  | sendMatrixWrite
  /-- SCHEDULER_DECISION (R363): A core's scheduler picks a context and castles, fills or spills to bring it in. -/
  | schedulerDecision
  /-- QUANTUM_EXPIRY (R363): An ACTIVE context's quantum among equal priorities runs out. -/
  | quantumExpiry
  /-- CASTLING_COMPLETE (R364): The 96-cycle castling ends and the banks are exchanged. -/
  | castlingComplete
  /-- SPILL_START (R364): A spill of the shadow bank starts once its context meets the spill conditions. -/
  | spillStart
  /-- SPILL_COMPLETE (R365): The spill has been written and the context becomes ABSENT. -/
  | spillComplete
  /-- FILL_COMPLETE (R365): A fill restores slots, crews and the event log, and the context becomes SHADOW. -/
  | fillComplete
  /-- CASTLING_COORDINATION (R367): A gang's switch-out, report or commit message is handled by the coordinator or a member core. -/
  | castlingCoordination
  /-- FAULT_RECORD_WRITE (R383): A claimed fault record is written once the queue has room. -/
  | faultRecordWrite
  /-- FIRMWARE_REQUEST (R388): A firmware request reaches another chip's Nyend, which invalidates and answers. -/
  | firmwareRequest
  /-- FRAME_ROUTE (R399): A frame head at a router takes a pool or escape channel toward its next hop. -/
  | frameRoute
  /-- UET_PACKET_SEND (R404): A port sends a packet of frames, at the latest 64 network cycles after it began filling. -/
  | uetPacketSend
  /-- UET_PACKET_RECEIVE (R405): A port receives a packet and injects its frames, or drops it without room. -/
  | uetPacketReceive
  /-- PORT_UNREACHABLE (R406): UET reports a peer port unreachable and Nyend clears its reachable bit. -/
  | portUnreachable
  /-- CHIP_TABLE_WRITE (R406): Nyend writes the chip table at bring-up. -/
  | chipTableWrite
  /-- HOST_BAR2_ACCESS (R407): A host access through a BAR2 aperture is sent to its home under PCIe ordering. -/
  | hostBar2Access
  /-- LINK_ENABLE (R409): Nyend enables a link, which starts TRAINING. -/
  | linkEnable
  /-- LINK_DISABLE (R409): Nyend disables a link, which goes DOWN. -/
  | linkDisable
  /-- LINK_TRAINED (R409): A training ends UP or DEGRADED. -/
  | linkTrained
  /-- LINK_TRAINING_FAILED (R409): A training fails; the third consecutive failure makes the link FAILED. -/
  | linkTrainingFailed
  /-- LINK_RETRAIN (R409): Excess retries or loss of lock moves a link to RETRAINING. -/
  | linkRetrain
  /-- LINK_RETRY_REQUEST (R409): Host driver request: retrains a FAILED link. -/
  | linkRetryRequest
  /-- MESSAGE_ARRIVAL (R414): A MESSAGE is matched to a posted receive or queued, and answered. -/
  | messageArrival
  /-- MESSAGE_FILL_COMPLETE (R413): A receive's bytes are all performed and its entry becomes ARRIVED. -/
  | messageFillComplete
  /-- MREPLY_ARRIVAL (R416): An MREPLY reaches the sender, completing SEND or raising MESSAGE_OVERFLOW. -/
  | mreplyArrival
  /-- SENSOR_READING (R421): A reading of the sensors updates TMAX and decides band changes. -/
  | sensorReading
  /-- BAND_CHANGE_BLOCK (R426): A block applies a decided band change at its quiescent point. -/
  | bandChangeBlock
  /-- BAND3_ENTRY (R427): Work stops, the network drains and clocks stop for band 3. -/
  | band3Entry
  /-- BAND3_EXIT (R427): Self-refresh ends, memory retrains and issue resumes. -/
  | band3Exit
  /-- COOL_DOWN_REQUEST (R424): Host driver request: starts COOLING. -/
  | coolDownRequest
  /-- WARM_UP_REQUEST (R424): Host driver request: starts WARMING with every context FREE. -/
  | warmUpRequest
  /-- COLD_SETTLE_DONE (R424): Training, a scrub pass and 300 s of stability complete and the device is READY. -/
  | coldSettleDone
  /-- RECALIBRATION_HOLD (R425): The hold at 120 K ends on recalibration, or its 30 s limit runs out as a rate fault. -/
  | recalibrationHold
  /-- LEVEL_LOW (R424): The bath stays below its minimum mark for 10 s and the device enters FAULT. -/
  | levelLow
  /-- SCRUB_LINE (R428): The scrub engine reads and rewrites one line indivisibly. -/
  | scrubLine
  /-- SCRUB_LATE (R428): A scrub pass misses its 60 s deadline and scrub takes one slot in 16. -/
  | scrubLate
  /-- OWNER_RECORD_WRITE (R432): Host driver request: writes a page's owner record. -/
  | ownerRecordWrite
  /-- RESOURCE_RETIRE (R437): Nyend retires a channel, core or link and requests replacement. -/
  | resourceRetire
  /-- DEVICE_RESET (R424): Device reset returns the device to AMBIENT or COOLING and boots the firmware. -/
  | deviceReset
  /-- FUSE_BLOW_REQUEST (R438): Host driver request: blows rollback fuses up to SECVER. -/
  | fuseBlowRequest
  /-- ATTESTATION_REQUEST (R439): Host driver request: returns a signed attestation report for a nonce. -/
  | attestationRequest
  /-- SNAPSHOT_REQUEST (R435): Management request: fires the common snapshot trigger. -/
  | snapshotRequest
  /-- SNAPSHOT_TRIGGER_ARRIVAL (R435): The trigger reaches a block, which latches its state. -/
  | snapshotTriggerArrival
  /-- CAPTURE_READ (R436): Host driver mailbox request: reads part of a capture slot. -/
  | captureRead
  /-- FAULT_LOG_READ (R434): Host driver request: reads the device fault log. -/
  | faultLogRead
  /-- ILLEGAL_INSTR (R59): Issue of a chain holding a word whose major, minor or reserved field is unassigned raises ILLEGAL_INSTR at the chain head. -/
  | illegalInstr
  /-- FETCH_FAULT (R58): A chain head whose fetch fails (range, execute right, not sealed, not present) raises its fault before any word is decoded. -/
  | fetchFault
  /-- BARRIER_RELEASE_ACK (R347): A member core's acknowledgement of a barrier release reaches the agent, which returns the instance from RELEASING to IDLE once all are in. -/
  | barrierReleaseAck
  /-- BARRIER_MEMBER_DEPARTURE (R347): Notice that a member crew left RUNNING reaches the barrier agent, which lowers EXPECT, withdraws its arrival and retests completion. -/
  | barrierMemberDeparture
  /-- TEMPO_PARTICIPANT_NOTICE (R352): Notice of a new pawn or of a participant's retirement reaches the tempo agent, which updates LIVE, retests the instance and lets the home acknowledge the SPAWN. -/
  | tempoParticipantNotice
  /-- PCIE_COMPLETION (R197): A PCIe completion from the host (tier-2 read data, flushing read or AtomicOp result) reaches the home agent, which finishes the access. -/
  | pcieCompletion
  /-- UET_RETRANSMIT (R404): UET retransmits a packet that was lost, trimmed or dropped without acknowledgement. -/
  | uetRetransmit
  /-- LINK_CRC_ERROR (R409): A flit fails CRC on a link and is replayed, raising CRCERR and RETRIES. -/
  | linkCrcError
  /-- PORT_REACHABLE (R406): A peer Nyend reports a port UP or DEGRADED and Nyend sets its reachable bit again in the chip table. -/
  | portReachable
  /-- SNAPSHOT_CAPTURE_COMPLETE (R436): Writing a capture to its slot ends, so a later trigger is no longer dropped. -/
  | snapshotCaptureComplete
  deriving DecidableEq, Repr

end Sys2Proof
end

