-- ==== Sys2Proof/WellFormed.lean ====
section
/-! DEFINITION. Well-formed instructions: the operand-field rules that a decoded word must meet beside the fixed bits of its row
(03 R47-R53, R55 and the field rules of each instruction). A word that breaks one raises ILLEGAL_INSTR in class 2 of R57. -/

namespace Sys2Proof

/-- A packed integer type (R51): codes 4-7. -/
def packedInt (t : BitVec 3) : Bool := 4 ≤ t.toNat

/-- MD of an integer L3 word (R48): register, broadcast only with a packed type, immediate. -/
def intForm (t : BitVec 3) (m : BitVec 2) : Bool := m.toNat == 0 || m.toNat == 2 || (m.toNat == 1 && packedInt t)

/-- TY and MD of a float L3 word (R48, R51). -/
def fltForm (t : BitVec 3) (m : BitVec 2) : Bool :=
  decide (t.toNat ≤ 4) && (m.toNat == 0 || m.toNat == 2 || (m.toNat == 1 && decide (2 ≤ t.toNat)))

/-- The types MULW, PACK and UNPK take (R104): all but i64 and n64. -/
def lowTy (t : BitVec 3) : Bool := t.toNat != 2 && t.toNat != 3

/-- The pairings of CVTF (R120): destination t, source b, half select m. -/
def cvtfOk (t b m : Nat) : Bool :=
  (decide (t ≤ 1) && decide (b ≤ 1) && m == 0) || (t == b && decide (t ≤ 4) && m == 0)
  || ((t == 3 || t == 4) && (b == 3 || b == 4) && m == 0)
  || ((t == 3 || t == 4) && b == 2 && decide (m ≤ 1)) || (t == 2 && (b == 3 || b == 4) && decide (m ≤ 1))

/-- The pairings of CVTFI and CVTIF (R121, R122): integer code i, float code b. -/
def cvtfiOk (i b : Nat) : Bool := (decide (i ≤ 3) && decide (b ≤ 1)) || ((i == 4 || i == 5) && (b == 3 || b == 4))

/-- An s code of R49. -/
def isS (c : BitVec 8) : Bool := decide (c.toNat < 160)
/-- A k code of R49. -/
def isK (c : BitVec 8) : Bool := decide (160 ≤ c.toNat ∧ c.toNat < 168)
/-- A j code of R49. -/
def isJ (c : BitVec 8) : Bool := decide (168 ≤ c.toNat ∧ c.toNat < 176)
/-- A g code of R49. -/
def isG (c : BitVec 8) : Bool := decide (184 ≤ c.toNat ∧ c.toNat < 216)
/-- The s, k and g codes that SALU, SIMM and SPR words take (R143-R145). -/
def isSKG (c : BitVec 8) : Bool := isS c || isK c || isG c

/-- A special register that MTSR may name (R60). -/
def srWritable (n : Nat) : Bool := decide (10 ≤ n ∧ n ≤ 15) || n == 18 || n == 19

/-- Operation and type of REDL and SCANL (R158). -/
def redOk (b t : Nat) : Bool := decide (b ≤ 8) && ((b != 1 && b != 4 && b != 5) || decide (t ≤ 4))

/-- A parameter block of n words at SB stays inside s0-s159 (R47). -/
def block (s : BitVec 8) (n : Nat) : Bool := decide (s.toNat + n ≤ 160)

/-- The FL values of BAR, BARA and BARW (R344). -/
def barFl (f : BitVec 4) : Bool := f.toNat == 0 || decide (9 ≤ f.toNat ∧ f.toNat ≤ 13)

/-- The operand-field rules of every row; an event is always well-formed here. -/
def Instr.wf (i : Instr) : Bool :=
  match i with
  | .nop => true
  | .exit => true
  | .yield => true
  | .trapf => true
  | .trap _ => true
  | .sleep f => f.i.toNat != 0
  | .snap _ => true
  | .brk _ => true
  | .br _ => true
  | .call _ => true
  | .brpT _ => true
  | .brpF _ => true
  | .brpAny _ => true
  | .brpAll _ => true
  | .brpNone _ => true
  | .jr _ => true
  | .ret _ => true
  | .callr _ => true
  | .ppush _ => true
  | .pinv _ => true
  | .ppop _ => true
  | .pand _ => true
  | .pget _ => true
  | .pset _ => true
  | .enrol f => isJ f.j
  | .park f => isJ f.j
  | .strike f => isJ f.j
  | .jmov f => (isJ f.d && isSKG f.a) || (isSKG f.d && isJ f.a)
  | .add f => intForm f.t f.m
  | .sub f => intForm f.t f.m
  | .mul f => intForm f.t f.m
  | .mulh f => intForm f.t f.m
  | .andW f => intForm f.t f.m
  | .orW f => intForm f.t f.m
  | .xorW f => intForm f.t f.m
  | .andn f => intForm f.t f.m
  | .shl f => intForm f.t f.m
  | .shr f => intForm f.t f.m
  | .sar f => intForm f.t f.m
  | .rot f => intForm f.t f.m
  | .minW f => intForm f.t f.m
  | .maxW f => intForm f.t f.m
  | .sel f => intForm f.t f.m
  | .addsat f => intForm f.t f.m
  | .div _ => true
  | .rem _ => true
  | .mulw f => lowTy f.t && intForm f.t f.m
  | .absd f => intForm f.t f.m
  | .clz _ => true
  | .ctz _ => true
  | .popc _ => true
  | .brev _ => true
  | .absW _ => true
  | .neg _ => true
  | .bfx f => f.t.toNat ≤ 3
  | .bfi f => f.t.toNat ≤ 3
  | .lea f => f.m.toNat == 0 || f.m.toNat == 2
  | .pack f => lowTy f.t
  | .unpk f => lowTy f.t
  | .swapb _ => true
  | .addi _ => true
  | .andi _ => true
  | .ori _ => true
  | .xori _ => true
  | .shli f => f.i.toNat ≤ 63
  | .shri f => f.i.toNat ≤ 63
  | .sari f => f.i.toNat ≤ 63
  | .roti f => f.i.toNat ≤ 63
  | .icmp f => f.k.toNat ≤ 5
  | .icmpp f => f.k.toNat ≤ 5 && decide (f.t.toNat ≤ 3)
  | .movz _ => true
  | .movk _ => true
  | .movn _ => true
  | .fadd f => fltForm f.t f.m
  | .fsub f => fltForm f.t f.m
  | .fmul f => fltForm f.t f.m
  | .fmin f => fltForm f.t f.m
  | .fmax f => fltForm f.t f.m
  | .fminnum f => fltForm f.t f.m
  | .fmaxnum f => fltForm f.t f.m
  | .fsgn f => fltForm f.t f.m
  | .fscale f => fltForm f.t f.m
  | .fdot2 f => fltForm f.t f.m && decide (2 ≤ f.t.toNat)
  | .fma f => f.t.toNat ≤ 4
  | .fnma f => f.t.toNat ≤ 4
  | .cvtf f => cvtfOk f.t.toNat f.b.toNat f.m.toNat
  | .cvtfi f => cvtfiOk f.t.toNat f.b.toNat
  | .cvtif f => cvtfiOk f.b.toNat f.t.toNat
  | .cvtn f => f.t.toNat ≤ 2
  | .cvtw f => f.t.toNat ≤ 2
  | .frnd f => f.t.toNat ≤ 4
  | .frcps f => f.t.toNat ≤ 4
  | .frsqs f => f.t.toNat ≤ 4
  | .fexp2 f => f.t.toNat ≤ 4 && f.t.toNat != 1
  | .flog2 f => f.t.toNat ≤ 4 && f.t.toNat != 1
  | .fsin f => f.t.toNat ≤ 4 && f.t.toNat != 1
  | .fcos f => f.t.toNat ≤ 4 && f.t.toNat != 1
  | .fcmp f => f.k.toNat ≤ 7 && decide (f.t.toNat ≤ 4)
  | .fcmpp f => f.k.toNat ≤ 7 && decide (f.t.toNat ≤ 1)
  | .fclass f => f.t.toNat ≤ 4
  | .smov f => isSKG f.d && isSKG f.a
  | .sadd f => isSKG f.d && isSKG f.a
  | .ssub f => isSKG f.d && isSKG f.a
  | .smul f => isSKG f.d && isSKG f.a
  | .sand f => isSKG f.d && isSKG f.a
  | .sor f => isSKG f.d && isSKG f.a
  | .sxor f => isSKG f.d && isSKG f.a
  | .sshl f => isSKG f.d && isSKG f.a
  | .sshr f => isSKG f.d && isSKG f.a
  | .smin f => isSKG f.d && isSKG f.a
  | .smax f => isSKG f.d && isSKG f.a
  | .sdiv f => isSKG f.d && isSKG f.a
  | .srdl f => isS f.d && isG f.a
  | .sbc f => isSKG f.d && isSKG f.a
  | .smovi f => isSKG f.d
  | .saddi f => isSKG f.d
  | .sandi f => isSKG f.d
  | .sori f => isSKG f.d
  | .sshli f => isSKG f.d && decide (f.i.toNat ≤ 63)
  | .sshri f => isSKG f.d && decide (f.i.toNat ≤ 63)
  | .mfsr f => isSKG f.d && decide (f.a.toNat < 20)
  | .mtsr f => srWritable f.d.toNat && isSKG f.a
  | .sld f => isSKG f.d && (isS f.a || isG f.a)
  | .sst f => (isS f.d || isG f.d) && isSKG f.a
  | .shfl f => f.m.toNat == 0 || f.m.toNat == 2
  | .shflx f => f.m.toNat == 0 || f.m.toNat == 2
  | .shfli _ => true
  | .bcast _ => true
  | .redl f => redOk f.b.toNat f.t.toNat
  | .scanl f => redOk f.b.toNat f.t.toNat
  | .ballot f => f.t.toNat == 0 || f.t.toNat == 2
  | .vany f => f.t.toNat == 0 || f.t.toNat == 2
  | .vall f => f.t.toNat == 0 || f.t.toNat == 2
  | .matchL f => f.t.toNat ≤ 3
  | .matchN f => f.t.toNat ≤ 3
  | .popl f => f.t.toNat == 0 || f.t.toNat == 2
  | .ld f => f.s.toNat ≤ 3
  | .ldsx f => f.s.toNat ≤ 3
  | .ldnm f => f.s.toNat ≤ 3
  | .st f => f.s.toNat ≤ 3
  | .stnm f => f.s.toNat ≤ 3
  | .lds f => f.s.toNat ≤ 3
  | .sts f => f.s.toNat ≤ 3
  | .ldw f => f.s.toNat ≤ 3
  | .stw f => f.s.toNat ≤ 3
  | .ldfe _ => true
  | .stef _ => true
  | .ldff _ => true
  | .sete _ => true
  | .ldr f => f.s.toNat ≤ 3
  | .ldrna f => f.s.toNat ≤ 3
  | .ldp f => f.s.toNat ≤ 3
  | .stp f => f.s.toNat ≤ 3
  | .atomAdd _ => true
  | .atomFadd _ => true
  | .atomMin _ => true
  | .atomMax _ => true
  | .atomAnd _ => true
  | .atomOr _ => true
  | .atomXor _ => true
  | .atomXchg _ => true
  | .atomCas _ => true
  | .atomInc _ => true
  | .atomDec _ => true
  | .atomFmin _ => true
  | .atomFmax _ => true
  | .atomFaddComb _ => true
  | .redAdd _ => true
  | .redFadd _ => true
  | .redMin _ => true
  | .redMax _ => true
  | .redAnd _ => true
  | .redOr _ => true
  | .redXor _ => true
  | .redInc _ => true
  | .redDec _ => true
  | .redFmin _ => true
  | .redFmax _ => true
  | .redFaddComb _ => true
  | .migr _ => true
  | .spawn _ => true
  | .homeq _ => true
  | .fence f => decide (1 ≤ f.d.toNat ∧ f.d.toNat ≤ 3 ∧ f.s.toNat ≤ 5)
  | .seal _ => true
  | .unseal _ => true
  | .waitw _ => true
  | .send f => block f.s 2
  | .recvp f => block f.s 2
  | .recvw f => block f.s 1
  | .recvwTest f => block f.s 1
  | .probe f => block f.s 1
  | .mma f => block f.s 8
  | .mmamCausal f => block f.s 8
  | .mmamTree f => block f.s 8
  | .accz f => block f.s 8
  | .accrd f => block f.s 8
  | .accwr f => block f.s 8
  | .wbld f => block f.s 2
  | .wbdrop f => block f.s 1
  | .tmset f => block f.s 2
  | .mwait f => block f.s 1
  | .mwaitThru f => block f.s 1
  | .post f => block f.s 8
  | .tcopy f => block f.s 4
  | .layout f => block f.s 4
  | .mcast f => block f.s 4
  | .cpoll f => block f.s 1
  | .cwait f => block f.s 2
  | .qpop _ => true
  | .qfree _ => true
  | .bar f => block f.s 1 && barFl f.f
  | .bara f => block f.s 1 && barFl f.f
  | .barw f => block f.s 1 && barFl f.f
  | .bexp f => block f.s 2
  | .barb f => block f.s 2
  | .tempo _ => true
  | .tempoOr _ => true
  | .gqry f => block f.s 1
  | .wopen f => block f.s 1
  | .wdet _ => true
  | .tret f => block f.s 3
  | .xflt f => block f.s 9
  | .replay f => block f.s 3
  | .pinval f => block f.s 2
  | .dropr f => block f.s 2 && f.k.toNat != 0
  | .ctxsw f => block f.s 1
  | .halt => true
  | .prefixArith f => f.r.toNat ≤ 6 && (f.v.toNat == 1 || f.e.toNat == 0)
  | .prefixMemory f => f.o.toNat ≤ 3 && decide (f.s.toNat ≤ 5) && (f.o.toNat != 0 || f.s.toNat == 0)
  | .trapvSeth _ => true
  | .trapvView _ => true
  | .trapvSetpc _ => true
  | .trapvRet => true
  | .lookaheadResultDelivery => true
  | .takeTrap => true
  | .knightDeparture => true
  | .knightArrival => true
  | .overflowRecordReload => true
  | .spawnMessageSend => true
  | .spawnRecordArrival => true
  | .exitDrainComplete => true
  | .sleepDeadline => true
  | .feWaitingAccess => true
  | .permissionProbe => true
  | .permissionProbeReply => true
  | .remoteRead => true
  | .lineFill => true
  | .windowRead => true
  | .readDataResponse => true
  | .writeRequest => true
  | .windowWrite => true
  | .atomicRequest => true
  | .watchRequest => true
  | .ackResponse => true
  | .sideLogRegistration => true
  | .logpendSet => true
  | .logpendClear => true
  | .directoryQuery => true
  | .directoryQueryReply => true
  | .sealAtHome => true
  | .unsealAtHome => true
  | .sealAnswer => true
  | .recall => true
  | .tokenReturn => true
  | .pageGive => true
  | .mapFrame => true
  | .unmapFrame => true
  | .pageWithdraw => true
  | .placementTableInstall => true
  | .homeChangeForward => true
  | .drainMarkerSend => true
  | .homeChangeMarker => true
  | .tierMoveStart => true
  | .tierMoveLineCopy => true
  | .matrixOpAccept => true
  | .matrixOpGrant => true
  | .matrixOpComplete => true
  | .queueCreate => true
  | .queuePause => true
  | .queueResume => true
  | .queueReset => true
  | .queueDestroy => true
  | .queueNotice => true
  | .packetConsume => true
  | .nodeComplete => true
  | .completionRecordWrite => true
  | .ringRegister => true
  | .postPublish => true
  | .cwaitTimeout => true
  | .engineJobAccept => true
  | .engineJobStart => true
  | .engineGranule => true
  | .engineJobEnd => true
  | .stagingGrantWithdraw => true
  | .distributionStart => true
  | .crewPlacement => true
  | .crewStart => true
  | .bindFill => true
  | .roamingThreadCreate => true
  | .stealRequest => true
  | .stealReply => true
  | .crewRetire => true
  | .kernelEntryClear => true
  | .groupEntryWrite => true
  | .gangReserve => true
  | .gangReserveAnswer => true
  | .gangCommit => true
  | .gangRelease => true
  | .windowOpen => true
  | .windowDeparture => true
  | .windowOpenReply => true
  | .barrierArrival => true
  | .barrierRelease => true
  | .tempoArrival => true
  | .tempoRelease => true
  | .tempoPark => true
  | .contextCreate => true
  | .contextStart => true
  | .contextStop => true
  | .contextResume => true
  | .contextDestroy => true
  | .teardown => true
  | .flushMarker => true
  | .teardownComplete => true
  | .partitionWrite => true
  | .apertureMap => true
  | .sendMatrixWrite => true
  | .schedulerDecision => true
  | .quantumExpiry => true
  | .castlingComplete => true
  | .spillStart => true
  | .spillComplete => true
  | .fillComplete => true
  | .castlingCoordination => true
  | .faultRecordWrite => true
  | .firmwareRequest => true
  | .frameRoute => true
  | .uetPacketSend => true
  | .uetPacketReceive => true
  | .portUnreachable => true
  | .chipTableWrite => true
  | .hostBar2Access => true
  | .linkEnable => true
  | .linkDisable => true
  | .linkTrained => true
  | .linkTrainingFailed => true
  | .linkRetrain => true
  | .linkRetryRequest => true
  | .messageArrival => true
  | .messageFillComplete => true
  | .mreplyArrival => true
  | .sensorReading => true
  | .bandChangeBlock => true
  | .band3Entry => true
  | .band3Exit => true
  | .coolDownRequest => true
  | .warmUpRequest => true
  | .coldSettleDone => true
  | .recalibrationHold => true
  | .levelLow => true
  | .scrubLine => true
  | .scrubLate => true
  | .ownerRecordWrite => true
  | .resourceRetire => true
  | .deviceReset => true
  | .fuseBlowRequest => true
  | .attestationRequest => true
  | .snapshotRequest => true
  | .snapshotTriggerArrival => true
  | .captureRead => true
  | .faultLogRead => true
  | .illegalInstr => true
  | .fetchFault => true
  | .barrierReleaseAck => true
  | .barrierMemberDeparture => true
  | .tempoParticipantNotice => true
  | .pcieCompletion => true
  | .uetRetransmit => true
  | .linkCrcError => true
  | .portReachable => true
  | .snapshotCaptureComplete => true

end Sys2Proof
end

