-- ==== Sys2Proof/Decode.lean ====
section
/-! DEFINITION. The decoder and the encoder of instruction words, from the formats and the opcode map of 03 R40-R59.
Decoding is total; what it does not accept it rejects by name. -/

namespace Sys2Proof

/-- Why a word is not an instruction: an unlisted major or minor, a field that must be zero or hold a listed value (R50, R59), the
chain bit on a word that must end its chain (R44), or too few bytes. -/
inductive Reject where
  | major | minor | reserved | chainBit | short
  deriving DecidableEq, Repr

/-- Field [hi:lo] of a word as a bit vector. -/
def bf (w hi lo : Nat) : BitVec (hi + 1 - lo) := BitVec.ofNat _ (fld w hi lo)

def CtlF.ofWord (w : Nat) : CtlF := ⟨bf w 12 0⟩
def CtlF.toWord (f : CtlF) : Nat := f.i.toNat * 1

def BrF.ofWord (w : Nat) : BrF := ⟨bf w 21 0⟩
def BrF.toWord (f : BrF) : Nat := f.o.toNat * 1

def JrF.ofWord (w : Nat) : JrF := ⟨bf w 19 15, bf w 2 2⟩
def JrF.toWord (f : JrF) : Nat := f.a.toNat * 32768 + f.p.toNat * 4

def RetF.ofWord (w : Nat) : RetF := ⟨bf w 2 2⟩
def RetF.toWord (f : RetF) : Nat := f.p.toNat * 4

def PredAF.ofWord (w : Nat) : PredAF := ⟨bf w 31 31, bf w 19 15⟩
def PredAF.toWord (f : PredAF) : Nat := f.c.toNat * 2147483648 + f.a.toNat * 32768

def ChainF.ofWord (w : Nat) : ChainF := ⟨bf w 31 31⟩
def ChainF.toWord (f : ChainF) : Nat := f.c.toNat * 2147483648

def PredDF.ofWord (w : Nat) : PredDF := ⟨bf w 31 31, bf w 24 20⟩
def PredDF.toWord (f : PredDF) : Nat := f.c.toNat * 2147483648 + f.d.toNat * 1048576

def RejF.ofWord (w : Nat) : RejF := ⟨bf w 31 31, bf w 24 17⟩
def RejF.toWord (f : RejF) : Nat := f.c.toNat * 2147483648 + f.j.toNat * 131072

def S2F.ofWord (w : Nat) : S2F := ⟨bf w 31 31, bf w 24 17, bf w 16 9⟩
def S2F.toWord (f : S2F) : Nat := f.c.toNat * 2147483648 + f.d.toNat * 131072 + f.a.toNat * 512

def L3F.ofWord (w : Nat) : L3F := ⟨bf w 31 31, bf w 24 20, bf w 19 15, bf w 14 10, bf w 5 3, bf w 2 2, bf w 1 0⟩
def L3F.toWord (f : L3F) : Nat := f.c.toNat * 2147483648 + f.d.toNat * 1048576 + f.a.toNat * 32768 + f.b.toNat * 1024 + f.t.toNat * 8 + f.p.toNat * 4 + f.m.toNat * 1

def SelF.ofWord (w : Nat) : SelF := ⟨bf w 31 31, bf w 24 20, bf w 19 15, bf w 14 10, bf w 5 3, bf w 1 0⟩
def SelF.toWord (f : SelF) : Nat := f.c.toNat * 2147483648 + f.d.toNat * 1048576 + f.a.toNat * 32768 + f.b.toNat * 1024 + f.t.toNat * 8 + f.m.toNat * 1

def LongF.ofWord (w : Nat) : LongF := ⟨bf w 31 31, bf w 24 20, bf w 19 15, bf w 14 10, bf w 5 3, bf w 2 2, bf w 1 0⟩
def LongF.toWord (f : LongF) : Nat := f.c.toNat * 2147483648 + f.d.toNat * 1048576 + f.a.toNat * 32768 + f.b.toNat * 1024 + f.t.toNat * 8 + f.p.toNat * 4 + f.l.toNat * 1

def UnF.ofWord (w : Nat) : UnF := ⟨bf w 31 31, bf w 24 20, bf w 19 15, bf w 5 3, bf w 2 2⟩
def UnF.toWord (f : UnF) : Nat := f.c.toNat * 2147483648 + f.d.toNat * 1048576 + f.a.toNat * 32768 + f.t.toNat * 8 + f.p.toNat * 4

def L3NF.ofWord (w : Nat) : L3NF := ⟨bf w 31 31, bf w 24 20, bf w 19 15, bf w 14 10, bf w 5 3, bf w 2 2⟩
def L3NF.toWord (f : L3NF) : Nat := f.c.toNat * 2147483648 + f.d.toNat * 1048576 + f.a.toNat * 32768 + f.b.toNat * 1024 + f.t.toNat * 8 + f.p.toNat * 4

def LiF.ofWord (w : Nat) : LiF := ⟨bf w 31 31, bf w 24 20, bf w 19 15, bf w 14 3, bf w 2 2⟩
def LiF.toWord (f : LiF) : Nat := f.c.toNat * 2147483648 + f.d.toNat * 1048576 + f.a.toNat * 32768 + f.i.toNat * 8 + f.p.toNat * 4

def CmpF.ofWord (w : Nat) : CmpF := ⟨bf w 31 31, bf w 24 20, bf w 19 15, bf w 14 10, bf w 9 6, bf w 5 3, bf w 2 2⟩
def CmpF.toWord (f : CmpF) : Nat := f.c.toNat * 2147483648 + f.d.toNat * 1048576 + f.a.toNat * 32768 + f.b.toNat * 1024 + f.k.toNat * 64 + f.t.toNat * 8 + f.p.toNat * 4

def CmpPF.ofWord (w : Nat) : CmpPF := ⟨bf w 31 31, bf w 19 15, bf w 14 10, bf w 9 6, bf w 5 3, bf w 2 2⟩
def CmpPF.toWord (f : CmpPF) : Nat := f.c.toNat * 2147483648 + f.a.toNat * 32768 + f.b.toNat * 1024 + f.k.toNat * 64 + f.t.toNat * 8 + f.p.toNat * 4

def MovF.ofWord (w : Nat) : MovF := ⟨bf w 31 31, bf w 24 20, bf w 19 4, bf w 3 2⟩
def MovF.toWord (f : MovF) : Nat := f.c.toNat * 2147483648 + f.d.toNat * 1048576 + f.i.toNat * 16 + f.h.toNat * 4

def FmaF.ofWord (w : Nat) : FmaF := ⟨bf w 31 31, bf w 24 20, bf w 19 15, bf w 14 10, bf w 9 5, bf w 4 2, bf w 1 1⟩
def FmaF.toWord (f : FmaF) : Nat := f.c.toNat * 2147483648 + f.d.toNat * 1048576 + f.a.toNat * 32768 + f.b.toNat * 1024 + f.e.toNat * 32 + f.t.toNat * 4 + f.p.toNat * 2

def SpecF.ofWord (w : Nat) : SpecF := ⟨bf w 31 31, bf w 24 20, bf w 19 15, bf w 5 3, bf w 2 2, bf w 1 0⟩
def SpecF.toWord (f : SpecF) : Nat := f.c.toNat * 2147483648 + f.d.toNat * 1048576 + f.a.toNat * 32768 + f.t.toNat * 8 + f.p.toNat * 4 + f.l.toNat * 1

def SiF.ofWord (w : Nat) : SiF := ⟨bf w 31 31, bf w 24 17, bf w 12 0⟩
def SiF.toWord (f : SiF) : Nat := f.c.toNat * 2147483648 + f.d.toNat * 131072 + f.i.toNat * 1

def XmvF.ofWord (w : Nat) : XmvF := ⟨bf w 31 31, bf w 24 20, bf w 19 15, bf w 14 10, bf w 2 2, bf w 1 0⟩
def XmvF.toWord (f : XmvF) : Nat := f.c.toNat * 2147483648 + f.d.toNat * 1048576 + f.a.toNat * 32768 + f.b.toNat * 1024 + f.p.toNat * 4 + f.m.toNat * 1

def ShfliF.ofWord (w : Nat) : ShfliF := ⟨bf w 31 31, bf w 24 20, bf w 19 15, bf w 14 10, bf w 2 2⟩
def ShfliF.toWord (f : ShfliF) : Nat := f.c.toNat * 2147483648 + f.d.toNat * 1048576 + f.a.toNat * 32768 + f.b.toNat * 1024 + f.p.toNat * 4

def DapF.ofWord (w : Nat) : DapF := ⟨bf w 31 31, bf w 24 20, bf w 19 15, bf w 2 2⟩
def DapF.toWord (f : DapF) : Nat := f.c.toNat * 2147483648 + f.d.toNat * 1048576 + f.a.toNat * 32768 + f.p.toNat * 4

def LmF.ofWord (w : Nat) : LmF := ⟨bf w 31 31, bf w 24 20, bf w 19 15, bf w 14 11, bf w 10 8, bf w 7 3, bf w 2 2⟩
def LmF.toWord (f : LmF) : Nat := f.c.toNat * 2147483648 + f.d.toNat * 1048576 + f.a.toNat * 32768 + f.l.toNat * 2048 + f.s.toNat * 256 + f.o.toNat * 8 + f.p.toNat * 4

def StF.ofWord (w : Nat) : StF := ⟨bf w 31 31, bf w 24 20, bf w 19 15, bf w 10 8, bf w 7 3, bf w 2 2⟩
def StF.toWord (f : StF) : Nat := f.c.toNat * 2147483648 + f.d.toNat * 1048576 + f.a.toNat * 32768 + f.s.toNat * 256 + f.o.toNat * 8 + f.p.toNat * 4

def LdfeF.ofWord (w : Nat) : LdfeF := ⟨bf w 31 31, bf w 24 20, bf w 19 15, bf w 14 11, bf w 7 3, bf w 2 2⟩
def LdfeF.toWord (f : LdfeF) : Nat := f.c.toNat * 2147483648 + f.d.toNat * 1048576 + f.a.toNat * 32768 + f.l.toNat * 2048 + f.o.toNat * 8 + f.p.toNat * 4

def StefF.ofWord (w : Nat) : StefF := ⟨bf w 31 31, bf w 24 20, bf w 19 15, bf w 7 3, bf w 2 2⟩
def StefF.toWord (f : StefF) : Nat := f.c.toNat * 2147483648 + f.d.toNat * 1048576 + f.a.toNat * 32768 + f.o.toNat * 8 + f.p.toNat * 4

def SeteF.ofWord (w : Nat) : SeteF := ⟨bf w 31 31, bf w 19 15, bf w 7 3, bf w 2 2⟩
def SeteF.toWord (f : SeteF) : Nat := f.c.toNat * 2147483648 + f.a.toNat * 32768 + f.o.toNat * 8 + f.p.toNat * 4

def AtomF.ofWord (w : Nat) : AtomF := ⟨bf w 31 31, bf w 24 20, bf w 19 15, bf w 14 10, bf w 5 5, bf w 3 0⟩
def AtomF.toWord (f : AtomF) : Nat := f.c.toNat * 2147483648 + f.d.toNat * 1048576 + f.a.toNat * 32768 + f.b.toNat * 1024 + f.t.toNat * 32 + f.l.toNat * 1

def RedF.ofWord (w : Nat) : RedF := ⟨bf w 31 31, bf w 19 15, bf w 14 10, bf w 5 5⟩
def RedF.toWord (f : RedF) : Nat := f.c.toNat * 2147483648 + f.a.toNat * 32768 + f.b.toNat * 1024 + f.t.toNat * 32

def FlowF.ofWord (w : Nat) : FlowF := ⟨bf w 31 31, bf w 24 20, bf w 19 15⟩
def FlowF.toWord (f : FlowF) : Nat := f.c.toNat * 2147483648 + f.d.toNat * 1048576 + f.a.toNat * 32768

def SpawnF.ofWord (w : Nat) : SpawnF := ⟨bf w 31 31, bf w 24 20, bf w 19 15, bf w 14 10⟩
def SpawnF.toWord (f : SpawnF) : Nat := f.c.toNat * 2147483648 + f.d.toNat * 1048576 + f.a.toNat * 32768 + f.b.toNat * 1024

def FenceF.ofWord (w : Nat) : FenceF := ⟨bf w 31 31, bf w 24 20, bf w 10 8⟩
def FenceF.toWord (f : FenceF) : Nat := f.c.toNat * 2147483648 + f.d.toNat * 1048576 + f.s.toNat * 256

def WaitwF.ofWord (w : Nat) : WaitwF := ⟨bf w 31 31, bf w 24 20, bf w 19 15, bf w 8 8, bf w 7 3, bf w 2 2⟩
def WaitwF.toWord (f : WaitwF) : Nat := f.c.toNat * 2147483648 + f.d.toNat * 1048576 + f.a.toNat * 32768 + f.s.toNat * 256 + f.o.toNat * 8 + f.p.toNat * 4

def XgF.ofWord (w : Nat) : XgF := ⟨bf w 31 31, bf w 24 17, bf w 8 4⟩
def XgF.toWord (f : XgF) : Nat := f.c.toNat * 2147483648 + f.s.toNat * 131072 + f.g.toNat * 16

def XlgF.ofWord (w : Nat) : XlgF := ⟨bf w 31 31, bf w 24 17, bf w 16 13, bf w 8 4⟩
def XlgF.toWord (f : XlgF) : Nat := f.c.toNat * 2147483648 + f.s.toNat * 131072 + f.l.toNat * 8192 + f.g.toNat * 16

def MmamF.ofWord (w : Nat) : MmamF := ⟨bf w 31 31, bf w 24 17, bf w 16 13, bf w 8 4, bf w 3 2⟩
def MmamF.toWord (f : MmamF) : Nat := f.c.toNat * 2147483648 + f.s.toNat * 131072 + f.l.toNat * 8192 + f.g.toNat * 16 + f.t.toNat * 4

def XsF.ofWord (w : Nat) : XsF := ⟨bf w 31 31, bf w 24 17⟩
def XsF.toWord (f : XsF) : Nat := f.c.toNat * 2147483648 + f.s.toNat * 131072

def QpopF.ofWord (w : Nat) : QpopF := ⟨bf w 31 31, bf w 8 4, bf w 2 0⟩
def QpopF.toWord (f : QpopF) : Nat := f.c.toNat * 2147483648 + f.g.toNat * 16 + f.q.toNat * 1

def QfreeF.ofWord (w : Nat) : QfreeF := ⟨bf w 31 31, bf w 2 0⟩
def QfreeF.toWord (f : QfreeF) : Nat := f.c.toNat * 2147483648 + f.q.toNat * 1

def BarF.ofWord (w : Nat) : BarF := ⟨bf w 31 31, bf w 24 17, bf w 3 0⟩
def BarF.toWord (f : BarF) : Nat := f.c.toNat * 2147483648 + f.s.toNat * 131072 + f.f.toNat * 1

def CgF.ofWord (w : Nat) : CgF := ⟨bf w 31 31, bf w 8 4⟩
def CgF.toWord (f : CgF) : Nat := f.c.toNat * 2147483648 + f.g.toNat * 16

def SgF.ofWord (w : Nat) : SgF := ⟨bf w 24 17, bf w 8 4⟩
def SgF.toWord (f : SgF) : Nat := f.s.toNat * 131072 + f.g.toNat * 16

def SF.ofWord (w : Nat) : SF := ⟨bf w 24 17⟩
def SF.toWord (f : SF) : Nat := f.s.toNat * 131072

def DroprF.ofWord (w : Nat) : DroprF := ⟨bf w 24 17, bf w 3 0⟩
def DroprF.toWord (f : DroprF) : Nat := f.s.toNat * 131072 + f.k.toNat * 1

def PfxArithF.ofWord (w : Nat) : PfxArithF := ⟨bf w 24 22, bf w 21 19, bf w 18 14, bf w 13 13, bf w 12 12⟩
def PfxArithF.toWord (f : PfxArithF) : Nat := f.k.toNat * 4194304 + f.r.toNat * 524288 + f.e.toNat * 16384 + f.z.toNat * 8192 + f.v.toNat * 4096

def PfxMemF.ofWord (w : Nat) : PfxMemF := ⟨bf w 24 22, bf w 21 19, bf w 16 14, bf w 13 13⟩
def PfxMemF.toWord (f : PfxMemF) : Nat := f.k.toNat * 4194304 + f.o.toNat * 524288 + f.s.toNat * 16384 + f.z.toNat * 8192

/-- The minors of major 0x01 (R59). -/
def decMajor01 (w : Nat) : Except Reject Instr :=
  if fld w 31 31 ≠ 0 then .error .chainBit else
  match fld w 16 13 with
  | 0 => if fld w 24 17 = 0 ∧ fld w 12 0 = 0 then .ok (.nop) else .error .reserved
  | 1 => if fld w 24 17 = 0 ∧ fld w 12 0 = 0 then .ok (.exit) else .error .reserved
  | 2 => if fld w 24 17 = 0 ∧ fld w 12 0 = 0 then .ok (.yield) else .error .reserved
  | 3 => if fld w 24 17 = 0 ∧ fld w 12 0 = 0 then .ok (.trapf) else .error .reserved
  | 4 => if fld w 24 17 = 0 then .ok (.trap (.ofWord w)) else .error .reserved
  | 5 => if fld w 24 17 = 0 then .ok (.sleep (.ofWord w)) else .error .reserved
  | 6 => if fld w 24 17 = 0 then .ok (.snap (.ofWord w)) else .error .reserved
  | 7 => if fld w 24 17 = 0 then .ok (.brk (.ofWord w)) else .error .reserved
  | _ => .error .minor

/-- The minors of major 0x02 (R59). -/
def decMajor02 (w : Nat) : Except Reject Instr :=
  if fld w 31 31 ≠ 0 then .error .chainBit else
  match fld w 24 22 with
  | 0 => .ok (.br (.ofWord w))
  | 1 => .ok (.call (.ofWord w))
  | _ => .error .minor

/-- The minors of major 0x03 (R59). -/
def decMajor03 (w : Nat) : Except Reject Instr :=
  if fld w 31 31 ≠ 0 then .error .chainBit else
  match fld w 24 22 with
  | 0 => .ok (.brpT (.ofWord w))
  | 1 => .ok (.brpF (.ofWord w))
  | 2 => .ok (.brpAny (.ofWord w))
  | 3 => .ok (.brpAll (.ofWord w))
  | 4 => .ok (.brpNone (.ofWord w))
  | _ => .error .minor

/-- The minors of major 0x04 (R59). -/
def decMajor04 (w : Nat) : Except Reject Instr :=
  if fld w 31 31 ≠ 0 then .error .chainBit else
  match fld w 9 6 with
  | 0 => if fld w 24 20 = 0 ∧ fld w 14 10 = 0 ∧ fld w 5 3 = 0 ∧ fld w 1 0 = 0 then .ok (.jr (.ofWord w)) else .error .reserved
  | 1 => if fld w 24 10 = 0 ∧ fld w 5 3 = 0 ∧ fld w 1 0 = 0 then .ok (.ret (.ofWord w)) else .error .reserved
  | 2 => if fld w 24 20 = 0 ∧ fld w 14 10 = 0 ∧ fld w 5 3 = 0 ∧ fld w 1 0 = 0 then .ok (.callr (.ofWord w)) else .error .reserved
  | _ => .error .minor

/-- The minors of major 0x05 (R59). -/
def decMajor05 (w : Nat) : Except Reject Instr :=
  match fld w 9 6 with
  | 0 => if fld w 24 20 = 0 ∧ fld w 14 10 = 0 ∧ fld w 5 0 = 0 then .ok (.ppush (.ofWord w)) else .error .reserved
  | 1 => if fld w 24 10 = 0 ∧ fld w 5 0 = 0 then .ok (.pinv (.ofWord w)) else .error .reserved
  | 2 => if fld w 24 10 = 0 ∧ fld w 5 0 = 0 then .ok (.ppop (.ofWord w)) else .error .reserved
  | 3 => if fld w 24 20 = 0 ∧ fld w 14 10 = 0 ∧ fld w 5 0 = 0 then .ok (.pand (.ofWord w)) else .error .reserved
  | 4 => if fld w 19 10 = 0 ∧ fld w 5 0 = 0 then .ok (.pget (.ofWord w)) else .error .reserved
  | 5 => if fld w 24 20 = 0 ∧ fld w 14 10 = 0 ∧ fld w 5 0 = 0 then .ok (.pset (.ofWord w)) else .error .reserved
  | _ => .error .minor

/-- The minors of major 0x06 (R59). -/
def decMajor06 (w : Nat) : Except Reject Instr :=
  match fld w 8 4 with
  | 0 => if fld w 16 9 = 0 ∧ fld w 3 0 = 0 then .ok (.enrol (.ofWord w)) else .error .reserved
  | 1 => if fld w 16 9 = 0 ∧ fld w 3 0 = 0 then .ok (.park (.ofWord w)) else .error .reserved
  | 2 => if fld w 16 9 = 0 ∧ fld w 3 0 = 0 then .ok (.strike (.ofWord w)) else .error .reserved
  | 3 => if fld w 3 0 = 0 then .ok (.jmov (.ofWord w)) else .error .reserved
  | _ => .error .minor

/-- The minors of major 0x08 (R59). -/
def decMajor08 (w : Nat) : Except Reject Instr :=
  match fld w 9 6 with
  | 0 => .ok (.add (.ofWord w))
  | 1 => .ok (.sub (.ofWord w))
  | 2 => .ok (.mul (.ofWord w))
  | 3 => .ok (.mulh (.ofWord w))
  | 4 => .ok (.andW (.ofWord w))
  | 5 => .ok (.orW (.ofWord w))
  | 6 => .ok (.xorW (.ofWord w))
  | 7 => .ok (.andn (.ofWord w))
  | 8 => .ok (.shl (.ofWord w))
  | 9 => .ok (.shr (.ofWord w))
  | 10 => .ok (.sar (.ofWord w))
  | 11 => .ok (.rot (.ofWord w))
  | 12 => .ok (.minW (.ofWord w))
  | 13 => .ok (.maxW (.ofWord w))
  | 14 => if fld w 2 2 = 0 then .ok (.sel (.ofWord w)) else .error .reserved
  | 15 => .ok (.addsat (.ofWord w))
  | _ => .error .minor

/-- The minors of major 0x09 (R59). -/
def decMajor09 (w : Nat) : Except Reject Instr :=
  match fld w 9 6 with
  | 0 => .ok (.div (.ofWord w))
  | 1 => .ok (.rem (.ofWord w))
  | 2 => .ok (.mulw (.ofWord w))
  | 3 => .ok (.absd (.ofWord w))
  | 4 => if fld w 14 10 = 0 ∧ fld w 1 0 = 0 then .ok (.clz (.ofWord w)) else .error .reserved
  | 5 => if fld w 14 10 = 0 ∧ fld w 1 0 = 0 then .ok (.ctz (.ofWord w)) else .error .reserved
  | 6 => if fld w 14 10 = 0 ∧ fld w 1 0 = 0 then .ok (.popc (.ofWord w)) else .error .reserved
  | 7 => if fld w 14 10 = 0 ∧ fld w 1 0 = 0 then .ok (.brev (.ofWord w)) else .error .reserved
  | 8 => if fld w 14 10 = 0 ∧ fld w 1 0 = 0 then .ok (.absW (.ofWord w)) else .error .reserved
  | 9 => if fld w 14 10 = 0 ∧ fld w 1 0 = 0 then .ok (.neg (.ofWord w)) else .error .reserved
  | 10 => if fld w 1 0 = 0 then .ok (.bfx (.ofWord w)) else .error .reserved
  | 11 => if fld w 1 0 = 0 then .ok (.bfi (.ofWord w)) else .error .reserved
  | 12 => .ok (.lea (.ofWord w))
  | 13 => if fld w 1 0 = 0 then .ok (.pack (.ofWord w)) else .error .reserved
  | 14 => if fld w 14 10 = 0 ∧ fld w 1 0 = 0 then .ok (.unpk (.ofWord w)) else .error .reserved
  | 15 => if fld w 14 10 = 0 ∧ fld w 1 0 = 0 then .ok (.swapb (.ofWord w)) else .error .reserved
  | _ => .error .minor

/-- The minors of major 0x0a (R59). -/
def decMajor0a (w : Nat) : Except Reject Instr :=
  match fld w 1 0 with
  | 0 => .ok (.addi (.ofWord w))
  | 1 => .ok (.andi (.ofWord w))
  | 2 => .ok (.ori (.ofWord w))
  | 3 => .ok (.xori (.ofWord w))
  | _ => .error .minor

/-- The minors of major 0x0b (R59). -/
def decMajor0b (w : Nat) : Except Reject Instr :=
  match fld w 1 0 with
  | 0 => .ok (.shli (.ofWord w))
  | 1 => .ok (.shri (.ofWord w))
  | 2 => .ok (.sari (.ofWord w))
  | 3 => .ok (.roti (.ofWord w))
  | _ => .error .minor

/-- The minors of major 0x0c (R59). -/
def decMajor0c (w : Nat) : Except Reject Instr :=
  match fld w 1 0 with
  | 0 => .ok (.icmp (.ofWord w))
  | 1 => if fld w 24 20 = 0 then .ok (.icmpp (.ofWord w)) else .error .reserved
  | _ => .error .minor

/-- The minors of major 0x0d (R59). -/
def decMajor0d (w : Nat) : Except Reject Instr :=
  match fld w 1 0 with
  | 0 => .ok (.movz (.ofWord w))
  | 1 => .ok (.movk (.ofWord w))
  | 2 => .ok (.movn (.ofWord w))
  | _ => .error .minor

/-- The minors of major 0x10 (R59). -/
def decMajor10 (w : Nat) : Except Reject Instr :=
  match fld w 9 6 with
  | 0 => .ok (.fadd (.ofWord w))
  | 1 => .ok (.fsub (.ofWord w))
  | 2 => .ok (.fmul (.ofWord w))
  | 3 => .ok (.fmin (.ofWord w))
  | 4 => .ok (.fmax (.ofWord w))
  | 5 => .ok (.fminnum (.ofWord w))
  | 6 => .ok (.fmaxnum (.ofWord w))
  | 7 => .ok (.fsgn (.ofWord w))
  | 8 => .ok (.fscale (.ofWord w))
  | 9 => .ok (.fdot2 (.ofWord w))
  | _ => .error .minor

/-- The minors of major 0x11 (R59). -/
def decMajor11 (w : Nat) : Except Reject Instr :=
  match fld w 0 0 with
  | 0 => .ok (.fma (.ofWord w))
  | 1 => .ok (.fnma (.ofWord w))
  | _ => .error .minor

/-- The minors of major 0x12 (R59). -/
def decMajor12 (w : Nat) : Except Reject Instr :=
  match fld w 9 6 with
  | 0 => .ok (.cvtf (.ofWord w))
  | 1 => if fld w 1 0 = 0 then .ok (.cvtfi (.ofWord w)) else .error .reserved
  | 2 => if fld w 1 0 = 0 then .ok (.cvtif (.ofWord w)) else .error .reserved
  | 3 => .ok (.cvtn (.ofWord w))
  | 4 => if fld w 1 0 = 0 then .ok (.cvtw (.ofWord w)) else .error .reserved
  | 5 => if fld w 14 10 = 0 ∧ fld w 1 0 = 0 then .ok (.frnd (.ofWord w)) else .error .reserved
  | _ => .error .minor

/-- The minors of major 0x13 (R59). -/
def decMajor13 (w : Nat) : Except Reject Instr :=
  match fld w 9 6 with
  | 0 => if fld w 14 10 = 0 then .ok (.frcps (.ofWord w)) else .error .reserved
  | 1 => if fld w 14 10 = 0 then .ok (.frsqs (.ofWord w)) else .error .reserved
  | 2 => if fld w 14 10 = 0 then .ok (.fexp2 (.ofWord w)) else .error .reserved
  | 3 => if fld w 14 10 = 0 then .ok (.flog2 (.ofWord w)) else .error .reserved
  | 4 => if fld w 14 10 = 0 then .ok (.fsin (.ofWord w)) else .error .reserved
  | 5 => if fld w 14 10 = 0 then .ok (.fcos (.ofWord w)) else .error .reserved
  | _ => .error .minor

/-- The minors of major 0x14 (R59). -/
def decMajor14 (w : Nat) : Except Reject Instr :=
  match fld w 1 0 with
  | 0 => .ok (.fcmp (.ofWord w))
  | 1 => if fld w 24 20 = 0 then .ok (.fcmpp (.ofWord w)) else .error .reserved
  | 2 => if fld w 14 6 = 0 then .ok (.fclass (.ofWord w)) else .error .reserved
  | _ => .error .minor

/-- The minors of major 0x18 (R59). -/
def decMajor18 (w : Nat) : Except Reject Instr :=
  match fld w 8 4 with
  | 0 => if fld w 3 0 = 0 then .ok (.smov (.ofWord w)) else .error .reserved
  | 1 => if fld w 3 0 = 0 then .ok (.sadd (.ofWord w)) else .error .reserved
  | 2 => if fld w 3 0 = 0 then .ok (.ssub (.ofWord w)) else .error .reserved
  | 3 => if fld w 3 0 = 0 then .ok (.smul (.ofWord w)) else .error .reserved
  | 4 => if fld w 3 0 = 0 then .ok (.sand (.ofWord w)) else .error .reserved
  | 5 => if fld w 3 0 = 0 then .ok (.sor (.ofWord w)) else .error .reserved
  | 6 => if fld w 3 0 = 0 then .ok (.sxor (.ofWord w)) else .error .reserved
  | 7 => if fld w 3 0 = 0 then .ok (.sshl (.ofWord w)) else .error .reserved
  | 8 => if fld w 3 0 = 0 then .ok (.sshr (.ofWord w)) else .error .reserved
  | 9 => if fld w 3 0 = 0 then .ok (.smin (.ofWord w)) else .error .reserved
  | 10 => if fld w 3 0 = 0 then .ok (.smax (.ofWord w)) else .error .reserved
  | 11 => if fld w 3 0 = 0 then .ok (.sdiv (.ofWord w)) else .error .reserved
  | 12 => if fld w 3 0 = 0 then .ok (.srdl (.ofWord w)) else .error .reserved
  | 13 => if fld w 3 0 = 0 then .ok (.sbc (.ofWord w)) else .error .reserved
  | _ => .error .minor

/-- The minors of major 0x19 (R59). -/
def decMajor19 (w : Nat) : Except Reject Instr :=
  match fld w 16 13 with
  | 0 => .ok (.smovi (.ofWord w))
  | 1 => .ok (.saddi (.ofWord w))
  | 2 => .ok (.sandi (.ofWord w))
  | 3 => .ok (.sori (.ofWord w))
  | 4 => .ok (.sshli (.ofWord w))
  | 5 => .ok (.sshri (.ofWord w))
  | _ => .error .minor

/-- The minors of major 0x1a (R59). -/
def decMajor1a (w : Nat) : Except Reject Instr :=
  match fld w 8 4 with
  | 0 => if fld w 3 0 = 0 then .ok (.mfsr (.ofWord w)) else .error .reserved
  | 1 => if fld w 3 0 = 0 then .ok (.mtsr (.ofWord w)) else .error .reserved
  | 2 => if fld w 3 0 = 0 then .ok (.sld (.ofWord w)) else .error .reserved
  | 3 => if fld w 3 0 = 0 then .ok (.sst (.ofWord w)) else .error .reserved
  | _ => .error .minor

/-- The minors of major 0x1c (R59). -/
def decMajor1c (w : Nat) : Except Reject Instr :=
  match fld w 9 6 with
  | 0 => if fld w 5 3 = 0 then .ok (.shfl (.ofWord w)) else .error .reserved
  | 1 => if fld w 5 3 = 0 then .ok (.shflx (.ofWord w)) else .error .reserved
  | 2 => if fld w 5 3 = 0 ∧ fld w 1 0 = 2 then .ok (.shfli (.ofWord w)) else .error .reserved
  | 3 => if fld w 14 10 = 0 ∧ fld w 5 3 = 0 ∧ fld w 1 0 = 0 then .ok (.bcast (.ofWord w)) else .error .reserved
  | 4 => if fld w 1 0 = 0 then .ok (.redl (.ofWord w)) else .error .reserved
  | 5 => if fld w 1 0 = 0 then .ok (.scanl (.ofWord w)) else .error .reserved
  | _ => .error .minor

/-- The minors of major 0x1d (R59). -/
def decMajor1d (w : Nat) : Except Reject Instr :=
  match fld w 9 6 with
  | 0 => if fld w 14 10 = 0 ∧ fld w 1 0 = 0 then .ok (.ballot (.ofWord w)) else .error .reserved
  | 1 => if fld w 14 10 = 0 ∧ fld w 1 0 = 0 then .ok (.vany (.ofWord w)) else .error .reserved
  | 2 => if fld w 14 10 = 0 ∧ fld w 1 0 = 0 then .ok (.vall (.ofWord w)) else .error .reserved
  | 3 => if fld w 14 10 = 0 ∧ fld w 1 0 = 0 then .ok (.matchL (.ofWord w)) else .error .reserved
  | 4 => if fld w 14 10 = 0 ∧ fld w 1 0 = 0 then .ok (.matchN (.ofWord w)) else .error .reserved
  | 5 => if fld w 14 10 = 0 ∧ fld w 1 0 = 0 then .ok (.popl (.ofWord w)) else .error .reserved
  | _ => .error .minor

/-- The minors of major 0x20 (R59). -/
def decMajor20 (w : Nat) : Except Reject Instr :=
  match fld w 1 0 with
  | 0 => .ok (.ld (.ofWord w))
  | 1 => .ok (.ldsx (.ofWord w))
  | 2 => .ok (.ldnm (.ofWord w))
  | _ => .error .minor

/-- The minors of major 0x21 (R59). -/
def decMajor21 (w : Nat) : Except Reject Instr :=
  match fld w 1 0 with
  | 0 => if fld w 14 11 = 0 then .ok (.st (.ofWord w)) else .error .reserved
  | 1 => if fld w 14 11 = 0 then .ok (.stnm (.ofWord w)) else .error .reserved
  | _ => .error .minor

/-- The minors of major 0x22 (R59). -/
def decMajor22 (w : Nat) : Except Reject Instr :=
  match fld w 1 0 with
  | 0 => .ok (.lds (.ofWord w))
  | 1 => if fld w 14 11 = 0 then .ok (.sts (.ofWord w)) else .error .reserved
  | 2 => .ok (.ldw (.ofWord w))
  | 3 => if fld w 14 11 = 0 then .ok (.stw (.ofWord w)) else .error .reserved
  | _ => .error .minor

/-- The minors of major 0x23 (R59). -/
def decMajor23 (w : Nat) : Except Reject Instr :=
  match fld w 1 0 with
  | 0 => if fld w 10 8 = 3 then .ok (.ldfe (.ofWord w)) else .error .reserved
  | 1 => if fld w 14 8 = 3 then .ok (.stef (.ofWord w)) else .error .reserved
  | 2 => if fld w 10 8 = 3 then .ok (.ldff (.ofWord w)) else .error .reserved
  | 3 => if fld w 24 20 = 0 ∧ fld w 14 8 = 3 then .ok (.sete (.ofWord w)) else .error .reserved
  | _ => .error .minor

/-- The minors of major 0x24 (R59). -/
def decMajor24 (w : Nat) : Except Reject Instr :=
  match fld w 1 0 with
  | 0 => .ok (.ldr (.ofWord w))
  | 1 => .ok (.ldrna (.ofWord w))
  | _ => .error .minor

/-- The minors of major 0x25 (R59). -/
def decMajor25 (w : Nat) : Except Reject Instr :=
  match fld w 1 0 with
  | 0 => .ok (.ldp (.ofWord w))
  | 1 => if fld w 14 11 = 0 then .ok (.stp (.ofWord w)) else .error .reserved
  | _ => .error .minor

/-- The minors of major 0x26 (R59). -/
def decMajor26 (w : Nat) : Except Reject Instr :=
  match fld w 9 6 with
  | 0 => if fld w 4 4 = 0 then .ok (.atomAdd (.ofWord w)) else .error .reserved
  | 1 => if fld w 4 4 = 0 then .ok (.atomFadd (.ofWord w)) else .error .reserved
  | 2 => if fld w 4 4 = 0 then .ok (.atomMin (.ofWord w)) else .error .reserved
  | 3 => if fld w 4 4 = 0 then .ok (.atomMax (.ofWord w)) else .error .reserved
  | 4 => if fld w 4 4 = 0 then .ok (.atomAnd (.ofWord w)) else .error .reserved
  | 5 => if fld w 4 4 = 0 then .ok (.atomOr (.ofWord w)) else .error .reserved
  | 6 => if fld w 4 4 = 0 then .ok (.atomXor (.ofWord w)) else .error .reserved
  | 7 => if fld w 4 4 = 0 then .ok (.atomXchg (.ofWord w)) else .error .reserved
  | 8 => if fld w 4 4 = 0 then .ok (.atomCas (.ofWord w)) else .error .reserved
  | 9 => if fld w 4 4 = 0 then .ok (.atomInc (.ofWord w)) else .error .reserved
  | 10 => if fld w 4 4 = 0 then .ok (.atomDec (.ofWord w)) else .error .reserved
  | 11 => if fld w 4 4 = 0 then .ok (.atomFmin (.ofWord w)) else .error .reserved
  | 12 => if fld w 4 4 = 0 then .ok (.atomFmax (.ofWord w)) else .error .reserved
  | 13 => if fld w 4 4 = 0 then .ok (.atomFaddComb (.ofWord w)) else .error .reserved
  | _ => .error .minor

/-- The minors of major 0x27 (R59). -/
def decMajor27 (w : Nat) : Except Reject Instr :=
  match fld w 9 6 with
  | 0 => if fld w 24 20 = 0 ∧ fld w 4 0 = 0 then .ok (.redAdd (.ofWord w)) else .error .reserved
  | 1 => if fld w 24 20 = 0 ∧ fld w 4 0 = 0 then .ok (.redFadd (.ofWord w)) else .error .reserved
  | 2 => if fld w 24 20 = 0 ∧ fld w 4 0 = 0 then .ok (.redMin (.ofWord w)) else .error .reserved
  | 3 => if fld w 24 20 = 0 ∧ fld w 4 0 = 0 then .ok (.redMax (.ofWord w)) else .error .reserved
  | 4 => if fld w 24 20 = 0 ∧ fld w 4 0 = 0 then .ok (.redAnd (.ofWord w)) else .error .reserved
  | 5 => if fld w 24 20 = 0 ∧ fld w 4 0 = 0 then .ok (.redOr (.ofWord w)) else .error .reserved
  | 6 => if fld w 24 20 = 0 ∧ fld w 4 0 = 0 then .ok (.redXor (.ofWord w)) else .error .reserved
  | 9 => if fld w 24 20 = 0 ∧ fld w 4 0 = 0 then .ok (.redInc (.ofWord w)) else .error .reserved
  | 10 => if fld w 24 20 = 0 ∧ fld w 4 0 = 0 then .ok (.redDec (.ofWord w)) else .error .reserved
  | 11 => if fld w 24 20 = 0 ∧ fld w 4 0 = 0 then .ok (.redFmin (.ofWord w)) else .error .reserved
  | 12 => if fld w 24 20 = 0 ∧ fld w 4 0 = 0 then .ok (.redFmax (.ofWord w)) else .error .reserved
  | 13 => if fld w 24 20 = 0 ∧ fld w 4 0 = 0 then .ok (.redFaddComb (.ofWord w)) else .error .reserved
  | _ => .error .minor

/-- The minors of major 0x28 (R59). -/
def decMajor28 (w : Nat) : Except Reject Instr :=
  match fld w 9 6 with
  | 0 => if fld w 14 10 = 0 ∧ fld w 5 0 = 0 then .ok (.migr (.ofWord w)) else .error .reserved
  | 1 => if fld w 5 0 = 0 then .ok (.spawn (.ofWord w)) else .error .reserved
  | 2 => if fld w 14 10 = 0 ∧ fld w 5 0 = 0 then .ok (.homeq (.ofWord w)) else .error .reserved
  | _ => .error .minor

/-- The minors of major 0x29 (R59). -/
def decMajor29 (w : Nat) : Except Reject Instr :=
  match fld w 1 0 with
  | 0 => if fld w 19 11 = 0 ∧ fld w 7 2 = 0 then .ok (.fence (.ofWord w)) else .error .reserved
  | 1 => if fld w 14 3 = 0 then .ok (.seal (.ofWord w)) else .error .reserved
  | 2 => if fld w 14 3 = 0 then .ok (.unseal (.ofWord w)) else .error .reserved
  | 3 => if fld w 14 9 = 1 then .ok (.waitw (.ofWord w)) else .error .reserved
  | _ => .error .minor

/-- The minors of major 0x2a (R59). -/
def decMajor2a (w : Nat) : Except Reject Instr :=
  match fld w 12 9 with
  | 0 => if fld w 16 13 = 0 ∧ fld w 3 0 = 0 then .ok (.send (.ofWord w)) else .error .reserved
  | 1 => if fld w 16 13 = 0 ∧ fld w 3 0 = 0 then .ok (.recvp (.ofWord w)) else .error .reserved
  | 2 => if fld w 16 13 = 0 ∧ fld w 3 0 = 0 then .ok (.recvw (.ofWord w)) else if fld w 16 13 = 0 ∧ fld w 3 0 = 1 then .ok (.recvwTest (.ofWord w)) else .error .reserved
  | 3 => if fld w 16 13 = 0 ∧ fld w 3 0 = 0 then .ok (.probe (.ofWord w)) else .error .reserved
  | _ => .error .minor

/-- The minors of major 0x2c (R59). -/
def decMajor2c (w : Nat) : Except Reject Instr :=
  match fld w 12 9 with
  | 0 => if fld w 3 0 = 0 then .ok (.mma (.ofWord w)) else .error .reserved
  | 1 => if fld w 3 0 = 0 then .ok (.mmamCausal (.ofWord w)) else if fld w 1 0 = 1 then .ok (.mmamTree (.ofWord w)) else .error .reserved
  | _ => .error .minor

/-- The minors of major 0x2d (R59). -/
def decMajor2d (w : Nat) : Except Reject Instr :=
  match fld w 12 9 with
  | 0 => if fld w 3 0 = 0 then .ok (.accz (.ofWord w)) else .error .reserved
  | 1 => if fld w 3 0 = 0 then .ok (.accrd (.ofWord w)) else .error .reserved
  | 2 => if fld w 3 0 = 0 then .ok (.accwr (.ofWord w)) else .error .reserved
  | 3 => if fld w 3 0 = 0 then .ok (.wbld (.ofWord w)) else .error .reserved
  | 4 => if fld w 3 0 = 0 then .ok (.wbdrop (.ofWord w)) else .error .reserved
  | 5 => if fld w 3 0 = 0 then .ok (.tmset (.ofWord w)) else .error .reserved
  | 6 => if fld w 16 13 = 0 ∧ fld w 8 0 = 0 then .ok (.mwait (.ofWord w)) else if fld w 16 13 = 0 ∧ fld w 3 0 = 1 then .ok (.mwaitThru (.ofWord w)) else .error .reserved
  | _ => .error .minor

/-- The minors of major 0x2e (R59). -/
def decMajor2e (w : Nat) : Except Reject Instr :=
  match fld w 12 9 with
  | 0 => if fld w 3 0 = 0 then .ok (.post (.ofWord w)) else .error .reserved
  | 1 => if fld w 3 0 = 0 then .ok (.tcopy (.ofWord w)) else .error .reserved
  | 2 => if fld w 3 0 = 0 then .ok (.layout (.ofWord w)) else .error .reserved
  | 3 => if fld w 3 0 = 0 then .ok (.mcast (.ofWord w)) else .error .reserved
  | _ => .error .minor

/-- The minors of major 0x2f (R59). -/
def decMajor2f (w : Nat) : Except Reject Instr :=
  match fld w 12 9 with
  | 0 => if fld w 16 13 = 0 ∧ fld w 3 0 = 0 then .ok (.cpoll (.ofWord w)) else .error .reserved
  | 1 => if fld w 16 13 = 0 ∧ fld w 3 0 = 0 then .ok (.cwait (.ofWord w)) else .error .reserved
  | 2 => if fld w 24 13 = 0 ∧ fld w 3 3 = 0 then .ok (.qpop (.ofWord w)) else .error .reserved
  | 3 => if fld w 24 13 = 0 ∧ fld w 8 3 = 0 then .ok (.qfree (.ofWord w)) else .error .reserved
  | _ => .error .minor

/-- The minors of major 0x30 (R59). -/
def decMajor30 (w : Nat) : Except Reject Instr :=
  match fld w 12 9 with
  | 0 => if fld w 16 13 = 0 ∧ fld w 8 4 = 0 then .ok (.bar (.ofWord w)) else .error .reserved
  | 1 => if fld w 16 13 = 0 ∧ fld w 8 4 = 0 then .ok (.bara (.ofWord w)) else .error .reserved
  | 2 => if fld w 16 13 = 0 ∧ fld w 8 4 = 0 then .ok (.barw (.ofWord w)) else .error .reserved
  | 3 => if fld w 16 13 = 0 ∧ fld w 8 0 = 0 then .ok (.bexp (.ofWord w)) else .error .reserved
  | 4 => if fld w 16 13 = 0 ∧ fld w 8 0 = 0 then .ok (.barb (.ofWord w)) else .error .reserved
  | 5 => if fld w 24 13 = 0 ∧ fld w 8 0 = 0 then .ok (.tempo (.ofWord w)) else if fld w 24 13 = 0 ∧ fld w 3 0 = 1 then .ok (.tempoOr (.ofWord w)) else .error .reserved
  | _ => .error .minor

/-- The minors of major 0x31 (R59). -/
def decMajor31 (w : Nat) : Except Reject Instr :=
  match fld w 12 9 with
  | 0 => if fld w 16 13 = 0 ∧ fld w 3 0 = 0 then .ok (.gqry (.ofWord w)) else .error .reserved
  | 1 => if fld w 16 13 = 0 ∧ fld w 3 0 = 0 then .ok (.wopen (.ofWord w)) else .error .reserved
  | 2 => if fld w 24 13 = 0 ∧ fld w 8 0 = 0 then .ok (.wdet (.ofWord w)) else .error .reserved
  | _ => .error .minor

/-- The minors of major 0x38 (R59). -/
def decMajor38 (w : Nat) : Except Reject Instr :=
  if fld w 31 31 ≠ 0 then .error .chainBit else
  match fld w 12 9 with
  | 0 => if fld w 16 13 = 0 ∧ fld w 3 0 = 0 then .ok (.tret (.ofWord w)) else .error .reserved
  | 1 => if fld w 16 13 = 0 ∧ fld w 3 0 = 0 then .ok (.xflt (.ofWord w)) else .error .reserved
  | 2 => if fld w 16 13 = 0 ∧ fld w 3 0 = 0 then .ok (.replay (.ofWord w)) else .error .reserved
  | 3 => if fld w 16 13 = 0 ∧ fld w 8 0 = 0 then .ok (.pinval (.ofWord w)) else .error .reserved
  | 4 => if fld w 16 13 = 0 ∧ fld w 8 4 = 0 then .ok (.dropr (.ofWord w)) else .error .reserved
  | 5 => if fld w 16 13 = 0 ∧ fld w 3 0 = 0 then .ok (.ctxsw (.ofWord w)) else .error .reserved
  | 6 => if fld w 24 13 = 0 ∧ fld w 8 0 = 0 then .ok (.halt) else .error .reserved
  | _ => .error .minor

/-- A prefix word read before a memory base (R55). -/
def decPrefixMem (w : Nat) : Except Reject Instr :=
  if fld w 31 31 ≠ 0 then .error .chainBit else
  if fld w 18 17 = 0 ∧ fld w 12 0 = 0 then .ok (.prefixMemory (.ofWord w)) else .error .reserved

/-- A prefix word read before an arithmetic base (R55). -/
def decPrefixArith (w : Nat) : Except Reject Instr :=
  if fld w 31 31 ≠ 0 then .error .chainBit else
  if fld w 11 0 = 0 then .ok (.prefixArith (.ofWord w)) else .error .reserved

/-- The major field of a word (R41). -/
def majorOf (w : Nat) : Nat := fld w 30 25

/-- The memory bases of R54. -/
def memMajor (m : Nat) : Bool := decide (0x20 ≤ m ∧ m ≤ 0x27)

/-- A prefix word on its own: with F4V = 0 and F4 ≠ 0 the arithmetic reading is illegal (R55), so a word that is
legal as a memory prefix is read as one; every other word is read before an arithmetic base. -/
def prefixLooksMem (w : Nat) : Bool := fld w 12 12 == 0 && fld w 18 14 != 0 && fld w 18 17 == 0

/-- The instruction of a word; `mem` says that a prefix word stands before a memory base. -/
def decodeWordAt (mem : Bool) (w : Nat) : Except Reject Instr :=
  match majorOf w with
  | 1 => decMajor01 w
  | 2 => decMajor02 w
  | 3 => decMajor03 w
  | 4 => decMajor04 w
  | 5 => decMajor05 w
  | 6 => decMajor06 w
  | 8 => decMajor08 w
  | 9 => decMajor09 w
  | 10 => decMajor0a w
  | 11 => decMajor0b w
  | 12 => decMajor0c w
  | 13 => decMajor0d w
  | 16 => decMajor10 w
  | 17 => decMajor11 w
  | 18 => decMajor12 w
  | 19 => decMajor13 w
  | 20 => decMajor14 w
  | 24 => decMajor18 w
  | 25 => decMajor19 w
  | 26 => decMajor1a w
  | 28 => decMajor1c w
  | 29 => decMajor1d w
  | 32 => decMajor20 w
  | 33 => decMajor21 w
  | 34 => decMajor22 w
  | 35 => decMajor23 w
  | 36 => decMajor24 w
  | 37 => decMajor25 w
  | 38 => decMajor26 w
  | 39 => decMajor27 w
  | 40 => decMajor28 w
  | 41 => decMajor29 w
  | 42 => decMajor2a w
  | 44 => decMajor2c w
  | 45 => decMajor2d w
  | 46 => decMajor2e w
  | 47 => decMajor2f w
  | 48 => decMajor30 w
  | 49 => decMajor31 w
  | 56 => decMajor38 w
  | 63 => if mem then decPrefixMem w else decPrefixArith w
  | _ => .error .major

/-- The instruction of one word on its own. -/
def decodeWord (w : Nat) : Except Reject Instr := decodeWordAt (prefixLooksMem w) w

/-- The word of four little-endian bytes (R1, R40). -/
def wordOfBytes (b : List Byte) : Nat := b.foldr (fun x n => x.toNat + 256 * n) 0

/-- The n little-endian bytes of a number. -/
def bytesOf : Nat → Nat → List Byte
  | 0, _ => []
  | n + 1, v => BitVec.ofNat 8 v :: bytesOf n (v / 256)

/-- Decoding of the four bytes of a word, lowest address first. -/
def decodeBytes (b : List Byte) : Except Reject Instr :=
  if b.length = 4 then decodeWord (wordOfBytes b) else .error .short

/-- The instruction the decoder reads from an instruction whose bits are w, as the opcode table numbers them. A row that has no bits
(an event of the part) is no instruction word. -/
def decodeTableWord (nbits w : Nat) : Option Instr :=
  if nbits = 0 ∨ 32 < nbits then none else (decodeBytes (bytesOf 4 (w % 2 ^ nbits))).toOption

/-- The word of an instruction; the TRAPV commands and the events of the part have none. -/
def encode (i : Instr) : Option Nat :=
  match i with
  | .nop => some (0x02000000)
  | .exit => some (0x02002000)
  | .yield => some (0x02004000)
  | .trapf => some (0x02006000)
  | .trap f => some (0x02008000 + f.toWord)
  | .sleep f => some (0x0200a000 + f.toWord)
  | .snap f => some (0x0200c000 + f.toWord)
  | .brk f => some (0x0200e000 + f.toWord)
  | .br f => some (0x04000000 + f.toWord)
  | .call f => some (0x04400000 + f.toWord)
  | .brpT f => some (0x06000000 + f.toWord)
  | .brpF f => some (0x06400000 + f.toWord)
  | .brpAny f => some (0x06800000 + f.toWord)
  | .brpAll f => some (0x06c00000 + f.toWord)
  | .brpNone f => some (0x07000000 + f.toWord)
  | .jr f => some (0x08000000 + f.toWord)
  | .ret f => some (0x08000040 + f.toWord)
  | .callr f => some (0x08000080 + f.toWord)
  | .ppush f => some (0x0a000000 + f.toWord)
  | .pinv f => some (0x0a000040 + f.toWord)
  | .ppop f => some (0x0a000080 + f.toWord)
  | .pand f => some (0x0a0000c0 + f.toWord)
  | .pget f => some (0x0a000100 + f.toWord)
  | .pset f => some (0x0a000140 + f.toWord)
  | .enrol f => some (0x0c000000 + f.toWord)
  | .park f => some (0x0c000010 + f.toWord)
  | .strike f => some (0x0c000020 + f.toWord)
  | .jmov f => some (0x0c000030 + f.toWord)
  | .add f => some (0x10000000 + f.toWord)
  | .sub f => some (0x10000040 + f.toWord)
  | .mul f => some (0x10000080 + f.toWord)
  | .mulh f => some (0x100000c0 + f.toWord)
  | .andW f => some (0x10000100 + f.toWord)
  | .orW f => some (0x10000140 + f.toWord)
  | .xorW f => some (0x10000180 + f.toWord)
  | .andn f => some (0x100001c0 + f.toWord)
  | .shl f => some (0x10000200 + f.toWord)
  | .shr f => some (0x10000240 + f.toWord)
  | .sar f => some (0x10000280 + f.toWord)
  | .rot f => some (0x100002c0 + f.toWord)
  | .minW f => some (0x10000300 + f.toWord)
  | .maxW f => some (0x10000340 + f.toWord)
  | .sel f => some (0x10000380 + f.toWord)
  | .addsat f => some (0x100003c0 + f.toWord)
  | .div f => some (0x12000000 + f.toWord)
  | .rem f => some (0x12000040 + f.toWord)
  | .mulw f => some (0x12000080 + f.toWord)
  | .absd f => some (0x120000c0 + f.toWord)
  | .clz f => some (0x12000100 + f.toWord)
  | .ctz f => some (0x12000140 + f.toWord)
  | .popc f => some (0x12000180 + f.toWord)
  | .brev f => some (0x120001c0 + f.toWord)
  | .absW f => some (0x12000200 + f.toWord)
  | .neg f => some (0x12000240 + f.toWord)
  | .bfx f => some (0x12000280 + f.toWord)
  | .bfi f => some (0x120002c0 + f.toWord)
  | .lea f => some (0x12000300 + f.toWord)
  | .pack f => some (0x12000340 + f.toWord)
  | .unpk f => some (0x12000380 + f.toWord)
  | .swapb f => some (0x120003c0 + f.toWord)
  | .addi f => some (0x14000000 + f.toWord)
  | .andi f => some (0x14000001 + f.toWord)
  | .ori f => some (0x14000002 + f.toWord)
  | .xori f => some (0x14000003 + f.toWord)
  | .shli f => some (0x16000000 + f.toWord)
  | .shri f => some (0x16000001 + f.toWord)
  | .sari f => some (0x16000002 + f.toWord)
  | .roti f => some (0x16000003 + f.toWord)
  | .icmp f => some (0x18000000 + f.toWord)
  | .icmpp f => some (0x18000001 + f.toWord)
  | .movz f => some (0x1a000000 + f.toWord)
  | .movk f => some (0x1a000001 + f.toWord)
  | .movn f => some (0x1a000002 + f.toWord)
  | .fadd f => some (0x20000000 + f.toWord)
  | .fsub f => some (0x20000040 + f.toWord)
  | .fmul f => some (0x20000080 + f.toWord)
  | .fmin f => some (0x200000c0 + f.toWord)
  | .fmax f => some (0x20000100 + f.toWord)
  | .fminnum f => some (0x20000140 + f.toWord)
  | .fmaxnum f => some (0x20000180 + f.toWord)
  | .fsgn f => some (0x200001c0 + f.toWord)
  | .fscale f => some (0x20000200 + f.toWord)
  | .fdot2 f => some (0x20000240 + f.toWord)
  | .fma f => some (0x22000000 + f.toWord)
  | .fnma f => some (0x22000001 + f.toWord)
  | .cvtf f => some (0x24000000 + f.toWord)
  | .cvtfi f => some (0x24000040 + f.toWord)
  | .cvtif f => some (0x24000080 + f.toWord)
  | .cvtn f => some (0x240000c0 + f.toWord)
  | .cvtw f => some (0x24000100 + f.toWord)
  | .frnd f => some (0x24000140 + f.toWord)
  | .frcps f => some (0x26000000 + f.toWord)
  | .frsqs f => some (0x26000040 + f.toWord)
  | .fexp2 f => some (0x26000080 + f.toWord)
  | .flog2 f => some (0x260000c0 + f.toWord)
  | .fsin f => some (0x26000100 + f.toWord)
  | .fcos f => some (0x26000140 + f.toWord)
  | .fcmp f => some (0x28000000 + f.toWord)
  | .fcmpp f => some (0x28000001 + f.toWord)
  | .fclass f => some (0x28000002 + f.toWord)
  | .smov f => some (0x30000000 + f.toWord)
  | .sadd f => some (0x30000010 + f.toWord)
  | .ssub f => some (0x30000020 + f.toWord)
  | .smul f => some (0x30000030 + f.toWord)
  | .sand f => some (0x30000040 + f.toWord)
  | .sor f => some (0x30000050 + f.toWord)
  | .sxor f => some (0x30000060 + f.toWord)
  | .sshl f => some (0x30000070 + f.toWord)
  | .sshr f => some (0x30000080 + f.toWord)
  | .smin f => some (0x30000090 + f.toWord)
  | .smax f => some (0x300000a0 + f.toWord)
  | .sdiv f => some (0x300000b0 + f.toWord)
  | .srdl f => some (0x300000c0 + f.toWord)
  | .sbc f => some (0x300000d0 + f.toWord)
  | .smovi f => some (0x32000000 + f.toWord)
  | .saddi f => some (0x32002000 + f.toWord)
  | .sandi f => some (0x32004000 + f.toWord)
  | .sori f => some (0x32006000 + f.toWord)
  | .sshli f => some (0x32008000 + f.toWord)
  | .sshri f => some (0x3200a000 + f.toWord)
  | .mfsr f => some (0x34000000 + f.toWord)
  | .mtsr f => some (0x34000010 + f.toWord)
  | .sld f => some (0x34000020 + f.toWord)
  | .sst f => some (0x34000030 + f.toWord)
  | .shfl f => some (0x38000000 + f.toWord)
  | .shflx f => some (0x38000040 + f.toWord)
  | .shfli f => some (0x38000082 + f.toWord)
  | .bcast f => some (0x380000c0 + f.toWord)
  | .redl f => some (0x38000100 + f.toWord)
  | .scanl f => some (0x38000140 + f.toWord)
  | .ballot f => some (0x3a000000 + f.toWord)
  | .vany f => some (0x3a000040 + f.toWord)
  | .vall f => some (0x3a000080 + f.toWord)
  | .matchL f => some (0x3a0000c0 + f.toWord)
  | .matchN f => some (0x3a000100 + f.toWord)
  | .popl f => some (0x3a000140 + f.toWord)
  | .ld f => some (0x40000000 + f.toWord)
  | .ldsx f => some (0x40000001 + f.toWord)
  | .ldnm f => some (0x40000002 + f.toWord)
  | .st f => some (0x42000000 + f.toWord)
  | .stnm f => some (0x42000001 + f.toWord)
  | .lds f => some (0x44000000 + f.toWord)
  | .sts f => some (0x44000001 + f.toWord)
  | .ldw f => some (0x44000002 + f.toWord)
  | .stw f => some (0x44000003 + f.toWord)
  | .ldfe f => some (0x46000300 + f.toWord)
  | .stef f => some (0x46000301 + f.toWord)
  | .ldff f => some (0x46000302 + f.toWord)
  | .sete f => some (0x46000303 + f.toWord)
  | .ldr f => some (0x48000000 + f.toWord)
  | .ldrna f => some (0x48000001 + f.toWord)
  | .ldp f => some (0x4a000000 + f.toWord)
  | .stp f => some (0x4a000001 + f.toWord)
  | .atomAdd f => some (0x4c000000 + f.toWord)
  | .atomFadd f => some (0x4c000040 + f.toWord)
  | .atomMin f => some (0x4c000080 + f.toWord)
  | .atomMax f => some (0x4c0000c0 + f.toWord)
  | .atomAnd f => some (0x4c000100 + f.toWord)
  | .atomOr f => some (0x4c000140 + f.toWord)
  | .atomXor f => some (0x4c000180 + f.toWord)
  | .atomXchg f => some (0x4c0001c0 + f.toWord)
  | .atomCas f => some (0x4c000200 + f.toWord)
  | .atomInc f => some (0x4c000240 + f.toWord)
  | .atomDec f => some (0x4c000280 + f.toWord)
  | .atomFmin f => some (0x4c0002c0 + f.toWord)
  | .atomFmax f => some (0x4c000300 + f.toWord)
  | .atomFaddComb f => some (0x4c000340 + f.toWord)
  | .redAdd f => some (0x4e000000 + f.toWord)
  | .redFadd f => some (0x4e000040 + f.toWord)
  | .redMin f => some (0x4e000080 + f.toWord)
  | .redMax f => some (0x4e0000c0 + f.toWord)
  | .redAnd f => some (0x4e000100 + f.toWord)
  | .redOr f => some (0x4e000140 + f.toWord)
  | .redXor f => some (0x4e000180 + f.toWord)
  | .redInc f => some (0x4e000240 + f.toWord)
  | .redDec f => some (0x4e000280 + f.toWord)
  | .redFmin f => some (0x4e0002c0 + f.toWord)
  | .redFmax f => some (0x4e000300 + f.toWord)
  | .redFaddComb f => some (0x4e000340 + f.toWord)
  | .migr f => some (0x50000000 + f.toWord)
  | .spawn f => some (0x50000040 + f.toWord)
  | .homeq f => some (0x50000080 + f.toWord)
  | .fence f => some (0x52000000 + f.toWord)
  | .seal f => some (0x52000001 + f.toWord)
  | .unseal f => some (0x52000002 + f.toWord)
  | .waitw f => some (0x52000203 + f.toWord)
  | .send f => some (0x54000000 + f.toWord)
  | .recvp f => some (0x54000200 + f.toWord)
  | .recvw f => some (0x54000400 + f.toWord)
  | .recvwTest f => some (0x54000401 + f.toWord)
  | .probe f => some (0x54000600 + f.toWord)
  | .mma f => some (0x58000000 + f.toWord)
  | .mmamCausal f => some (0x58000200 + f.toWord)
  | .mmamTree f => some (0x58000201 + f.toWord)
  | .accz f => some (0x5a000000 + f.toWord)
  | .accrd f => some (0x5a000200 + f.toWord)
  | .accwr f => some (0x5a000400 + f.toWord)
  | .wbld f => some (0x5a000600 + f.toWord)
  | .wbdrop f => some (0x5a000800 + f.toWord)
  | .tmset f => some (0x5a000a00 + f.toWord)
  | .mwait f => some (0x5a000c00 + f.toWord)
  | .mwaitThru f => some (0x5a000c01 + f.toWord)
  | .post f => some (0x5c000000 + f.toWord)
  | .tcopy f => some (0x5c000200 + f.toWord)
  | .layout f => some (0x5c000400 + f.toWord)
  | .mcast f => some (0x5c000600 + f.toWord)
  | .cpoll f => some (0x5e000000 + f.toWord)
  | .cwait f => some (0x5e000200 + f.toWord)
  | .qpop f => some (0x5e000400 + f.toWord)
  | .qfree f => some (0x5e000600 + f.toWord)
  | .bar f => some (0x60000000 + f.toWord)
  | .bara f => some (0x60000200 + f.toWord)
  | .barw f => some (0x60000400 + f.toWord)
  | .bexp f => some (0x60000600 + f.toWord)
  | .barb f => some (0x60000800 + f.toWord)
  | .tempo f => some (0x60000a00 + f.toWord)
  | .tempoOr f => some (0x60000a01 + f.toWord)
  | .gqry f => some (0x62000000 + f.toWord)
  | .wopen f => some (0x62000200 + f.toWord)
  | .wdet f => some (0x62000400 + f.toWord)
  | .tret f => some (0x70000000 + f.toWord)
  | .xflt f => some (0x70000200 + f.toWord)
  | .replay f => some (0x70000400 + f.toWord)
  | .pinval f => some (0x70000600 + f.toWord)
  | .dropr f => some (0x70000800 + f.toWord)
  | .ctxsw f => some (0x70000a00 + f.toWord)
  | .halt => some (0x70000c00)
  | .prefixArith f => some (0x7e000000 + f.toWord)
  | .prefixMemory f => some (0x7e000000 + f.toWord)
  | .trapvSeth _ => none
  | .trapvView _ => none
  | .trapvSetpc _ => none
  | .trapvRet => none
  | .lookaheadResultDelivery => none
  | .takeTrap => none
  | .knightDeparture => none
  | .knightArrival => none
  | .overflowRecordReload => none
  | .spawnMessageSend => none
  | .spawnRecordArrival => none
  | .exitDrainComplete => none
  | .sleepDeadline => none
  | .feWaitingAccess => none
  | .permissionProbe => none
  | .permissionProbeReply => none
  | .remoteRead => none
  | .lineFill => none
  | .windowRead => none
  | .readDataResponse => none
  | .writeRequest => none
  | .windowWrite => none
  | .atomicRequest => none
  | .watchRequest => none
  | .ackResponse => none
  | .sideLogRegistration => none
  | .logpendSet => none
  | .logpendClear => none
  | .directoryQuery => none
  | .directoryQueryReply => none
  | .sealAtHome => none
  | .unsealAtHome => none
  | .sealAnswer => none
  | .recall => none
  | .tokenReturn => none
  | .pageGive => none
  | .mapFrame => none
  | .unmapFrame => none
  | .pageWithdraw => none
  | .placementTableInstall => none
  | .homeChangeForward => none
  | .drainMarkerSend => none
  | .homeChangeMarker => none
  | .tierMoveStart => none
  | .tierMoveLineCopy => none
  | .matrixOpAccept => none
  | .matrixOpGrant => none
  | .matrixOpComplete => none
  | .queueCreate => none
  | .queuePause => none
  | .queueResume => none
  | .queueReset => none
  | .queueDestroy => none
  | .queueNotice => none
  | .packetConsume => none
  | .nodeComplete => none
  | .completionRecordWrite => none
  | .ringRegister => none
  | .postPublish => none
  | .cwaitTimeout => none
  | .engineJobAccept => none
  | .engineJobStart => none
  | .engineGranule => none
  | .engineJobEnd => none
  | .stagingGrantWithdraw => none
  | .distributionStart => none
  | .crewPlacement => none
  | .crewStart => none
  | .bindFill => none
  | .roamingThreadCreate => none
  | .stealRequest => none
  | .stealReply => none
  | .crewRetire => none
  | .kernelEntryClear => none
  | .groupEntryWrite => none
  | .gangReserve => none
  | .gangReserveAnswer => none
  | .gangCommit => none
  | .gangRelease => none
  | .windowOpen => none
  | .windowDeparture => none
  | .windowOpenReply => none
  | .barrierArrival => none
  | .barrierRelease => none
  | .tempoArrival => none
  | .tempoRelease => none
  | .tempoPark => none
  | .contextCreate => none
  | .contextStart => none
  | .contextStop => none
  | .contextResume => none
  | .contextDestroy => none
  | .teardown => none
  | .flushMarker => none
  | .teardownComplete => none
  | .partitionWrite => none
  | .apertureMap => none
  | .sendMatrixWrite => none
  | .schedulerDecision => none
  | .quantumExpiry => none
  | .castlingComplete => none
  | .spillStart => none
  | .spillComplete => none
  | .fillComplete => none
  | .castlingCoordination => none
  | .faultRecordWrite => none
  | .firmwareRequest => none
  | .frameRoute => none
  | .uetPacketSend => none
  | .uetPacketReceive => none
  | .portUnreachable => none
  | .chipTableWrite => none
  | .hostBar2Access => none
  | .linkEnable => none
  | .linkDisable => none
  | .linkTrained => none
  | .linkTrainingFailed => none
  | .linkRetrain => none
  | .linkRetryRequest => none
  | .messageArrival => none
  | .messageFillComplete => none
  | .mreplyArrival => none
  | .sensorReading => none
  | .bandChangeBlock => none
  | .band3Entry => none
  | .band3Exit => none
  | .coolDownRequest => none
  | .warmUpRequest => none
  | .coldSettleDone => none
  | .recalibrationHold => none
  | .levelLow => none
  | .scrubLine => none
  | .scrubLate => none
  | .ownerRecordWrite => none
  | .resourceRetire => none
  | .deviceReset => none
  | .fuseBlowRequest => none
  | .attestationRequest => none
  | .snapshotRequest => none
  | .snapshotTriggerArrival => none
  | .captureRead => none
  | .faultLogRead => none
  | .illegalInstr => none
  | .fetchFault => none
  | .barrierReleaseAck => none
  | .barrierMemberDeparture => none
  | .tempoParticipantNotice => none
  | .pcieCompletion => none
  | .uetRetransmit => none
  | .linkCrcError => none
  | .portReachable => none
  | .snapshotCaptureComplete => none

/-- A prefix word before a memory base: the reading `decodeWordAt` needs to be told of. -/
def Instr.isMemPrefix : Instr → Bool
  | .prefixMemory _ => true
  | _ => false

/-- Bit n of a register mask. -/
def gbit (n : Nat) : Nat := 2 ^ n
/-- FLAGS in a register mask. -/
def flagsBit : Nat := 2 ^ 32
/-- The g register of an operand code, as a mask (R49). -/
def codeBit (c : BitVec 8) : Nat := if isG c then 2 ^ (c.toNat - 184) else 0
/-- The union of register masks. -/
def uni (l : List Nat) : Nat := l.foldl (· ||| ·) 0
/-- Operand B of an L3 word: no register in the immediate form (R48). -/
def bBit (b : BitVec 5) (m : BitVec 2) : Nat := if m.toNat = 2 then 0 else gbit b.toNat

/-- The major opcode of a row (R59); 0 for a command or an event. -/
def Instr.major : Instr → Nat
  | .nop => 1
  | .exit => 1
  | .yield => 1
  | .trapf => 1
  | .trap _ => 1
  | .sleep _ => 1
  | .snap _ => 1
  | .brk _ => 1
  | .br _ => 2
  | .call _ => 2
  | .brpT _ => 3
  | .brpF _ => 3
  | .brpAny _ => 3
  | .brpAll _ => 3
  | .brpNone _ => 3
  | .jr _ => 4
  | .ret _ => 4
  | .callr _ => 4
  | .ppush _ => 5
  | .pinv _ => 5
  | .ppop _ => 5
  | .pand _ => 5
  | .pget _ => 5
  | .pset _ => 5
  | .enrol _ => 6
  | .park _ => 6
  | .strike _ => 6
  | .jmov _ => 6
  | .add _ => 8
  | .sub _ => 8
  | .mul _ => 8
  | .mulh _ => 8
  | .andW _ => 8
  | .orW _ => 8
  | .xorW _ => 8
  | .andn _ => 8
  | .shl _ => 8
  | .shr _ => 8
  | .sar _ => 8
  | .rot _ => 8
  | .minW _ => 8
  | .maxW _ => 8
  | .sel _ => 8
  | .addsat _ => 8
  | .div _ => 9
  | .rem _ => 9
  | .mulw _ => 9
  | .absd _ => 9
  | .clz _ => 9
  | .ctz _ => 9
  | .popc _ => 9
  | .brev _ => 9
  | .absW _ => 9
  | .neg _ => 9
  | .bfx _ => 9
  | .bfi _ => 9
  | .lea _ => 9
  | .pack _ => 9
  | .unpk _ => 9
  | .swapb _ => 9
  | .addi _ => 10
  | .andi _ => 10
  | .ori _ => 10
  | .xori _ => 10
  | .shli _ => 11
  | .shri _ => 11
  | .sari _ => 11
  | .roti _ => 11
  | .icmp _ => 12
  | .icmpp _ => 12
  | .movz _ => 13
  | .movk _ => 13
  | .movn _ => 13
  | .fadd _ => 16
  | .fsub _ => 16
  | .fmul _ => 16
  | .fmin _ => 16
  | .fmax _ => 16
  | .fminnum _ => 16
  | .fmaxnum _ => 16
  | .fsgn _ => 16
  | .fscale _ => 16
  | .fdot2 _ => 16
  | .fma _ => 17
  | .fnma _ => 17
  | .cvtf _ => 18
  | .cvtfi _ => 18
  | .cvtif _ => 18
  | .cvtn _ => 18
  | .cvtw _ => 18
  | .frnd _ => 18
  | .frcps _ => 19
  | .frsqs _ => 19
  | .fexp2 _ => 19
  | .flog2 _ => 19
  | .fsin _ => 19
  | .fcos _ => 19
  | .fcmp _ => 20
  | .fcmpp _ => 20
  | .fclass _ => 20
  | .smov _ => 24
  | .sadd _ => 24
  | .ssub _ => 24
  | .smul _ => 24
  | .sand _ => 24
  | .sor _ => 24
  | .sxor _ => 24
  | .sshl _ => 24
  | .sshr _ => 24
  | .smin _ => 24
  | .smax _ => 24
  | .sdiv _ => 24
  | .srdl _ => 24
  | .sbc _ => 24
  | .smovi _ => 25
  | .saddi _ => 25
  | .sandi _ => 25
  | .sori _ => 25
  | .sshli _ => 25
  | .sshri _ => 25
  | .mfsr _ => 26
  | .mtsr _ => 26
  | .sld _ => 26
  | .sst _ => 26
  | .shfl _ => 28
  | .shflx _ => 28
  | .shfli _ => 28
  | .bcast _ => 28
  | .redl _ => 28
  | .scanl _ => 28
  | .ballot _ => 29
  | .vany _ => 29
  | .vall _ => 29
  | .matchL _ => 29
  | .matchN _ => 29
  | .popl _ => 29
  | .ld _ => 32
  | .ldsx _ => 32
  | .ldnm _ => 32
  | .st _ => 33
  | .stnm _ => 33
  | .lds _ => 34
  | .sts _ => 34
  | .ldw _ => 34
  | .stw _ => 34
  | .ldfe _ => 35
  | .stef _ => 35
  | .ldff _ => 35
  | .sete _ => 35
  | .ldr _ => 36
  | .ldrna _ => 36
  | .ldp _ => 37
  | .stp _ => 37
  | .atomAdd _ => 38
  | .atomFadd _ => 38
  | .atomMin _ => 38
  | .atomMax _ => 38
  | .atomAnd _ => 38
  | .atomOr _ => 38
  | .atomXor _ => 38
  | .atomXchg _ => 38
  | .atomCas _ => 38
  | .atomInc _ => 38
  | .atomDec _ => 38
  | .atomFmin _ => 38
  | .atomFmax _ => 38
  | .atomFaddComb _ => 38
  | .redAdd _ => 39
  | .redFadd _ => 39
  | .redMin _ => 39
  | .redMax _ => 39
  | .redAnd _ => 39
  | .redOr _ => 39
  | .redXor _ => 39
  | .redInc _ => 39
  | .redDec _ => 39
  | .redFmin _ => 39
  | .redFmax _ => 39
  | .redFaddComb _ => 39
  | .migr _ => 40
  | .spawn _ => 40
  | .homeq _ => 40
  | .fence _ => 41
  | .seal _ => 41
  | .unseal _ => 41
  | .waitw _ => 41
  | .send _ => 42
  | .recvp _ => 42
  | .recvw _ => 42
  | .recvwTest _ => 42
  | .probe _ => 42
  | .mma _ => 44
  | .mmamCausal _ => 44
  | .mmamTree _ => 44
  | .accz _ => 45
  | .accrd _ => 45
  | .accwr _ => 45
  | .wbld _ => 45
  | .wbdrop _ => 45
  | .tmset _ => 45
  | .mwait _ => 45
  | .mwaitThru _ => 45
  | .post _ => 46
  | .tcopy _ => 46
  | .layout _ => 46
  | .mcast _ => 46
  | .cpoll _ => 47
  | .cwait _ => 47
  | .qpop _ => 47
  | .qfree _ => 47
  | .bar _ => 48
  | .bara _ => 48
  | .barw _ => 48
  | .bexp _ => 48
  | .barb _ => 48
  | .tempo _ => 48
  | .tempoOr _ => 48
  | .gqry _ => 49
  | .wopen _ => 49
  | .wdet _ => 49
  | .tret _ => 56
  | .xflt _ => 56
  | .replay _ => 56
  | .pinval _ => 56
  | .dropr _ => 56
  | .ctxsw _ => 56
  | .halt => 56
  | .prefixArith _ => 63
  | .prefixMemory _ => 63
  | _ => 0

/-- The general registers and FLAGS (bit 32) that a word reads or writes in an issuing lane (R56). A word that can set a flag writes FLAGS. The g
source of a uniform scalar word, which R140 reads from the lowest issuing lane, counts as read in every issuing lane (log 54). SRDL reads g[SA] of lane p
only, and its chain waits for a lock there (R143). -/
def Instr.touch : Instr → Nat
  | .trapf => uni [flagsBit]
  | .call _ => gbit 31
  | .jr f => uni [gbit f.a.toNat]
  | .ret _ => gbit 31
  | .callr f => uni [gbit f.a.toNat, gbit 31]
  | .ppush f => uni [gbit f.a.toNat]
  | .pand f => uni [gbit f.a.toNat]
  | .pget f => uni [gbit f.d.toNat]
  | .pset f => uni [gbit f.a.toNat]
  | .jmov f => uni [codeBit f.d, codeBit f.a]
  | .add f => uni [gbit f.d.toNat, gbit f.a.toNat, bBit f.b f.m, flagsBit]
  | .sub f => uni [gbit f.d.toNat, gbit f.a.toNat, bBit f.b f.m, flagsBit]
  | .mul f => uni [gbit f.d.toNat, gbit f.a.toNat, bBit f.b f.m, flagsBit]
  | .mulh f => uni [gbit f.d.toNat, gbit f.a.toNat, bBit f.b f.m]
  | .andW f => uni [gbit f.d.toNat, gbit f.a.toNat, bBit f.b f.m]
  | .orW f => uni [gbit f.d.toNat, gbit f.a.toNat, bBit f.b f.m]
  | .xorW f => uni [gbit f.d.toNat, gbit f.a.toNat, bBit f.b f.m]
  | .andn f => uni [gbit f.d.toNat, gbit f.a.toNat, bBit f.b f.m]
  | .shl f => uni [gbit f.d.toNat, gbit f.a.toNat, bBit f.b f.m]
  | .shr f => uni [gbit f.d.toNat, gbit f.a.toNat, bBit f.b f.m]
  | .sar f => uni [gbit f.d.toNat, gbit f.a.toNat, bBit f.b f.m]
  | .rot f => uni [gbit f.d.toNat, gbit f.a.toNat, bBit f.b f.m]
  | .minW f => uni [gbit f.d.toNat, gbit f.a.toNat, bBit f.b f.m]
  | .maxW f => uni [gbit f.d.toNat, gbit f.a.toNat, bBit f.b f.m]
  | .sel f => uni [gbit f.d.toNat, gbit f.a.toNat, bBit f.b f.m]
  | .addsat f => uni [gbit f.d.toNat, gbit f.a.toNat, bBit f.b f.m, flagsBit]
  | .div f => uni [gbit f.d.toNat, gbit f.a.toNat, gbit f.b.toNat, flagsBit]
  | .rem f => uni [gbit f.d.toNat, gbit f.a.toNat, gbit f.b.toNat, flagsBit]
  | .mulw f => uni [gbit f.d.toNat, gbit f.a.toNat, bBit f.b f.m]
  | .absd f => uni [gbit f.d.toNat, gbit f.a.toNat, bBit f.b f.m]
  | .clz f => uni [gbit f.d.toNat, gbit f.a.toNat]
  | .ctz f => uni [gbit f.d.toNat, gbit f.a.toNat]
  | .popc f => uni [gbit f.d.toNat, gbit f.a.toNat]
  | .brev f => uni [gbit f.d.toNat, gbit f.a.toNat]
  | .absW f => uni [gbit f.d.toNat, gbit f.a.toNat, flagsBit]
  | .neg f => uni [gbit f.d.toNat, gbit f.a.toNat, flagsBit]
  | .bfx f => uni [gbit f.d.toNat, gbit f.a.toNat, gbit f.b.toNat]
  | .bfi f => uni [gbit f.d.toNat, gbit f.a.toNat, gbit f.b.toNat]
  | .lea f => uni [gbit f.d.toNat, gbit f.a.toNat, bBit f.b f.m]
  | .pack f => uni [gbit f.d.toNat, gbit f.a.toNat, gbit f.b.toNat, flagsBit]
  | .unpk f => uni [gbit f.d.toNat, gbit f.a.toNat]
  | .swapb f => uni [gbit f.d.toNat, gbit f.a.toNat]
  | .addi f => uni [gbit f.d.toNat, gbit f.a.toNat, flagsBit]
  | .andi f => uni [gbit f.d.toNat, gbit f.a.toNat]
  | .ori f => uni [gbit f.d.toNat, gbit f.a.toNat]
  | .xori f => uni [gbit f.d.toNat, gbit f.a.toNat]
  | .shli f => uni [gbit f.d.toNat, gbit f.a.toNat]
  | .shri f => uni [gbit f.d.toNat, gbit f.a.toNat]
  | .sari f => uni [gbit f.d.toNat, gbit f.a.toNat]
  | .roti f => uni [gbit f.d.toNat, gbit f.a.toNat]
  | .icmp f => uni [gbit f.d.toNat, gbit f.a.toNat, gbit f.b.toNat]
  | .icmpp f => uni [gbit f.a.toNat, gbit f.b.toNat]
  | .movz f => uni [gbit f.d.toNat]
  | .movk f => uni [gbit f.d.toNat]
  | .movn f => uni [gbit f.d.toNat]
  | .fadd f => uni [gbit f.d.toNat, gbit f.a.toNat, bBit f.b f.m, flagsBit]
  | .fsub f => uni [gbit f.d.toNat, gbit f.a.toNat, bBit f.b f.m, flagsBit]
  | .fmul f => uni [gbit f.d.toNat, gbit f.a.toNat, bBit f.b f.m, flagsBit]
  | .fmin f => uni [gbit f.d.toNat, gbit f.a.toNat, bBit f.b f.m, flagsBit]
  | .fmax f => uni [gbit f.d.toNat, gbit f.a.toNat, bBit f.b f.m, flagsBit]
  | .fminnum f => uni [gbit f.d.toNat, gbit f.a.toNat, bBit f.b f.m, flagsBit]
  | .fmaxnum f => uni [gbit f.d.toNat, gbit f.a.toNat, bBit f.b f.m, flagsBit]
  | .fsgn f => uni [gbit f.d.toNat, gbit f.a.toNat, bBit f.b f.m]
  | .fscale f => uni [gbit f.d.toNat, gbit f.a.toNat, bBit f.b f.m, flagsBit]
  | .fdot2 f => uni [gbit f.d.toNat, gbit f.a.toNat, bBit f.b f.m, flagsBit]
  | .fma f => uni [gbit f.d.toNat, gbit f.a.toNat, gbit f.b.toNat, gbit f.e.toNat, flagsBit]
  | .fnma f => uni [gbit f.d.toNat, gbit f.a.toNat, gbit f.b.toNat, gbit f.e.toNat, flagsBit]
  | .cvtf f => uni [gbit f.d.toNat, gbit f.a.toNat, flagsBit]
  | .cvtfi f => uni [gbit f.d.toNat, gbit f.a.toNat, flagsBit]
  | .cvtif f => uni [gbit f.d.toNat, gbit f.a.toNat, flagsBit]
  | .cvtn f => uni [gbit f.d.toNat, gbit f.a.toNat, gbit f.b.toNat, flagsBit]
  | .cvtw f => uni [gbit f.d.toNat, gbit f.a.toNat, gbit f.b.toNat, flagsBit]
  | .frnd f => uni [gbit f.d.toNat, gbit f.a.toNat, flagsBit]
  | .frcps f => uni [gbit f.d.toNat, gbit f.a.toNat, flagsBit]
  | .frsqs f => uni [gbit f.d.toNat, gbit f.a.toNat, flagsBit]
  | .fexp2 f => uni [gbit f.d.toNat, gbit f.a.toNat, flagsBit]
  | .flog2 f => uni [gbit f.d.toNat, gbit f.a.toNat, flagsBit]
  | .fsin f => uni [gbit f.d.toNat, gbit f.a.toNat, flagsBit]
  | .fcos f => uni [gbit f.d.toNat, gbit f.a.toNat, flagsBit]
  | .fcmp f => uni [gbit f.d.toNat, gbit f.a.toNat, gbit f.b.toNat, flagsBit]
  | .fcmpp f => uni [gbit f.a.toNat, gbit f.b.toNat, flagsBit]
  | .fclass f => uni [gbit f.d.toNat, gbit f.a.toNat]
  | .smov f => uni [codeBit f.d, codeBit f.a]
  | .sadd f => uni [codeBit f.d, codeBit f.a]
  | .ssub f => uni [codeBit f.d, codeBit f.a]
  | .smul f => uni [codeBit f.d, codeBit f.a]
  | .sand f => uni [codeBit f.d, codeBit f.a]
  | .sor f => uni [codeBit f.d, codeBit f.a]
  | .sxor f => uni [codeBit f.d, codeBit f.a]
  | .sshl f => uni [codeBit f.d, codeBit f.a]
  | .sshr f => uni [codeBit f.d, codeBit f.a]
  | .smin f => uni [codeBit f.d, codeBit f.a]
  | .smax f => uni [codeBit f.d, codeBit f.a]
  | .sdiv f => uni [codeBit f.d, codeBit f.a, flagsBit]
  | .srdl f => uni [codeBit f.d]
  | .sbc f => uni [codeBit f.d, codeBit f.a]
  | .smovi f => uni [codeBit f.d]
  | .saddi f => uni [codeBit f.d]
  | .sandi f => uni [codeBit f.d]
  | .sori f => uni [codeBit f.d]
  | .sshli f => uni [codeBit f.d]
  | .sshri f => uni [codeBit f.d]
  | .mfsr f => uni [codeBit f.d, if f.a.toNat = 11 then flagsBit else 0]
  | .mtsr f => uni [codeBit f.a, if f.d.toNat = 11 then flagsBit else 0]
  | .sld f => uni [codeBit f.d, codeBit f.a]
  | .sst f => uni [codeBit f.d, codeBit f.a]
  | .shfl f => uni [gbit f.d.toNat, gbit f.a.toNat, bBit f.b f.m]
  | .shflx f => uni [gbit f.d.toNat, gbit f.a.toNat, bBit f.b f.m]
  | .shfli f => uni [gbit f.d.toNat, gbit f.a.toNat]
  | .bcast f => uni [gbit f.d.toNat, gbit f.a.toNat]
  | .redl f => uni [gbit f.a.toNat, if f.b.toNat = 0 ∨ f.b.toNat = 1 ∨ f.b.toNat = 4 ∨ f.b.toNat = 5 then flagsBit else 0]
  | .scanl f => uni [gbit f.d.toNat, gbit f.a.toNat, if f.b.toNat = 0 ∨ f.b.toNat = 1 ∨ f.b.toNat = 4 ∨ f.b.toNat = 5 then flagsBit else 0]
  | .ballot f => uni [gbit f.d.toNat, gbit f.a.toNat]
  | .vany f => uni [gbit f.d.toNat, gbit f.a.toNat]
  | .vall f => uni [gbit f.d.toNat, gbit f.a.toNat]
  | .matchL f => uni [gbit f.d.toNat, gbit f.a.toNat]
  | .matchN f => uni [gbit f.d.toNat, gbit f.a.toNat]
  | .popl f => uni [gbit f.d.toNat, gbit f.a.toNat]
  | .ld f => uni [gbit f.d.toNat, gbit f.a.toNat]
  | .ldsx f => uni [gbit f.d.toNat, gbit f.a.toNat]
  | .ldnm f => uni [gbit f.d.toNat, gbit f.a.toNat]
  | .st f => uni [gbit f.d.toNat, gbit f.a.toNat]
  | .stnm f => uni [gbit f.d.toNat, gbit f.a.toNat]
  | .lds f => uni [gbit f.d.toNat, gbit f.a.toNat]
  | .sts f => uni [gbit f.d.toNat, gbit f.a.toNat]
  | .ldw f => uni [gbit f.d.toNat, gbit f.a.toNat]
  | .stw f => uni [gbit f.d.toNat, gbit f.a.toNat]
  | .ldfe f => uni [gbit f.d.toNat, gbit f.a.toNat]
  | .stef f => uni [gbit f.d.toNat, gbit f.a.toNat]
  | .ldff f => uni [gbit f.d.toNat, gbit f.a.toNat]
  | .sete f => uni [gbit f.a.toNat]
  | .ldr f => uni [gbit f.d.toNat, gbit f.a.toNat]
  | .ldrna f => uni [gbit f.d.toNat, gbit f.a.toNat]
  | .ldp f => uni [gbit f.d.toNat, gbit f.a.toNat]
  | .stp f => uni [gbit f.d.toNat, gbit f.a.toNat]
  | .atomAdd f => uni [gbit f.d.toNat, gbit f.a.toNat, gbit f.b.toNat]
  | .atomFadd f => uni [gbit f.d.toNat, gbit f.a.toNat, gbit f.b.toNat, flagsBit]
  | .atomMin f => uni [gbit f.d.toNat, gbit f.a.toNat, gbit f.b.toNat]
  | .atomMax f => uni [gbit f.d.toNat, gbit f.a.toNat, gbit f.b.toNat]
  | .atomAnd f => uni [gbit f.d.toNat, gbit f.a.toNat, gbit f.b.toNat]
  | .atomOr f => uni [gbit f.d.toNat, gbit f.a.toNat, gbit f.b.toNat]
  | .atomXor f => uni [gbit f.d.toNat, gbit f.a.toNat, gbit f.b.toNat]
  | .atomXchg f => uni [gbit f.d.toNat, gbit f.a.toNat, gbit f.b.toNat]
  | .atomCas f => uni [gbit f.d.toNat, gbit f.a.toNat, gbit f.b.toNat]
  | .atomInc f => uni [gbit f.d.toNat, gbit f.a.toNat, gbit f.b.toNat]
  | .atomDec f => uni [gbit f.d.toNat, gbit f.a.toNat, gbit f.b.toNat]
  | .atomFmin f => uni [gbit f.d.toNat, gbit f.a.toNat, gbit f.b.toNat, flagsBit]
  | .atomFmax f => uni [gbit f.d.toNat, gbit f.a.toNat, gbit f.b.toNat, flagsBit]
  | .atomFaddComb f => uni [gbit f.d.toNat, gbit f.a.toNat, gbit f.b.toNat, flagsBit]
  | .redAdd f => uni [gbit f.a.toNat, gbit f.b.toNat]
  | .redFadd f => uni [gbit f.a.toNat, gbit f.b.toNat]
  | .redMin f => uni [gbit f.a.toNat, gbit f.b.toNat]
  | .redMax f => uni [gbit f.a.toNat, gbit f.b.toNat]
  | .redAnd f => uni [gbit f.a.toNat, gbit f.b.toNat]
  | .redOr f => uni [gbit f.a.toNat, gbit f.b.toNat]
  | .redXor f => uni [gbit f.a.toNat, gbit f.b.toNat]
  | .redInc f => uni [gbit f.a.toNat, gbit f.b.toNat]
  | .redDec f => uni [gbit f.a.toNat, gbit f.b.toNat]
  | .redFmin f => uni [gbit f.a.toNat, gbit f.b.toNat]
  | .redFmax f => uni [gbit f.a.toNat, gbit f.b.toNat]
  | .redFaddComb f => uni [gbit f.a.toNat, gbit f.b.toNat]
  | .migr f => uni [gbit f.d.toNat, gbit f.a.toNat]
  | .spawn f => uni [gbit f.d.toNat, gbit f.a.toNat, gbit f.b.toNat]
  | .homeq f => uni [gbit f.d.toNat, gbit f.a.toNat]
  | .seal f => uni [gbit f.d.toNat, gbit f.a.toNat]
  | .unseal f => uni [gbit f.d.toNat, gbit f.a.toNat]
  | .waitw f => uni [gbit f.d.toNat, gbit f.a.toNat]
  | .send f => uni [gbit f.g.toNat]
  | .recvp f => uni [gbit f.g.toNat]
  | .recvw f => uni [gbit f.g.toNat]
  | .recvwTest f => uni [gbit f.g.toNat]
  | .probe f => uni [gbit f.g.toNat]
  | .mma f => uni [gbit f.g.toNat]
  | .mmamCausal f => uni [gbit f.g.toNat]
  | .mmamTree f => uni [gbit f.g.toNat]
  | .accz f => uni [gbit f.g.toNat]
  | .accrd f => uni [gbit f.g.toNat]
  | .accwr f => uni [gbit f.g.toNat]
  | .wbld f => uni [gbit f.g.toNat]
  | .wbdrop f => uni [gbit f.g.toNat]
  | .tmset f => uni [gbit f.g.toNat]
  | .mwaitThru f => uni [gbit f.g.toNat]
  | .post f => uni [gbit f.g.toNat]
  | .tcopy f => uni [gbit f.g.toNat]
  | .layout f => uni [gbit f.g.toNat]
  | .mcast f => uni [gbit f.g.toNat]
  | .cpoll f => uni [gbit f.g.toNat]
  | .cwait f => uni [gbit f.g.toNat]
  | .qpop f => uni [gbit f.g.toNat]
  | .tempoOr f => uni [gbit f.g.toNat]
  | .gqry f => uni [gbit f.g.toNat]
  | .wopen f => uni [gbit f.g.toNat]
  | .tret f => uni [gbit f.g.toNat]
  | .xflt f => uni [gbit f.g.toNat]
  | .replay f => uni [gbit f.g.toNat]
  | .ctxsw f => uni [gbit f.g.toNat]
  | .prefixArith f => uni [if f.v.toNat = 1 then gbit f.e.toNat else 0]
  | _ => 0

/-- The s codes that a word reads in a roaming thread: launch constants (R141, R323). -/
def Instr.consts (i : Instr) : List Nat :=
  let s (c : BitVec 8) : List Nat := if isS c then [c.toNat] else []
  match i with
  | .smov f => s f.a
  | .sadd f | .ssub f | .smul f | .sand f | .sor f | .sxor f | .sshl f | .sshr f | .smin f | .smax f | .sdiv f | .sbc f => s f.d ++ s f.a
  | .saddi f | .sandi f | .sori f | .sshli f | .sshri f => s f.d
  | .mtsr f => s f.a
  | .cpoll f => s f.s
  | .cwait f => s f.s ++ s (f.s + 1)
  | _ => []

/-- The lookahead value of a long-latency word (R56). -/
def Instr.lookahead : Instr → Option Nat
  | .div f => some f.l.toNat
  | .rem f => some f.l.toNat
  | .cvtn f => some f.l.toNat
  | .frcps f => some f.l.toNat
  | .frsqs f => some f.l.toNat
  | .fexp2 f => some f.l.toNat
  | .flog2 f => some f.l.toNat
  | .fsin f => some f.l.toNat
  | .fcos f => some f.l.toNat
  | .ld f => some f.l.toNat
  | .ldsx f => some f.l.toNat
  | .ldnm f => some f.l.toNat
  | .lds f => some f.l.toNat
  | .ldw f => some f.l.toNat
  | .ldfe f => some f.l.toNat
  | .ldff f => some f.l.toNat
  | .ldr f => some f.l.toNat
  | .ldrna f => some f.l.toNat
  | .ldp f => some f.l.toNat
  | .atomAdd f => some f.l.toNat
  | .atomFadd f => some f.l.toNat
  | .atomMin f => some f.l.toNat
  | .atomMax f => some f.l.toNat
  | .atomAnd f => some f.l.toNat
  | .atomOr f => some f.l.toNat
  | .atomXor f => some f.l.toNat
  | .atomXchg f => some f.l.toNat
  | .atomCas f => some f.l.toNat
  | .atomInc f => some f.l.toNat
  | .atomDec f => some f.l.toNat
  | .atomFmin f => some f.l.toNat
  | .atomFmax f => some f.l.toNat
  | .atomFaddComb f => some f.l.toNat
  | .mma f => some f.l.toNat
  | .mmamCausal f => some f.l.toNat
  | .mmamTree f => some f.l.toNat
  | .accz f => some f.l.toNat
  | .accrd f => some f.l.toNat
  | .accwr f => some f.l.toNat
  | .wbld f => some f.l.toNat
  | .wbdrop f => some f.l.toNat
  | .tmset f => some f.l.toNat
  | .post f => some f.l.toNat
  | .tcopy f => some f.l.toNat
  | .layout f => some f.l.toNat
  | .mcast f => some f.l.toNat
  | _ => none

/-- The pipe of a word (R43, R59): L is 0, M is 1, C is 2; a prefix and a major that the opcode map does not list have none. -/
def pipeOf (major : Nat) : Option Nat :=
  if (8 ≤ major ∧ major ≤ 0xd) ∨ (0x10 ≤ major ∧ major ≤ 0x14) ∨ major = 0x1c ∨ major = 0x1d then some 0
  else if (0x20 ≤ major ∧ major ≤ 0x2a) ∨ (0x2c ≤ major ∧ major ≤ 0x2f) then some 1
  else if (1 ≤ major ∧ major ≤ 6) ∨ (0x18 ≤ major ∧ major ≤ 0x1a) ∨ major = 0x30 ∨ major = 0x31 ∨ major = 0x38 then some 2
  else none

/-- The arithmetic bases of R54. -/
def arithMajor (m : Nat) : Bool := decide ((8 ≤ m ∧ m ≤ 0xd) ∨ (0x10 ≤ m ∧ m ≤ 0x14))

/-- Whether an arithmetic prefix may stand before a word (R54, R55, R86). -/
def arithPrefixOk (p : PfxArithF) (i : Instr) : Bool :=
  let rounding := match i with
    | .fadd _ | .fsub _ | .fmul _ | .fscale _ | .fma _ | .fnma _ | .cvtf _ | .cvtfi _ | .cvtif _ | .cvtn _ | .frnd _ | .fdot2 _ | .frcps _ | .frsqs _ | .fexp2 _ | .flog2 _ | .fsin _ | .fcos _ => true
    | _ => false
  let fourth := match i with
    | .fdot2 _ => true
    | _ => false
  let pushes := match i with
    | .icmpp _ | .fcmpp _ => true
    | _ => false
  arithMajor i.major && (rounding || p.r.toNat == 0) && (fourth || p.v.toNat == 0) && (!pushes || p.z.toNat == 0)

/-- Whether a memory prefix may stand before a word (R54, R55, R181). -/
def memPrefixOk (p : PfxMemF) (i : Instr) : Bool :=
  let load := match i with
    | .ld _ | .ldsx _ | .ldnm _ => true
    | _ => false
  let isAtom := i.major == 0x26
  let store := match i with
    | .st _ | .stnm _ => true
    | _ => i.major == 0x27
  memMajor i.major
    && (p.o.toNat == 0 || isAtom || (load && p.o.toNat == 1) || (store && p.o.toNat == 2))
    && (p.z.toNat == 0 || isAtom || (i.lookahead).isSome)

/-- Words that only a crew may issue, by major (R133, R162, R198, R201, R266 and the rules of each word). -/
def crewMajor (m : Nat) : Bool :=
  m == 0x06 || m == 0x1c || m == 0x1d || m == 0x22 || m == 0x23 || m == 0x25 || m == 0x2a || m == 0x2c || m == 0x2d || m == 0x2e
  || m == 0x31

/-- Words and forms that raise CREW_ONLY in a roaming thread (R162). -/
def Instr.crewOnly (i : Instr) : Bool :=
  crewMajor i.major ||
  match i with
  | .brpAny _ | .brpAll _ | .brpNone _ | .srdl _ | .sld _ | .sst _ | .qpop _ | .qfree _ | .bar _ | .bara _ | .barw _ | .bexp _
  | .barb _ => true
  | .mfsr f => isK f.d || f.a.toNat == 7 || f.a.toNat == 18
  | .mtsr f => isK f.a || f.d.toNat == 18
  | .smov f | .sadd f | .ssub f | .smul f | .sand f | .sor f | .sxor f | .sshl f | .sshr f | .smin f | .smax f | .sdiv f | .sbc f =>
    isK f.d || isK f.a
  | .smovi f | .saddi f | .sandi f | .sori f | .sshli f | .sshri f => isK f.d
  | .prefixArith f => f.k.toNat != 0
  | .prefixMemory f => f.k.toNat != 0
  | _ => false

/-- Words that raise ROAM_ONLY in a crew lane (R211). -/
def Instr.roamOnly : Instr → Bool
  | .migr _ | .spawn _ => true
  | _ => false


end Sys2Proof
end

