-- ==== Sys2Proof/Config.lean ====
section
/-! DEFINITION. The device's fixed numbers (01 R8-R12) and the values and choices the spec leaves open, each an opaque constant
that nothing can evaluate. -/

namespace Sys2Proof.Config

/-- Which of the possible next events is performed, applied to the state's counter: the order the spec leaves open (R456, R192,
R207, R302). Log 9. -/
opaque choice : Nat → Nat

/-- The approximation FRCPS (0), FRSQS (1), FEXP2 (2), FLOG2 (3), FSIN (4), FCOS (5) of a type code on an operand's bits; used
only where it lies within the bound of R36, R37. Log 10. -/
opaque special : Nat → Nat → Nat → Nat

/-- The value of a launch constant whose block software does not keep sealed (R323), by the state's counter and the address. Log 12. -/
opaque looseConst : Nat → Nat → Nat

/-- The bytes of a capture at an offset, by the state's counter: their layout is not given (R436). Log 14. -/
opaque captureBytes : Nat → Nat → Nat

/-- The signature of an attestation report under a leaf of the part's key, and the digest of its ROM (R439). Log 15. -/
opaque signature : Nat → Nat → Nat
opaque romDigest : Nat

/-- The cluster id that firmware on the management core reads (R11 gives that core none). Log 11. -/
opaque mgmtCluster : Nat

/-- Cores of a package that hold a slice and a scratchpad (R8). -/
abbrev numCores : Nat := 384
/-- The management core's number (R8). -/
abbrev mgmtCore : Nat := 0x1fe
/-- The number this model gives the firmware context, which lies outside the 32 (R384). -/
abbrev fwCtx : Nat := 32

end Sys2Proof.Config
end

