-- ==== Sys2Proof/Machine/Float.lean ====
section
/-! DEFINITION. Floating-point formats, rounding, special values and flags (02 R19-R37): values are exact dyadic numbers, and each
result is rounded once. -/

namespace Sys2Proof.Machine
open Sys2Proof

/-- A set of sticky flags in the layout of FLAGS (R33). -/
abbrev Flags := BitVec 7

/-- INVALID, bit 0 (R33). -/
abbrev fInvalid : Flags := 1
/-- DIVZERO, bit 1. -/
abbrev fDivZero : Flags := 2
/-- OVERFLOW, bit 2. -/
abbrev fOverflow : Flags := 4
/-- UNDERFLOW, bit 3. -/
abbrev fUnderflow : Flags := 8
/-- INEXACT, bit 4. -/
abbrev fInexact : Flags := 16
/-- INT_OVERFLOW, bit 5. -/
abbrev fIntOvf : Flags := 32
/-- INT_DIVZERO, bit 6. -/
abbrev fIntDiv : Flags := 64

/-- The flag when the condition holds. -/
def flagIf (c : Bool) (f : Flags) : Flags := if c then f else 0

/-- What the all-ones exponent of a format encodes (R19): infinity and NaNs, the one NaN of E4M3, or finite values. -/
inductive Specials where
  | ieee | oneNan | finite
  deriving DecidableEq, Repr

/-- A binary format (R19): exponent and mantissa widths, bias, specials, whether its NaNs can signal (R20), canonical NaN. -/
structure Fmt where
  ew : Nat
  mw : Nat
  bias : Int
  sp : Specials
  sig : Bool
  qnan : Nat
  deriving DecidableEq, Repr

def f64F : Fmt := ⟨11, 52, 1023, .ieee, true, 0x7ff8000000000000⟩
def f32F : Fmt := ⟨8, 23, 127, .ieee, true, 0x7fc00000⟩
def f16F : Fmt := ⟨5, 10, 15, .ieee, true, 0x7e00⟩
def bf16F : Fmt := ⟨8, 7, 127, .ieee, true, 0x7fc0⟩
def e4m3F : Fmt := ⟨4, 3, 7, .oneNan, false, 0x7f⟩
def e5m2F : Fmt := ⟨5, 2, 15, .ieee, false, 0x7e⟩
def e2m1F : Fmt := ⟨2, 1, 1, .finite, false, 0⟩

/-- Bits of an element. -/
def Fmt.width (F : Fmt) : Nat := 1 + F.ew + F.mw

/-- The code of the largest finite magnitude (R19). -/
def Fmt.maxCode (F : Fmt) : Nat :=
  match F.sp with
  | .ieee => (2 ^ F.ew - 1) * 2 ^ F.mw - 1
  | .oneNan => 2 ^ (F.ew + F.mw) - 2
  | .finite => 2 ^ (F.ew + F.mw) - 1

/-- The exponent of the smallest normal number. -/
def Fmt.emin (F : Fmt) : Int := 1 - F.bias

/-- The value of an element: a NaN (signalling or quiet), an infinity, or (-1)^neg × m × 2^e. -/
inductive FV where
  | nan (sig : Bool)
  | inf (neg : Bool)
  | fin (neg : Bool) (m : Nat) (e : Int)
  deriving DecidableEq, Repr

/-- The value of a code (R19, R20). -/
def unpackF (F : Fmt) (n : Nat) : FV :=
  let neg := bit n (F.ew + F.mw)
  let x := n / 2 ^ F.mw % 2 ^ F.ew
  let m := n % 2 ^ F.mw
  if x = 2 ^ F.ew - 1 ∧ F.sp = .ieee then
    if m = 0 then .inf neg else .nan (F.sig && !bit m (F.mw - 1))
  else if x = 2 ^ F.ew - 1 ∧ F.sp = .oneNan ∧ m = 2 ^ F.mw - 1 then .nan false
  else if x = 0 then .fin neg m (1 - F.bias - F.mw)
  else .fin neg (m + 2 ^ F.mw) ((x : Int) - F.bias - F.mw)

/-- A code with its flags. -/
structure FR where
  bits : Nat
  fl : Flags
  deriving DecidableEq, Repr

/-- The sign bit of a format. -/
def signCode (F : Fmt) (neg : Bool) : Nat := if neg then 2 ^ (F.ew + F.mw) else 0

/-- The canonical NaN, with flags (R20). -/
def nanR (F : Fmt) (fl : Flags) : FR := ⟨F.qnan, fl⟩
/-- An infinity. -/
def infR (F : Fmt) (neg : Bool) (fl : Flags) : FR := ⟨signCode F neg + (2 ^ F.ew - 1) * 2 ^ F.mw, fl⟩
/-- A zero. -/
def zeroR (F : Fmt) (neg : Bool) (fl : Flags) : FR := ⟨signCode F neg, fl⟩

/-- A magnitude m divided by 2^sh, rounded to an integer under a mode (R24, R27); `r` is the draw of stochastic rounding. The second part
tells whether it was inexact. -/
def quant (mode r : Nat) (neg : Bool) (m : Nat) (sh : Int) : Nat × Bool :=
  if sh ≤ 0 then (m * 2 ^ (-sh).toNat, false) else
  let k := sh.toNat
  let a := m / 2 ^ k
  let d := m % 2 ^ k
  let up :=
    match mode with
    | 2 => false
    | 3 => d != 0 && !neg
    | 4 => d != 0 && neg
    | 5 => decide (2 ^ k ≤ 2 * d)
    | 6 => decide (2 ^ 24 ≤ 2 ^ 24 * d / 2 ^ k + r)
    | _ => decide (2 ^ k < 2 * d) || (2 ^ k == 2 * d && a % 2 == 1)
  (if up then a + 1 else a, d != 0)

/-- The exponent of a magnitude's leading bit. -/
def leadExp (m : Nat) (e : Int) : Int := e + Nat.log2 m

/-- The code of magnitude y × 2^q with unbounded exponent; y has at most mw + 2 bits. -/
def magCode (F : Fmt) (y : Nat) (q : Int) : Nat :=
  if y < 2 ^ F.mw then y
  else if y < 2 ^ (F.mw + 1) then (q + F.mw + F.bias).toNat * 2 ^ F.mw + (y - 2 ^ F.mw)
  else (q + 1 + F.mw + F.bias).toNat * 2 ^ F.mw

/-- The result of an overflow (R26). -/
def overflowR (F : Fmt) (mode : Nat) (neg : Bool) : Nat :=
  let toMax := mode == 2 || (mode == 3 && neg) || (mode == 4 && !neg)
  if F.sp = .ieee ∧ toMax = false then signCode F neg + (2 ^ F.ew - 1) * 2 ^ F.mw else signCode F neg + F.maxCode

/-- Whether a non-zero magnitude, rounded with unbounded exponent, lies below the smallest normal number (R33). -/
def tiny (F : Fmt) (mode r : Nat) (neg : Bool) (m : Nat) (e : Int) : Bool :=
  let x := leadExp m e
  decide (x < F.emin) && !((quant mode r neg m (x - F.mw - e)).1 == 2 ^ (F.mw + 1) && x + 1 == F.emin)

/-- A finite value rounded onto a format (R26, R27) with its flags (R33). -/
def roundF (F : Fmt) (mode r : Nat) (neg : Bool) (m : Nat) (e : Int) : FR :=
  if m = 0 then zeroR F neg 0 else
  let q := max (leadExp m e - F.mw) (F.emin - F.mw)
  let (y, ix) := quant mode r neg m (q - e)
  let c := magCode F y q
  if F.maxCode < c then ⟨overflowR F mode neg, fOverflow ||| fInexact⟩
  else ⟨signCode F neg + c, flagIf ix fInexact ||| flagIf (ix && tiny F mode r neg m e) fUnderflow⟩

/-- A signed exact sum m × 2^e rounded; an exact zero takes sign `z`. -/
def roundI (F : Fmt) (mode r : Nat) (m : Int) (e : Int) (z : Bool) : FR :=
  if m = 0 then zeroR F z 0 else roundF F mode r (decide (m < 0)) m.natAbs e

/-- Whether a value is a NaN. -/
def FV.isNan : FV → Bool
  | .nan _ => true
  | _ => false
/-- Whether a value is a signalling NaN. -/
def FV.isSig : FV → Bool
  | .nan b => b
  | _ => false
/-- Whether a value is a zero. -/
def FV.isZero : FV → Bool
  | .fin _ 0 _ => true
  | _ => false
/-- The sign of a value. -/
def FV.neg : FV → Bool
  | .nan _ => false
  | .inf b => b
  | .fin b _ _ => b
/-- The value with its sign changed. -/
def FV.negate : FV → FV
  | .nan b => .nan b
  | .inf b => .inf (!b)
  | .fin b m e => .fin (!b) m e

/-- The product of two values, and whether it is 0 × ∞ (R31). -/
def mulFV (a b : FV) : FV × Bool :=
  match a, b with
  | .nan s, .nan t => (.nan (s || t), false)
  | .nan s, _ => (.nan s, false)
  | _, .nan t => (.nan t, false)
  | .inf s, .inf t => (.inf (s != t), false)
  | .inf s, .fin t m _ => if m = 0 then (.nan false, true) else (.inf (s != t), false)
  | .fin s m _, .inf t => if m = 0 then (.nan false, true) else (.inf (s != t), false)
  | .fin s m e, .fin t n f => (.fin (s != t) (m * n) (e + f), false)

/-- The lowest exponent of the finite terms. -/
def minExp (ts : List FV) : Int :=
  ts.foldl (fun a t => match t with | .fin _ m e => if m = 0 then a else min a e | _ => a) 100000

/-- The exact sum of the finite terms, in units of 2^e. -/
def sumAt (e : Int) (ts : List FV) : Int :=
  ts.foldl (fun a t => match t with
    | .fin s m x => if m = 0 then a else (if s then a - (m * 2 ^ (x - e).toNat : Nat) else a + (m * 2 ^ (x - e).toNat : Nat))
    | _ => a) 0

/-- The sign of an exact zero sum (R26). -/
def zeroSign (mode : Nat) (ts : List FV) : Bool :=
  if ts.all (fun t => t.isZero && t.neg) then true
  else if ts.all (fun t => t.isZero && !t.neg) then false
  else mode == 4

/-- The sum of terms rounded once (R26, R31); `inv` tells that a product among them was 0 × ∞. Infinities of opposite sign are invalid beside a NaN too. -/
def sumF (F : Fmt) (mode r : Nat) (ts : List FV) (inv : Bool) : FR :=
  let p := ts.any (fun t => t == .inf false)
  let n := ts.any (fun t => t == .inf true)
  let bad := inv || (p && n) || ts.any FV.isSig
  if bad || ts.any FV.isNan then nanR F (flagIf bad fInvalid)
  else
    if p then infR F false 0 else if n then infR F true 0
    else
      let e := minExp ts
      roundI F mode r (sumAt e ts) e (zeroSign mode ts)

def addF (F : Fmt) (mode r a b : Nat) : FR := sumF F mode r [unpackF F a, unpackF F b] false
def subF (F : Fmt) (mode r a b : Nat) : FR :=
  sumF F mode r [unpackF F a, (unpackF F b).negate] false

/-- A value rounded to a format: NaNs canonical, infinities kept. -/
def convF (F : Fmt) (mode r : Nat) (v : FV) : FR :=
  match v with
  | .nan s => nanR F (flagIf s fInvalid)
  | .inf n => infR F n 0
  | .fin n m e => roundF F mode r n m e

def mulF (F : Fmt) (mode r a b : Nat) : FR :=
  let p := mulFV (unpackF F a) (unpackF F b)
  if p.2 then nanR F fInvalid else convF F mode r p.1

/-- FMA (neg = false) and FNMA (neg = true) (R118). -/
def fmaF (F : Fmt) (mode r : Nat) (neg : Bool) (a b c : Nat) : FR :=
  let p := mulFV (unpackF F a) (unpackF F b)
  sumF F mode r [if neg then p.1.negate else p.1, unpackF F c] p.2

/-- The order of two values that are no NaNs: less, equal (±0 equal), greater. -/
def cmpFV (a b : FV) : Ordering :=
  let key (v : FV) (e : Int) : Int := match v with
    | .fin s m x => if s then -((m * 2 ^ (x - e).toNat : Nat) : Int) else ((m * 2 ^ (x - e).toNat : Nat) : Int)
    | _ => 0
  match a, b with
  | .inf s, .inf t => if s == t then .eq else if s then .lt else .gt
  | .inf s, _ => if s then .lt else .gt
  | _, .inf t => if t then .gt else .lt
  | _, _ => compare (key a (minExp [a, b])) (key b (minExp [a, b]))

/-- FMIN (max = false), FMAX, and with `num` FMINNUM and FMAXNUM (R114). -/
def minmaxF (F : Fmt) (max num : Bool) (a b : Nat) : FR :=
  let x := unpackF F a
  let y := unpackF F b
  let fl := flagIf (x.isSig || y.isSig) fInvalid
  if x.isNan && y.isNan then nanR F fl
  else if x.isNan then (if num then ⟨b, fl⟩ else nanR F fl)
  else if y.isNan then (if num then ⟨a, fl⟩ else nanR F fl)
  else
    let less := match cmpFV x y with
      | .lt => true
      | .gt => false
      | .eq => x.neg && !y.neg
    ⟨if less == max then b else a, fl⟩

/-- FSGN (R115). -/
def sgnF (F : Fmt) (a b : Nat) : FR :=
  ⟨a % 2 ^ (F.ew + F.mw) + signCode F (bit b (F.ew + F.mw)), 0⟩

/-- FSCALE (R116): a × 2^n. -/
def scaleF (F : Fmt) (mode r a : Nat) (n : Int) : FR :=
  match unpackF F a with
  | .nan s => nanR F (flagIf s fInvalid)
  | .inf s => infR F s 0
  | .fin s m e => roundF F mode r s m (e + n)

/-- FRND (R126): an integral value in the element's own format. A value that rounds to zero sets INEXACT and no UNDERFLOW (log 51). -/
def rndF (F : Fmt) (mode r a : Nat) : FR :=
  match unpackF F a with
  | .nan s => nanR F (flagIf s fInvalid)
  | .inf s => infR F s 0
  | .fin s m e =>
    let (y, ix) := quant mode r s m (-e)
    ⟨(roundF F 2 0 s y 0).bits, flagIf ix fInexact⟩

/-- The result of a conversion to a w-bit integer (R32, R121). -/
def toIntF (F : Fmt) (mode r : Nat) (w : Nat) (signed : Bool) (a : Nat) : FR :=
  let lo : Int := if signed then -(2 ^ (w - 1) : Nat) else 0
  let hi : Int := if signed then (2 ^ (w - 1) : Nat) - 1 else (2 ^ w : Nat) - 1
  match unpackF F a with
  | .nan _ => ⟨0, fInvalid⟩
  | .inf s => ⟨wrapI w (if s then lo else hi), fInvalid⟩
  | .fin s m e =>
    let (y, ix) := quant mode r s m (-e)
    let i : Int := if s then -(y : Int) else y
    if i < lo then ⟨wrapI w lo, fInvalid⟩ else if hi < i then ⟨wrapI w hi, fInvalid⟩
    else ⟨wrapI w i, flagIf ix fInexact⟩

/-- The conversion of an integer (R122). -/
def ofIntF (F : Fmt) (mode r : Nat) (i : Int) : FR := roundI F mode r i 0 false

/-- A condition code of FCMP (R128), with its flags. -/
def cmpF (F : Fmt) (k a b : Nat) : Bool × Flags :=
  let x := unpackF F a
  let y := unpackF F b
  let un := x.isNan || y.isNan
  let inv := x.isSig || y.isSig || (un && decide (2 ≤ k ∧ k ≤ 5))
  let o := cmpFV x y
  let c := match k with
    | 0 => !un && o == .eq
    | 1 => un || o != .eq
    | 2 => !un && o == .lt
    | 3 => !un && o != .gt
    | 4 => !un && o == .gt
    | 5 => !un && o != .lt
    | 6 => un
    | _ => !un
  (c, flagIf inv fInvalid)

/-- FCLASS (R129). -/
def classF (F : Fmt) (a : Nat) : Nat :=
  match unpackF F a with
  | .nan s => if s then 2 ^ 8 else 2 ^ 9
  | .inf s => if s then 1 else 2 ^ 7
  | .fin s m e =>
    if m = 0 then (if s then 2 ^ 3 else 2 ^ 4)
    else if leadExp m e < F.emin then (if s then 2 ^ 2 else 2 ^ 5)
    else (if s then 2 else 2 ^ 6)

/-- The unscaled or scaled narrowing of a binary32 value (R34, R124): the code of v / 2^x. -/
def narrowFin (F : Fmt) (mode r : Nat) (s : Bool) (m : Nat) (e x : Int) : FR :=
  let q := roundF F mode r s m (e - x)
  if q.fl &&& fOverflow ≠ 0 then ⟨signCode F s + F.maxCode, q.fl⟩ else q

/-- NarrowUnscaled of R124: a binary32 code with no scale (R34). -/
def narrowUnscaled (F : Fmt) (mode r a : Nat) : FR :=
  match unpackF f32F a with
  | .nan s => if F.sp = .finite then ⟨0, fInvalid⟩ else nanR F (flagIf s fInvalid)
  | .inf s => if F.sp = .ieee then infR F s 0 else ⟨signCode F s + F.maxCode, fInvalid⟩
  | .fin s m e => narrowFin F mode r s m e 0

/-- The scaled path of R124. -/
def narrowScaled (F : Fmt) (mode r a : Nat) (x8 : Nat) : FR :=
  if x8 = 0xff then ⟨0, 0⟩ else
  match unpackF f32F a with
  | .nan s => ⟨0, flagIf s fInvalid⟩
  | .inf _ => ⟨0, fInvalid⟩
  | .fin s m e => narrowFin F mode r s m e ((x8 : Int) - 127)

/-- The decoding of an element under a scale exponent (R23, R125) to binary32. -/
def widenF (F : Fmt) (a : Nat) (x : Int) : FR :=
  match unpackF F a with
  | .nan _ => nanR f32F 0
  | .inf s => infR f32F s 0
  | .fin s m e => roundF f32F 1 0 s m (e + x)

/-! ### Seeds and elementary functions (R36, R37) -/

/-- Integer square root by digits: n has at most 2k bits. -/
def isqrtGo : Nat → Nat → Nat → Nat
  | 0, _, acc => acc
  | k + 1, n, acc => isqrtGo k n (if (acc + 2 ^ k) * (acc + 2 ^ k) ≤ n then acc + 2 ^ k else acc)

/-- The integer square root. -/
def isqrtN (n : Nat) : Nat := isqrtGo (Nat.log2 n / 2 + 1) n 0

/-- An exact value y × 2^f, or one within (y, y + 1) × 2^f when `st`, rounded: the sticky bit stands one place below. -/
def roundSticky (F : Fmt) (mode : Nat) (neg : Bool) (y : Nat) (f : Int) (st : Bool) : FR :=
  roundF F mode 0 neg (2 * y + b2n st) (f - 1)

/-- Whether |x| = m × 2^e is a power of two. -/
def isPow2 (m : Nat) : Bool := m != 0 && m == 2 ^ Nat.log2 m

/-- Whether the value c lies within a relative error of 2^-12 of 1 / (m × 2^e); a result below the smallest normal number (`sub`) is an
approximation within that error truncated to the grid, which lies in [y, y + 1) places of it. -/
def rcpOk (F : Fmt) (c : Nat) (m : Nat) (e : Int) (sub : Bool) : Bool :=
  match unpackF F c with
  | .fin _ y f =>
    let y1 := if sub then y + 1 else y
    let x := (2 ^ 12 - 1 : Nat) * 2 ^ (-(e + f) : Int).toNat
    let z := 2 ^ 12 * (y1 * m) * 2 ^ (e + f).toNat
    let lo := if sub then decide (x < z) else decide (x ≤ z)
    let hi := decide (2 ^ 12 * (y * m) * 2 ^ (e + f).toNat ≤ (2 ^ 12 + 1 : Nat) * 2 ^ (-(e + f) : Int).toNat)
    lo && hi
  | _ => false

/-- The exactly rounded reciprocal. -/
def rcpExact (F : Fmt) (mode : Nat) (s : Bool) (m : Nat) (e : Int) : FR :=
  let k := 2 * F.mw + 20 + Nat.log2 m
  roundSticky F mode s (2 ^ k / m) (-(k : Int) - e) (2 ^ k % m != 0)

/-- FRCPS of one element (R36); `narrow` for the 16-bit types, `cand` the free candidate's code. -/
def rcpF (F : Fmt) (narrow : Bool) (cand a : Nat) : FR :=
  match unpackF F a with
  | .nan s => nanR F (flagIf s fInvalid)
  | .inf s => zeroR F s 0
  | .fin s m e =>
    if m = 0 then infR F s fDivZero else
    let x := rcpExact F 1 s m e
    let t := rcpExact F 2 s m e
    let big := t.fl &&& fOverflow != 0 || (t.bits % 2 ^ (F.ew + F.mw) == F.maxCode && t.fl &&& fInexact != 0)
    let sub := decide (-(leadExp m e) - b2n (!isPow2 m) < F.emin)
    if big then infR F s fOverflow
    else if narrow then ⟨x.bits, flagIf (sub && x.fl &&& fInexact != 0) fUnderflow⟩
    else if isPow2 m then ⟨x.bits, flagIf sub fUnderflow⟩
    else
      let c := signCode F s + cand % 2 ^ (F.ew + F.mw)
      if rcpOk F c m e sub then ⟨c, flagIf sub fUnderflow⟩
      else ⟨(rcpExact F (if sub then 2 else 1) s m e).bits, flagIf sub fUnderflow⟩

/-- Whether c lies within a relative error of 2^-12 of 1 / √(m × 2^e): (1 - 2^-12)² ≤ c² x ≤ (1 + 2^-12)². -/
def rsqOk (F : Fmt) (c : Nat) (m : Nat) (e : Int) : Bool :=
  match unpackF F c with
  | .fin _ y f =>
    let u := e + 2 * f
    decide ((2 ^ 12 - 1 : Nat) ^ 2 * 2 ^ (-u : Int).toNat ≤ 2 ^ 24 * (y * y * m) * 2 ^ u.toNat) &&
    decide (2 ^ 24 * (y * y * m) * 2 ^ u.toNat ≤ (2 ^ 12 + 1 : Nat) ^ 2 * 2 ^ (-u : Int).toNat)
  | _ => false

/-- The exactly rounded reciprocal square root (nearest-even). -/
def rsqExact (F : Fmt) (m : Nat) (e : Int) : FR :=
  -- 1/√(m 2^e) = √(2^(2k) / m') 2^-(k + e'/2) with e' even
  let m' := if e % 2 = 0 then m else 2 * m
  let e' := if e % 2 = 0 then e else e - 1
  let k := F.mw + 40 + Nat.log2 m'
  let n := 2 ^ (2 * k) / m'
  let y := isqrtN n
  roundSticky F 1 false y (-(k : Int) - e' / 2) (y * y * m' != 2 ^ (2 * k))

/-- FRSQS of one element (R36). -/
def rsqF (F : Fmt) (narrow : Bool) (cand a : Nat) : FR :=
  match unpackF F a with
  | .nan s => nanR F (flagIf s fInvalid)
  | .inf s => if s then nanR F fInvalid else zeroR F false 0
  | .fin s m e =>
    if m = 0 then infR F s fDivZero
    else if s then nanR F fInvalid
    else
      let x := rsqExact F m e
      let c := cand % 2 ^ (F.ew + F.mw)
      if narrow || (isPow2 m && leadExp m e % 2 == 0) then ⟨x.bits, 0⟩
      else if rsqOk F c m e then ⟨c, 0⟩ else ⟨x.bits, 0⟩

/-- Fixed-point scale of the elementary functions. -/
abbrev fxBits : Nat := 256

/-- ln 2 × 2^256, rounded down. -/
def ln2Fx : Nat := 0xb17217f7d1cf79abc9e3b39803f2f6af40f343267298b62d8a0d175b8baafa2b

/-- 2π × 2^512, rounded down. -/
def twoPiFx : Nat := 0x6487ed5110b4611a62633145c06e0e68948127044533e63a0105df531d89cd9128a5043cc71a026ef7ca8cd9e69d218d98158536f92f8a1ba7f09ab6b6a8e122f

/-- Terms of e^t for 0 ≤ t < 1: sum of t^n / n!, fixed point. -/
def expGo : Nat → Nat → Nat → Nat → Nat → Nat
  | 0, _, _, _, acc => acc
  | k + 1, n, t, term, acc =>
    let term' := term * t / 2 ^ fxBits / n
    expGo k (n + 1) t term' (acc + term')

/-- 2^f × 2^256 for a fraction f given × 2^256. -/
def exp2Frac (f : Nat) : Nat :=
  let t := f * ln2Fx / 2 ^ fxBits
  expGo 64 1 t (2 ^ fxBits) (2 ^ fxBits)

/-- Terms of atanh t: t^(2k+1) / (2k+1). -/
def atanhGo : Nat → Nat → Nat → Nat → Nat → Nat
  | 0, _, _, _, acc => acc
  | k + 1, n, t2, p, acc => atanhGo k (n + 2) t2 (p * t2 / 2 ^ fxBits) (acc + p / n)

/-- log2 of a mantissa m with leading bit b, 1 ≤ m / 2^b < 2, × 2^256. -/
def log2Frac (m b : Nat) : Nat :=
  let t := (m - 2 ^ b) * 2 ^ fxBits / (m + 2 ^ b)
  2 * atanhGo 85 1 (t * t / 2 ^ fxBits) t 0 * 2 ^ fxBits / ln2Fx

/-- Terms of the sine and cosine series, signs alternating, as an integer in fixed point: term_n = term × t² / ((n+1)(n+2)). -/
def trigGo : Nat → Nat → Nat → Nat → Int → Bool → Int
  | 0, _, _, _, acc, _ => acc
  | k + 1, n, t2, term, acc, neg =>
    trigGo k (n + 2) t2 (term * t2 / 2 ^ fxBits / ((n + 1) * (n + 2))) (if neg then acc - term else acc + term) (!neg)

/-- |x| = m × 2^e reduced modulo 2π, × 2^256 (R37: over the whole finite range). -/
def reduce2Pi (m : Nat) (e : Int) : Nat :=
  -- x in units of 2^-512
  let x := m * 2 ^ (e + 512).toNat / 2 ^ (-(e + 512)).toNat
  x % twoPiFx / 2 ^ (512 - fxBits)

/-- sin or cos of |x|, × 2^256. -/
def trigFx (cos : Bool) (m : Nat) (e : Int) : Int :=
  let t := reduce2Pi m e
  let t2 := t * t / 2 ^ fxBits
  if cos then trigGo 60 0 t2 (2 ^ fxBits) 0 false else trigGo 60 1 t2 t 0 false

/-- Whether code c of binary32 lies within `tol` of the value v, both in units of 2^-u. -/
def nearOk (c : Nat) (u : Nat) (v : Int) (tol : Nat) : Bool :=
  match unpackF f32F c with
  | .fin s y f =>
    let z : Int := (y : Int) * ((2 ^ (f + u).toNat / 2 ^ (-(f + u)).toNat : Nat) : Int)
    decide (((if s then -z else z) - v).natAbs ≤ tol)
  | _ => false

/-- A binary32 result near the value v × 2^-256: the free candidate when within one ulp (`abs` = false) or within 2^-22, else the
nearest. The series' error, below 2^-240, reaches no candidate at the edge of a bound: the values are no dyadic numbers, and stand further
from the sums of two binary32 numbers that a bound compares (log 10). -/
def pickNear (cand : Nat) (v : Int) (abs : Bool) : Nat :=
  let ulp : Int := max (leadExp v.natAbs (-(fxBits : Int)) - 23) (-149)
  let tol := if abs then 2 ^ (fxBits - 22) else 2 ^ ((fxBits : Int) + ulp).toNat
  let c := cand % 2 ^ 32
  if nearOk c fxBits v tol then c else (roundI f32F 1 0 v (-(fxBits : Int)) false).bits

/-- The flags of an approximation whose code is c: INEXACT, and UNDERFLOW where it is tiny (R33). -/
def nearFl (c : Nat) : Flags := fInexact ||| flagIf (decide (c % 2 ^ 31 < 2 ^ 23)) fUnderflow

/-- FEXP2 of a binary32 code (R37): every subnormal result sets UNDERFLOW. -/
def exp2F (cand a : Nat) : FR :=
  match unpackF f32F a with
  | .nan s => nanR f32F (flagIf s fInvalid)
  | .inf s => if s then zeroR f32F false 0 else infR f32F false 0
  | .fin s m e =>
    let fx : Nat := m * 2 ^ (e + fxBits).toNat / 2 ^ (-(e + fxBits)).toNat
    let x : Int := if s then -(fx : Int) else fx
    let exact := decide (e ≥ 0) || m % 2 ^ (-e).toNat == 0
    let n : Int := x / (2 ^ fxBits : Nat)
    let f : Nat := (x % (2 ^ fxBits : Nat)).toNat
    if 150 < m.log2 + e + 1 ∧ s then zeroR f32F false (fUnderflow ||| fInexact)
    else if 150 < m.log2 + e + 1 then infR f32F false (fOverflow ||| fInexact)
    else if m = 0 then ⟨0x3f800000, 0⟩
    else if exact then
      if n < -149 then zeroR f32F false (fUnderflow ||| fInexact)
      else if 128 ≤ n then infR f32F false (fOverflow ||| fInexact)
      else ⟨(roundF f32F 1 0 false 1 n).bits, flagIf (decide (n < -126)) fUnderflow⟩
    else if n < -149 then zeroR f32F false (fUnderflow ||| fInexact)
    else if 128 ≤ n then infR f32F false (fOverflow ||| fInexact)
    else
      -- 2^(n + f): the candidate is compared after scaling by 2^-n
      let v := exp2Frac f
      let sub := decide (n < -126)
      let ulp : Int := if sub then -149 - n else -23
      let c := cand % 2 ^ 31
      let ok := match unpackF f32F c with
        | .fin _ y g =>
          let z := y * 2 ^ (g - n + fxBits).toNat / 2 ^ (-(g - n + fxBits)).toNat
          decide (((z : Int) - v).natAbs ≤ 2 ^ ((fxBits : Int) + ulp).toNat)
        | _ => false
      let y := if ok then c else (roundF f32F 1 0 false v (n - fxBits)).bits
      ⟨y, nearFl y⟩

/-- FLOG2 of a binary32 code (R37). -/
def log2F (cand a : Nat) : FR :=
  match unpackF f32F a with
  | .nan s => nanR f32F (flagIf s fInvalid)
  | .inf s => if s then nanR f32F fInvalid else infR f32F false 0
  | .fin s m e =>
    if m = 0 then infR f32F true fDivZero
    else if s then nanR f32F fInvalid
    else
      let n := leadExp m e
      if isPow2 m then ⟨(ofIntF f32F 1 0 n).bits, 0⟩
      else
        let v : Int := n * (2 ^ fxBits : Nat) + log2Frac m m.log2
        let c := pickNear cand v (n == 0 || n == -1)
        ⟨c, nearFl c⟩

/-- FSIN and FCOS of a binary32 code (R37). -/
def trigF (cos : Bool) (cand a : Nat) : FR :=
  match unpackF f32F a with
  | .nan s => nanR f32F (flagIf s fInvalid)
  | .inf _ => nanR f32F fInvalid
  | .fin s m e =>
    if m = 0 then (if cos then ⟨0x3f800000, 0⟩ else zeroR f32F s 0)
    else
      let v := trigFx cos m e
      let c := pickNear cand (if s && !cos then -v else v) true
      ⟨c, nearFl c⟩

/-- An elementary function of a 16-bit element: the binary32 result rounded to nearest-even (R37). -/
def via32 (F : Fmt) (f : Nat → FR) (a : Nat) : FR :=
  let x := match unpackF F a with
    | .nan s => if s then 0x7f800001 else f32F.qnan
    | .inf n => (infR f32F n 0).bits
    | .fin n m e => (roundF f32F 1 0 n m e).bits
  let y := f x
  let z := convF F 1 0 (unpackF f32F y.bits)
  ⟨z.bits, y.fl ||| z.fl⟩

end Sys2Proof.Machine
end

