-- ==== Sys2Proof/Machine/Flags.lean ====
section
/-! DEFINITION. Integer element operations with the flags they raise (02 R21, 05 R101-R112), on elements of width w. -/

namespace Sys2Proof.Machine
open Sys2Proof

/-- Width of an element of an integer type code (R51). -/
def intW (t : Nat) : Nat := if t ≤ 1 then 32 else if t ≤ 3 then 64 else if t ≤ 5 then 16 else 8
/-- Elements of an integer type code (R86). -/
def intN (t : Nat) : Nat := if t ≤ 3 then 1 else if t ≤ 5 then 4 else 8
/-- Whether an integer type code is signed: i types are even, n types odd (R51). -/
def intS (t : Nat) : Bool := t % 2 == 0

/-- An element read as the integer its type says. -/
def ival (w : Nat) (sg : Bool) (a : Nat) : Int := if sg then sgn w a else (a % 2 ^ w : Nat)

/-- Whether an exact result fits the type (R21). -/
def fits (w : Nat) (sg : Bool) (i : Int) : Bool :=
  if sg then decide (-(2 ^ (w - 1) : Nat) ≤ i ∧ i < (2 ^ (w - 1) : Nat)) else decide (0 ≤ i ∧ i < (2 ^ w : Nat))

/-- An exact result wrapped, INT_OVERFLOW when it does not fit (R21). -/
def wrapR (w : Nat) (sg : Bool) (i : Int) : FR := ⟨wrapI w i, flagIf (!fits w sg i) fIntOvf⟩

def addE (w : Nat) (sg : Bool) (a b : Nat) : FR := wrapR w sg (ival w sg a + ival w sg b)
def subE (w : Nat) (sg : Bool) (a b : Nat) : FR := wrapR w sg (ival w sg a - ival w sg b)
def mulE (w : Nat) (sg : Bool) (a b : Nat) : FR := wrapR w sg (ival w sg a * ival w sg b)
def mulhE (w : Nat) (sg : Bool) (a b : Nat) : FR := ⟨wrapI (2 * w) (ival w sg a * ival w sg b) / 2 ^ w, 0⟩
def andE (w : Nat) (_ : Bool) (a b : Nat) : FR := ⟨(a &&& b) % 2 ^ w, 0⟩
def orE (w : Nat) (_ : Bool) (a b : Nat) : FR := ⟨(a ||| b) % 2 ^ w, 0⟩
def xorE (w : Nat) (_ : Bool) (a b : Nat) : FR := ⟨(a ^^^ b) % 2 ^ w, 0⟩
def andnE (w : Nat) (_ : Bool) (a b : Nat) : FR := ⟨(a &&& (2 ^ w - 1 - b % 2 ^ w)) % 2 ^ w, 0⟩

/-- SHL by c (R103). -/
def shlE (w : Nat) (_ : Bool) (a c : Nat) : FR := ⟨if w ≤ c then 0 else a * 2 ^ c % 2 ^ w, 0⟩
/-- SHR by c. -/
def shrE (w : Nat) (_ : Bool) (a c : Nat) : FR := ⟨if w ≤ c then 0 else a % 2 ^ w / 2 ^ c, 0⟩
/-- SAR by c. -/
def sarE (w : Nat) (_ : Bool) (a c : Nat) : FR := ⟨wrapI w (sgn w a / (2 ^ min c w : Nat)), 0⟩
/-- ROT left by c mod w. -/
def rotE (w : Nat) (_ : Bool) (a c : Nat) : FR :=
  ⟨(a % 2 ^ w * 2 ^ (c % w)) % 2 ^ w + a % 2 ^ w / 2 ^ (w - c % w), 0⟩

def minE (w : Nat) (sg : Bool) (a b : Nat) : FR := ⟨(if ival w sg b < ival w sg a then b else a) % 2 ^ w, 0⟩
def maxE (w : Nat) (sg : Bool) (a b : Nat) : FR := ⟨(if ival w sg a < ival w sg b then b else a) % 2 ^ w, 0⟩

/-- The value saturated to the type's range, INT_OVERFLOW when it was outside (R102, R108). -/
def satR (w : Nat) (sg : Bool) (i : Int) : FR :=
  let lo : Int := if sg then -(2 ^ (w - 1) : Nat) else 0
  let hi : Int := if sg then (2 ^ (w - 1) : Nat) - 1 else (2 ^ w : Nat) - 1
  if i < lo then ⟨wrapI w lo, fIntOvf⟩ else if hi < i then ⟨wrapI w hi, fIntOvf⟩ else ⟨wrapI w i, 0⟩

def addsatE (w : Nat) (sg : Bool) (a b : Nat) : FR := satR w sg (ival w sg a + ival w sg b)

/-- Quotient truncated toward zero, with the corners of R21. -/
def divE (w : Nat) (sg : Bool) (a b : Nat) : FR :=
  if b % 2 ^ w = 0 then ⟨2 ^ w - 1, fIntDiv⟩ else wrapR w sg ((ival w sg a).tdiv (ival w sg b))
/-- Remainder with the sign of the dividend, with the corners of R21. -/
def remE (w : Nat) (sg : Bool) (a b : Nat) : FR :=
  if b % 2 ^ w = 0 then ⟨a % 2 ^ w, fIntDiv⟩ else ⟨wrapI w ((ival w sg a).tmod (ival w sg b)), 0⟩

def absdE (w : Nat) (sg : Bool) (a b : Nat) : FR := ⟨(ival w sg a - ival w sg b).natAbs % 2 ^ w, 0⟩

/-- Leading zeros of an element. -/
def clzE (w : Nat) (a : Nat) : Nat := if a % 2 ^ w = 0 then w else w - 1 - Nat.log2 (a % 2 ^ w)
/-- Trailing zeros, counted from bit i. -/
def ctzGo : Nat → Nat → Nat
  | 0, _ => 0
  | k + 1, a => if a % 2 = 1 then 0 else 1 + ctzGo k (a / 2)
/-- One bits among the low k. -/
def popGo : Nat → Nat → Nat
  | 0, _ => 0
  | k + 1, a => a % 2 + popGo k (a / 2)
/-- The low k bits reversed. -/
def revGo : Nat → Nat → Nat
  | 0, _ => 0
  | k + 1, a => a % 2 * 2 ^ k + revGo k (a / 2)

def absE (w : Nat) (sg : Bool) (a : Nat) : FR := if sg then wrapR w true (ival w true a).natAbs else ⟨a % 2 ^ w, 0⟩
def negE (w : Nat) (sg : Bool) (a : Nat) : FR := wrapR w sg (-(ival w sg a))

/-- BFX (R106): LEN bits from POS of the operand extended without limit, extended to w bits. -/
def bfxE (w : Nat) (sg : Bool) (a desc : Nat) : FR :=
  let len := min (fld desc 14 8) w
  let pos := fld desc 5 0
  let x : Int := ival w sg a / (2 ^ pos : Nat)
  if len = 0 then ⟨0, 0⟩ else ⟨if sg then wrapI w (sgn len (wrapI len x)) else wrapI len x, 0⟩

/-- BFI (R106): the low LEN bits of a at POS of d, cut at w. -/
def bfiE (w : Nat) (d a desc : Nat) : FR :=
  let pos := fld desc 5 0
  let n := min (min (fld desc 14 8) w) (w - pos)
  ⟨if w ≤ pos then d % 2 ^ w
   else d % 2 ^ w - d / 2 ^ pos % 2 ^ n * 2 ^ pos + a % 2 ^ n * 2 ^ pos, 0⟩

/-- Bytes of an element reversed (SWAPB). -/
def swapGo : Nat → Nat → Nat
  | 0, _ => 0
  | k + 1, a => a % 256 * 256 ^ k + swapGo k (a / 256)

/-- The conditions of ICMP (R53, R112). -/
def icmpE (w : Nat) (sg : Bool) (k a b : Nat) : Bool :=
  let x := ival w sg a
  let y := ival w sg b
  match k with
  | 0 => decide (x = y)
  | 1 => decide (x ≠ y)
  | 2 => decide (x < y)
  | 3 => decide (x ≤ y)
  | 4 => decide (y < x)
  | _ => decide (y ≤ x)

/-- INC: 0 if w ≥ b unsigned, else w + 1 (R204). -/
def incE (w a b : Nat) : Nat := if b % 2 ^ w ≤ a % 2 ^ w then 0 else (a + 1) % 2 ^ w
/-- DEC: b if w = 0 or w > b unsigned, else w - 1 (R204). -/
def decE (w a b : Nat) : Nat := if a % 2 ^ w = 0 ∨ b % 2 ^ w < a % 2 ^ w then b % 2 ^ w else a % 2 ^ w - 1

end Sys2Proof.Machine
end

