-- ==== Sys2Proof/Machine/State.lean ====
section
/-! DEFINITION. The state of one DZ7 package as plain data: every piece of state the spec names (INVENTORY.md, ## State), the state
right after reset, and the reasons a step can stop. -/

namespace Sys2Proof.Machine
open Sys2Proof

/-- Why the machine stops with a fault: for no reason. Every step of this machine has a next state. -/
inductive Fault where
  deriving DecidableEq, Repr

/-- Why an instruction is refused. -/
inductive Refusal where
  /-- Raised by an arm of `exec` that has no meaning yet. Safe. -/
  | notModelled (mnemonic : String)
  deriving DecidableEq, Repr

/-- A sparse table: pairs of a key and an entry, keys strictly rising. -/
abbrev Tab (α : Type) := List (Nat × α)

/-- The entry of a key. -/
def Tab.get? {α : Type} : Tab α → Nat → Option α
  | [], _ => none
  | (k, v) :: t, n => if n = k then some v else if n < k then none else Tab.get? t n

/-- The table with an entry set, keys kept rising. -/
def Tab.set {α : Type} : Tab α → Nat → α → Tab α
  | [], n, x => [(n, x)]
  | (k, v) :: t, n, x => if n = k then (n, x) :: t else if n < k then (n, x) :: (k, v) :: t else (k, v) :: Tab.set t n x

/-- The table without a key. -/
def Tab.del {α : Type} : Tab α → Nat → Tab α
  | [], _ => []
  | (k, v) :: t, n => if n = k then t else if n < k then (k, v) :: t else (k, v) :: Tab.del t n

/-- What a trap brings to its frame (R373, R374). -/
structure TrapInfo where
  cause : Cause
  pc : BitVec 56
  addr : Word
  info : Word
  word : Nat
  deriving DecidableEq, Repr

/-- A fault record (R381) without its lap bit. -/
structure FRec where
  kind : Nat
  cause : Cause
  core : Nat
  slot : Nat
  kern : Nat
  tkind : Nat
  ring : Nat
  number : Nat
  lmask : BitVec 32
  addr : Word
  pc : Word
  info : Word
  page : Word
  aux0 : Word
  aux1 : Word
  deriving DecidableEq, Repr

/-- A thread's state in its slot (R66). IN_FLIGHT and PARKED_OVERFLOW threads are messages and records, not slots. -/
inductive TSt where
  | created | ready | blocked | trapped | retired
  deriving DecidableEq, Repr

/-- What a BLOCKED thread waits for (R67). -/
inductive Wait where
  | none | window | probe (chip key : Nat) (again : Bool) | load | trap | depart | fe | sleep | park (j : Nat)
  /-- A line of code or of launch constants, by the key of `Thr.got`. -/
  | line (k : Nat)
  | bar (g : Nat) | tempo | mwait (thru : Option Nat) (sb : Nat) | fence (kind scope : Nat) | pages
  | watch | wopen (g : Nat) | wdet | send | recvw (h : Nat) | cwait | qpop (q : Nat)
  | sealRel | halt | sysp | dirTrapf (pc : BitVec 56) | exitDrain (pc : BitVec 56) | exitDir (pc : BitVec 56) | lockRead
  deriving DecidableEq, Repr

/-- A trap frame (R373). -/
structure Frame where
  pc : BitVec 56
  word : Nat
  cause : Cause
  addr : Word
  info : Word
  deriving DecidableEq, Repr

/-- A lookahead lock of one word in one lane (R56): `regs` bit n for g n, bit 32 for FLAGS; `left` words of the window to come; `active`
whether the lane was active; `due` the delivery cycle of a fixed latency; `val` and `fl` what delivery writes. -/
structure Lock where
  id : Nat
  d : Nat
  regs : Nat
  left : Nat
  active : Bool
  due : Option Nat
  val : Option Word
  fl : BitVec 7
  deriving DecidableEq, Repr

/-- A thread's identity in the deferred directory (R244). -/
structure TId where
  kern : Nat
  kind : Nat
  num : Nat
  deriving DecidableEq, Repr

/-- What a memory request asks its home for. -/
inductive MOp where
  /-- A read of `size` bytes; `sx` sign-extends. -/
  | load (sx : Bool)
  | store
  /-- A read-modify-write (R204): operation, width, whether the old value returns, combined group. -/
  | atom (op : Nat) (w64 ret group : Bool)
  | watch
  deriving DecidableEq, Repr

/-- One lane of a memory request: the source slot, its transaction, its identity, and its own address, size and operands. -/
structure MLane where
  tk : Nat
  id : Nat
  tid : TId
  pcw : Nat
  ea : Nat
  size : Nat
  data : Nat
  cmp : Nat
  mode : Nat
  deriving DecidableEq, Repr

/-- A request to a home (R185, R192, R207): its source core and chip, its lanes in ascending order, the tree sum of a combining fadd
group with the tree's flags (R208). -/
structure MemReq where
  op : MOp
  ctx : Nat
  home : Nat
  chip : Nat
  core : Nat
  lanes : List MLane
  sum : Nat
  fl : BitVec 7
  deriving DecidableEq, Repr

/-- The kinds of outstanding accesses. -/
inductive AKind where
  | load | store | atom | watch | spawn | flush | ldw | stw | fe | seal | wb | bank
  deriving DecidableEq, Repr

/-- An access of a thread that has not completed (R71, R194-R197): its line, page kind (0 SO, 1 RC, 2 UO, 3 none), annotation, what it is
held behind, the outgoing message it is part of, the word's chain head, destination, address, and where it is held at a page. -/
structure Acc where
  id : Nat
  kind : AKind
  line : Option Nat
  pkind : Nat
  acq : Bool
  rel : Bool
  scope : Nat
  held : List Nat
  out : Nat
  pc : BitVec 56
  d : Nat
  ea : Nat
  heldAt : Option Nat
  recd : Bool
  deriving DecidableEq, Repr

/-- The load or MIGR with which a thread departs (R70-R72). -/
structure Mig where
  ea : Nat
  sz : Nat
  sx : Bool
  d : Nat
  mg : Bool
  acq : Bool
  scope : Nat
  pc : BitVec 56
  deriving DecidableEq, Repr

/-- A thread's TEMPO (R353): whether it takes the OR and into which register, its own value, and whether its arrival has been sent. -/
structure TWait where
  orr : Bool
  g : Nat
  v : Word
  sent : Bool
  deriving DecidableEq, Repr

/-- A CPOLL or CWAIT in one lane (R296): destination, the ring's handle, the cursor, the time limit in cycles, and when its first read
returned. -/
structure CWait where
  wait : Bool
  g : Nat
  handle : Word
  cur : Word
  limit : Nat
  start : Option Nat
  id : Nat
  deriving DecidableEq, Repr

/-- A fault of a unit or a node: cause, address, information (R293, R328). -/
structure NFault where
  cause : Nat
  addr : Word
  info : Word
  deriving DecidableEq, Repr

/-- A word that a line fill brought, or why it is refused (R58). -/
inductive Got where
  | word (w : Nat)
  | fault (c : Cause) (info : Nat)
  deriving DecidableEq, Repr

/-- One thread in its slot (R65-R69, R98, R373-R375). -/
structure Thr where
  st : TSt
  wait : Wait
  ctx : Nat
  fw : Bool
  g : Vector Word 32
  pc : BitVec 56
  pdepth : Nat
  pent : BitVec 16
  flags : BitVec 7
  trapen : BitVec 7
  rmode : BitVec 3
  srng : Word
  carry : BitVec 32
  view : BitVec 3
  handler : BitVec 56
  frames : List Frame
  kind : BitVec 2
  number : BitVec 32
  qid : BitVec 6
  ktab : BitVec 12
  pkt : BitVec 32
  locks : List Lock
  sleepAt : Option Nat
  readyAt : Nat
  noIssue : Nat
  /-- Traps waiting for the next chain boundary, oldest first (R374, R377). -/
  ptrap : List TrapInfo
  pend : List Acc
  /-- Homes that have posted host-tier stores of the thread since its last SYSTEM release (R197): chip x 2^16 + core. -/
  posted : List Nat
  mig : Option Mig
  fresh : Option Nat
  /-- What line fills answered for the chain that the thread issues next: twice an address for a word of code, one more for a launch constant. -/
  got : List (Nat × Got)
  /-- The TEMPO the thread waits in (R353). -/
  tmp : Option TWait
  /-- The CPOLL or CWAIT the thread waits in (R296). -/
  cq : Option CWait
  /-- What a TRAPPED thread escalated (R379), and whether TRET retires it (R385). -/
  esc : Option NFault
  dying : Bool
  deriving DecidableEq, Repr

/-- A thread whose registers are all zero but for those the spec gives at creation (R25: MODE 1). -/
def Thr.blank : Thr :=
  { st := .created, wait := .none, ctx := 0, fw := false, g := Vector.replicate 32 0, pc := 0, pdepth := 0, pent := 0, flags := 0
    trapen := 0, rmode := 1, srng := 1, carry := 0, view := 0, handler := 0, frames := [], kind := 0, number := 0, qid := 0
    ktab := 0, pkt := 0, locks := [], sleepAt := none, readyAt := 0, noIssue := 0, ptrap := [], pend := [], posted := []
    mig := none, fresh := none, got := [], tmp := none, cq := none, esc := none, dying := false }

/-- A crew's state (R137). -/
inductive CSt where
  | placed | running | suspended | draining | detaching | retired
  deriving DecidableEq, Repr

/-- A rejoin register (R146). -/
structure Rejoin where
  parked : BitVec 32
  enrolled : BitVec 32
  deriving DecidableEq, Repr

/-- A scratchpad range bound to global memory (R178): share offset, length, address, write-back, and the words written. -/
structure Bind where
  spoff : Nat
  blen : Nat
  va : Nat
  wb : Bool
  marks : List Nat
  deriving DecidableEq, Repr

/-- The states of a stream register and of a ring slot (R312). -/
inductive QSt where
  | unbound | bound | ended | failed
  deriving DecidableEq, Repr
/-- A ring slot's state (R312). -/
inductive SlotSt where
  | empty | filling | full | popped
  deriving DecidableEq, Repr

/-- A stream register (R312): the engine job, tile size, ring base, slots, tiles in all, the next tile to pop, and the popped slots, oldest
first. -/
structure QReg where
  st : QSt
  job : Nat
  tileb : Nat
  base : Nat
  slots : List SlotSt
  total : Nat
  next : Nat
  popped : List Nat
  deriving DecidableEq, Repr

/-- A crew's arrival state in one of its groups (R346). -/
inductive BarSt where
  | none | gathering | arrived | done
  deriving DecidableEq, Repr

/-- A lane that joins a gathering: BAR (blocks) or BARA, and the scope of its M flag. -/
structure Join where
  lane : Nat
  bar : Bool
  scope : Option Nat
  deriving DecidableEq, Repr

/-- A crew's membership of a group (R332, R346): the entry's fields, the chip of its agent, the arrival state, the lanes that joined, the
accesses their releases wait for, and the lanes that join the next gathering. -/
structure Memb where
  g : Nat
  m : Nat
  nmem : Nat
  gang : Bool
  win : Bool
  chip : Nat
  st : BarSt
  joined : List Join
  waitw : List (Nat × Option Nat)
  need : List (Nat × Nat)
  queue : List Join
  deriving DecidableEq, Repr

/-- A lane in a crew's TEMPO (R353): whether it takes the OR, its register, and its value. -/
structure TLane where
  lane : Nat
  orr : Bool
  g : Nat
  v : Word
  deriving DecidableEq, Repr

/-- A crew's TEMPO gathering (R353). -/
structure TGath where
  joined : List TLane
  sent : Bool
  need : List (Nat × Nat)
  queue : List TLane
  deriving DecidableEq, Repr

/-- A crew's attachment to a window (R335). -/
inductive Att where
  | none | opening | attached | departed
  deriving DecidableEq, Repr

/-- A SEND of a crew (R416): where it goes, its number, its lanes, G, the frames' values for a trap, whether it has left, and its payload. -/
structure SendW where
  id : Nat
  dchip : Nat
  dcore : Nat
  dctx : Nat
  dirx : Nat
  tag : Nat
  len : Nat
  lanes : List Nat
  g : Nat
  pc : BitVec 56
  word : Nat
  blk : Word
  need : List (Nat × Nat)
  sent : Bool
  data : Nat
  deriving DecidableEq, Repr

/-- A crew (R134-R139). -/
structure Crew where
  st : CSt
  ctx : Nat
  index : BitVec 32
  ktab : BitVec 12
  s : Vector Word 160
  k : Vector (BitVec 32) 8
  j : Vector Rejoin 8
  live : BitVec 32
  empty : Bool
  spBase : Nat
  spSize : Nat
  pvBase : Nat
  pvSize : Nat
  bind : List Bind
  q : List QReg
  /-- QPOPs that wait, oldest first: stream register, destination, lanes (R313). -/
  qpops : List (Nat × Nat × List Nat)
  memb : List Memb
  tempo : TGath
  /-- The attachment, the group of the window, the lanes waiting in WOPEN with their registers, and those waiting in WDET. -/
  att : Att
  winG : Nat
  wopen : List (Nat × Nat)
  wdet : List Nat
  /-- The window's members as the core knows them: member index, chip, core, crew key, share size. -/
  wmem : List (Nat × Nat × Nat × Nat × Nat)
  sends : List SendW
  hseq : BitVec 32
  eseq : BitVec 32
  mseq : BitVec 32
  mstat : BitVec 16
  /-- The accumulator tiles of the cluster that the crew holds, in order (R262). -/
  tiles : List Nat
  deriving DecidableEq, Repr

/-- A stream register at placement. -/
def QReg.blank : QReg := { st := .unbound, job := 0, tileb := 0, base := 0, slots := [], total := 0, next := 0, popped := [] }
/-- No TEMPO gathering. -/
def TGath.blank : TGath := { joined := [], sent := false, need := [], queue := [] }

/-- A crew at placement with nothing but its zeroed registers (R134). -/
def Crew.blank : Crew :=
  { st := .placed, ctx := 0, index := 0, ktab := 0, s := Vector.replicate 160 0, k := Vector.replicate 8 0
    j := Vector.replicate 8 ⟨0, 0⟩, live := 0xffffffff, empty := false, spBase := 0, spSize := 0, pvBase := 0, pvSize := 0, bind := []
    q := List.replicate 8 QReg.blank, qpops := [], memb := [], tempo := TGath.blank, att := .none, winG := 0, wopen := [], wdet := [], wmem := []
    sends := [], hseq := 0, eseq := 0, mseq := 0, mstat := 0, tiles := [] }

/-- An entry of a permission cache (R240): page key with the home's chip, and what the home granted. -/
structure PermE where
  ctx : Nat
  chip : Nat
  key : Nat
  rd : Bool
  wr : Bool
  ex : Bool
  ord : Nat
  s : Bool
  deriving DecidableEq, Repr

/-- An FE access in its bank's waiting list (R202): 0 LDFE, 1 STEF, 2 LDFF. -/
structure FeW where
  tk : Nat
  id : Nat
  ck : Nat
  key : Nat
  op : Nat
  data : Nat
  joined : Nat
  deriving DecidableEq, Repr

/-- What the background engine or a castling does at a core (R362-R365): cycle at which it ends, and the context it concerns. -/
inductive Resid where
  | idle
  | castling (due : Nat)
  | filling (ctx due : Nat)
  | spilling (ctx due : Nat)
  deriving DecidableEq, Repr

/-- The states of a receive entry (R413). -/
inductive RSt where
  | free | posted | filling | arrived
  deriving DecidableEq, Repr

/-- A message as it arrives (R416): source, tag, length, payload and sender's scope, with the sender's waiting SEND. -/
structure Msg where
  schip : Nat
  score : Nat
  sctx : Nat
  ctx : Nat
  tag : Nat
  len : Nat
  data : Nat
  id : Nat
  ck : Nat
  deriving DecidableEq, Repr

/-- A receive entry (R413, R417): its number, crew, criteria, LEN, BUF, HSEQ, posting order, the message, its words not yet written, and the
lanes waiting in RECVW with G and SB. -/
structure REnt where
  n : Nat
  st : RSt
  ctx : Nat
  ck : Nat
  crit : Word
  len : Nat
  buf : Nat
  hseq : Nat
  order : Nat
  msg : Option Msg
  left : List Nat
  wait : List (Nat × Nat × Nat)
  deriving DecidableEq, Repr

/-- A core's own registers (R362-R365, R423). -/
structure CoreSt where
  clock : Nat
  active : Nat
  bank : Vector (Option Nat) 2
  lBusy : Nat
  perm : List PermE
  logpend : List (Nat × Nat × Bool)
  atomPtr : Bool
  resid : Resid
  /-- When the ACTIVE context became ACTIVE, and when each context was last ACTIVE here. -/
  since : Nat
  lastAct : List (Nat × Nat)
  /-- Contexts CTXSW asked for, and asked to spill (R389), with the waiting firmware thread and its register. -/
  want : List (Nat × Nat)
  spillW : List (Nat × Nat)
  gang : Option (Nat × Nat)
  /-- Cycles of a band change's pause that are left (R426); whether the core is retired, and whether its channel is (R437). -/
  pause : Nat
  retired : Bool
  noHome : Bool
  /-- The roaming blocks a distributor has marked for a placement (R326). -/
  marked : List Nat
  /-- The receive list (R413). -/
  recv : List REnt
  /-- Contexts for which a distributor keeps a placement here although they hold no bank (log 13), gangs whose return a coordinator wants here,
  and the context that this core has asked its coordinator to switch out (R367). -/
  asks : List Nat
  gwant : List (Nat × Nat)
  gout : Option Nat
  deriving DecidableEq, Repr

/-- A core after reset: clock 0, no context in either bank. -/
def CoreSt.blank : CoreSt :=
  { clock := 0, active := 0, bank := Vector.replicate 2 none, lBusy := 0, perm := [], logpend := [], atomPtr := false
    resid := .idle, since := 0, lastAct := [], want := [], spillW := [], gang := none, pause := 0, retired := false, noHome := false
    marked := [], recv := [], asks := [], gwant := [], gout := none }

/-- One issuing lane: its thread and its lane position (R80). -/
structure LaneRef where
  tk : Nat
  pos : Nat
  deriving DecidableEq, Repr

/-- The prefix in force for the next word of the chain (R54, R55). -/
inductive Pfx where
  | none
  | arith (f : PfxArithF)
  | mem (f : PfxMemF)
  deriving DecidableEq, Repr

/-- A permission probe (R184): context, page key, the home's core and chip, the chip and core that ask, the thread that waits, and whether the
cached entry refused it (R241). -/
structure Probe where
  ctx : Nat
  key : Nat
  home : Nat
  chip : Nat
  schip : Nat
  src : Nat
  tk : Nat
  again : Bool
  deriving DecidableEq, Repr

/-- A line fill (R253): the home core that it goes to, the asking core, the cache that allocates the line (a core's L1, or 1000 + a cluster's L2 slice), how often the die's
replicas of other homes had been dropped (R197), whether it fetches code, whether the word requires a sealed page, the word's extension, and the
lane it serves; a fill that serves no lane has a lane of thread key 2^30. -/
structure Fill where
  ctx : Nat
  home : Nat
  chip : Nat
  core : Nat
  holder : Option Nat
  epoch : Nat
  code : Bool
  strict : Bool
  sx : Bool
  lane : MLane
  deriving DecidableEq, Repr

/-- How a lane left the chain being issued: by a trap, or to wait and issue the chain again. -/
inductive Drop where
  | trap (i : TrapInfo)
  | hold (w : Wait)
  | probe (p : Probe)
  | line (k chip : Nat) (f : Fill)
  deriving DecidableEq, Repr

/-- The chain being issued (R45, R80, R142): the model's own register. `pre` holds the thread and crew tables that the words read. -/
structure Issue where
  core : Nat
  ctx : Nat
  crew : Option Nat
  lanes : List LaneRef
  pc : BitVec 56
  wpc : BitVec 56
  next : BitVec 56
  widx : Nat
  pre : Option (Tab Thr × Tab Crew)
  /-- Scratchpad words that the rank has reached, and its loads from the banks (R174). -/
  banks : List Nat
  loads : List (Nat × Nat)
  /-- The generators of the threads for which words of the chain have drawn (R132). -/
  draws : List (Nat × Word)
  pfx : Pfx
  drops : List (LaneRef × Drop)
  deriving DecidableEq, Repr

/-- One entry of a placement table (R165). -/
structure PEnt where
  v : Bool
  base : Nat
  len : Nat
  chip0 : Nat
  nchip : Nat
  count : Nat
  glog : Nat
  tier : Nat
  coreset : Nat
  deriving DecidableEq, Repr

/-- The states of a home page entry (R238). -/
inductive PgSt where
  | unmapped | mapped | sealed | unsealing | moving | rehoming | retired
  deriving DecidableEq, Repr

/-- A home page entry (R238). -/
structure Page where
  st : PgSt
  s : Bool
  ord : Nat
  rd : Bool
  wr : Bool
  ex : Bool
  tier : Nat
  ntier : Nat
  frame : Nat
  tokens : Nat
  nframe : Nat
  moved : Nat
  deriving DecidableEq, Repr

/-- An entry of a context's kernel table (R319). -/
structure KEnt where
  code : BitVec 56
  trapv : BitVec 56
  round : BitVec 3
  trapen : BitVec 7
  carry : BitVec 32
  nscal : Nat
  lconst : Nat
  seed : Word
  roam : Bool
  fuse : Bool
  chip : Nat
  qid : Nat
  pkt : Nat
  /-- The group entries that the kernel holds (R331), and the other chips that keep a copy of this entry (R319). -/
  groups : List Nat := []
  chips : List Nat := []
  deriving DecidableEq, Repr

/-- The states of a context (R361). -/
inductive CtxSt where
  | free | created | live | stopped | teardown
  deriving DecidableEq, Repr

/-- A context (R360). -/
structure Ctx where
  st : CtxSt
  snap : Bool
  part : Nat
  resv : Nat
  fqbase : Nat
  fqlog2 : Nat
  ptab : List PEnt
  /-- The table before the last change, the cores that still hold it (R256), and the other chips of the context with such cores. -/
  prev : List PEnt
  late : List Nat
  lateChips : List Nat
  deriving DecidableEq, Repr

/-- A FREE context: every header field 0. -/
def Ctx.blank : Ctx := { st := .free, snap := false, part := 0, resv := 0, fqbase := 0, fqlog2 := 0, ptab := [], prev := [], late := [], lateChips := [] }

/-- A home's answer to one lane. -/
inductive ROut where
  | data (v : Word) (fl : BitVec 7)
  | ack
  | refused (c : Cause) (info : Nat)
  | heldAt (key : Nat)
  | woken
  /-- A line fill that found its page not sealed (R253). -/
  | unsealed (v : Word)
  deriving DecidableEq, Repr

/-- One 64-byte half of a replica line: its page, the home's chip, and whether a copy token came with it (R253). -/
structure RHalf where
  key : Nat
  chip : Nat
  token : Bool
  deriving DecidableEq, Repr

/-- A replica line (R171): its holder and way there, its 128 bytes, and the halves that are filled: with GLOG 6 each has its own home (R192). -/
structure Rep where
  ctx : Nat
  line : Nat
  holder : Nat
  way : Nat
  data : Nat
  lo : Option RHalf
  hi : Option RHalf
  deriving DecidableEq, Repr

/-- A side-log entry (R243). -/
structure SEnt where
  ea : Nat
  red : Bool
  size : Nat
  op : Nat
  data : Nat
  tid : TId
  mode : Nat
  pcw : Nat
  deriving DecidableEq, Repr

/-- A deferred record (R247, R378): the store's address and PCW, the underlying cause and the information value. -/
structure DRec where
  tid : TId
  addr : Nat
  pcw : Nat
  cause : Cause
  info : Nat
  deriving DecidableEq, Repr

/-- A recorded watch (R218): where its lane waits. -/
structure Watch where
  ctx : Nat
  chip : Nat
  core : Nat
  lane : MLane
  deriving DecidableEq, Repr

/-- A confirmation the directory owes: where the store's acknowledgement goes (R244). -/
structure Confirm where
  chip : Nat
  core : Nat
  tk : Nat
  id : Nat
  deriving DecidableEq, Repr

/-- A query of the directory (R245): the identity, and where its thread waits; an EXIT waits for its count to be 0. -/
structure DirQ where
  tid : TId
  tk : Nat
  chip : Nat
  core : Nat
  exit : Bool
  deriving DecidableEq, Repr

/-- The deferred directory of a context (R244, R245): unresolved entries a thread, deferred records oldest first, acknowledgements of the
LOGPEND set round still missing, confirmations held for it, waiting queries, the notice sequence number and whether LOGPEND is set. -/
structure Dir where
  counts : List (TId × Nat)
  recs : List DRec
  round : Nat
  confirms : List Confirm
  waiting : List DirQ
  seq : Nat
  set : Bool
  deriving DecidableEq, Repr

/-- What a side-log entry or a refused store tells the directory: one more entry to confirm, a deferred record in its place, one entry
replayed, or an entry turned into a record. -/
inductive DirMsg where
  | entry (t : TId) (ks : List Confirm)
  | refused (r : DRec) (ks : List Confirm)
  | replayed (t : TId)
  | failed (r : DRec)
  deriving DecidableEq, Repr

/-- An event of a context's event log at a core (R366): a watch, message or load wake of a slot, a barrier release, a tempo release, a TRET, a message's answer. -/
inductive LogE where
  | wake (slot : Nat) (w : Wait)
  | answer (slot id : Nat) (o : ROut)
  | bar (block g : Nat)
  | tempo (block : Option Nat) (slot : Nat) (v : Word)
  | tret (slot act : Nat) (pc : Word)
  /-- The answer to a SEND (R416): its number and the MREPLY's OP. -/
  | mreply (id op : Nat)
  /-- A permission entry, and a word of code or a launch constant, for which a slot waited. -/
  | probed (slot : Nat) (w : Wait) (mark : Nat)
  | line (slot k : Nat) (g : Got)
  deriving DecidableEq, Repr

/-- A knight (R72). The frame has no field for the acquire and the chain head that `mig` names, nor for `posted`: what R186, R197 and R234 make the thread
keep goes with it (log 55). -/
structure Knight where
  ctx : Nat
  kern : Nat
  mig : Mig
  round : BitVec 3
  pw : Bool
  number : BitVec 32
  carry : BitVec 32
  pcw : Nat
  pdepth : Nat
  pent : BitVec 16
  flags : BitVec 7
  trapen : BitVec 7
  srng : Word
  regs : List (Nat × Word)
  posted : List Nat
  deriving DecidableEq, Repr

/-- A creation record (R394): a pawn's, or a launched thread's; with the issuer that a pawn's home acknowledges (R352). -/
structure Spawn where
  ctx : Nat
  kern : Nat
  ln : Bool
  g0 : Word
  g1 : Word
  pcw : Nat
  srng : Word
  number : BitVec 32
  addr : Nat
  chip : Nat
  core : Nat
  tid : TId
  deriving DecidableEq, Repr

/-- A parked record (R75, R355): a knight, a creation record, or a thread waiting at TEMPO, with the OR value of its release. -/
inductive ORec where
  | knight (k : Knight)
  | spawn (c : Spawn)
  | tempo (t : Thr) (done : Option Word)
  deriving DecidableEq, Repr

/-- A page message of SEAL, UNSEAL (R250, R251): the page, the lane's slot and word, the page's lowest address in the range. -/
structure SealQ where
  ctx : Nat
  key : Nat
  home : Nat
  hchip : Nat
  un : Bool
  tk : Nat
  id : Nat
  addr : Nat
  chip : Nat
  core : Nat
  deriving DecidableEq, Repr

/-- A participant of a tempo (R352): a crew, or a thread by identity with the slot it arrived from. -/
inductive TPart where
  | crew (ck : Nat)
  | thread (t : TId) (tk : Nat)
  deriving DecidableEq, Repr

/-- A kernel descriptor's entry for a bound range (R315). -/
structure KBind where
  fill : Bool
  wb : Bool
  blen : Nat
  spoff : Nat
  va : Nat
  stride : Nat
  deriving DecidableEq, Repr

/-- A kernel descriptor (R315) with the packet's launch fields (R287). -/
structure KDesc where
  code : Nat
  roam : Bool
  fuse : Bool
  acct : Nat
  nscal : Nat
  spad : Nat
  priv : Nat
  carry : BitVec 32
  trapv : BitVec 56
  anchor : Option Nat
  astep : Nat
  round : BitVec 3
  trapen : BitVec 7
  binds : List KBind
  foot : List (Nat × Nat × Nat)
  groups : List Nat
  /-- The records of the groups' member lists: group, member, chip, crew index (R332). -/
  mems : List (Nat × Nat × Nat × Nat)
  gx : Nat
  gy : Nat
  gz : Nat
  n : Nat
  seeds : Nat
  lconst : Nat
  seed : Word
  deriving DecidableEq, Repr

/-- The states of a node, a kernel's among them (R290, R317). -/
inductive NSt where
  | waiting | ready | entering | launching | running | complete
  deriving DecidableEq, Repr

/-- A node of a context's task graph (R286-R291, R317-R328): its packet, footprint (mode, base, length), dependences by packet index, its
kernel, unit counts, the four shares of its indices, the thieves' refusals and requests in flight, and its first fault. -/
structure Node where
  ctx : Nat
  qid : Nat
  idx : Nat
  typ : Nat
  unchk : Bool
  after : Bool
  tag : Nat
  cr : Bool
  ring : Nat
  jdesc : Nat
  foot : List (Nat × Nat × Nat)
  deps : List Nat
  st : NSt
  die : Nat
  kern : Nat
  kd : Option KDesc
  shares : List (List Nat)
  gangIdx : List Nat
  refused : List Nat
  steals : List (Nat × Nat)
  acks : Nat
  created : Nat
  units : Nat
  count : Nat
  failed : List Nat
  fault : Option NFault
  /-- The STATUS of its record (R293). -/
  status : Nat
  readyAt : Nat
  deriving DecidableEq, Repr

/-- The states of a queue (R283). -/
inductive QuSt where
  | active | paused | error | draining | destroyed
  deriving DecidableEq, Repr

/-- A queue (R281-R286): its descriptor's address, the copied fields, the distributor's indices, whether it watches a slot's word, and the
KERN a read of it is held on. -/
structure Queue where
  desc : Nat
  st : QuSt
  ring : Nat
  die : Nat
  log2n : Nat
  widx : Nat
  ridx : Nat
  watching : Bool
  held : Bool
  deriving DecidableEq, Repr

/-- A completion record on its way (R293): its ring and words. -/
structure CRec where
  ctx : Nat
  ring : Nat
  w0 : Nat
  w1 : Nat
  w2 : Nat
  w3 : Nat
  /-- The chip, core and crew fields of the fault record that takes its place (R381, R382). -/
  core : Nat
  kern : Nat
  tkind : Nat
  num : Nat
  toFq : Bool
  /-- 0 before its place is known, 1 with words 1 to 3 written at cursor `cur`, 2 with word 0 written. -/
  stage : Nat
  cur : Nat
  deriving DecidableEq, Repr

/-- A POST in progress (R294). -/
structure PostJ where
  id : Nat
  tk : Nat
  ctx : Nat
  lanes : List Nat
  qd : Nat
  words : List Nat
  claim : Nat
  need : List (Nat × Nat)
  deriving DecidableEq, Repr

/-- A job's walk dimension (R299). -/
structure JDim where
  mul : Int
  ax : Nat
  count : Nat
  extent : Nat
  start : Int
  sstride : Int
  dstride : Int
  deriving DecidableEq, Repr

/-- A job descriptor (R298). -/
structure JDesc where
  srcb : Nat
  dstb : Nat
  tag : Nat
  ring : Nat
  cr : Bool
  unchk : Bool
  fill : Nat
  dspace : Nat
  sspace : Nat
  esz : Nat
  fillv : Nat
  bv : Bool
  bar : Nat
  cmask : Nat
  grp : Nat
  nt : Nat
  tileb : Nat
  dims : List JDim
  deriving DecidableEq, Repr

/-- The states of an engine job (R305, R309). -/
inductive JSt where
  | waiting | accepted | running | ending | done
  deriving DecidableEq, Repr

/-- A destination granule that an engine has read for and not yet written: its number, the receiving crew, the eight bytes, which of them are
written, and how many bytes its elements count (R302, R306). -/
structure GBuf where
  g : Nat
  ck : Nat
  data : Nat
  mask : Nat
  cnt : Nat
  deriving DecidableEq, Repr

/-- An engine job (R297-R314): 1 copy, 2 layout, 3 multicast; its engine (a core, or 1000 + a cluster); the crew that issued it with its share's
base and size, or the node; descriptor location, added bases and stream; its ticket lanes; footprint; receivers (a crew here, or 2^50 + chip × 2^16 + member on another
chip); the chips whose members are still asked for; the granules read for, those not yet written; the tiles started; and how it ends (0 done, 1 faulted, 2 malformed, 3 cancelled). -/
structure Job where
  id : Nat
  kind : Nat
  eng : Nat
  ctx : Nat
  crew : Option Nat
  spb : Nat
  sps : Nat
  kern : Nat
  index : Nat
  qid : Nat
  idx : Nat
  loc : Nat
  addS : Nat
  addD : Nat
  stream : Option Nat
  lanes : List Nat
  need : List (Nat × Nat)
  seq : Nat
  entry : Nat
  st : JSt
  desc : Option JDesc
  foot : List (Nat × Nat × Nat × Nat)
  recvs : List Nat
  chips : List Nat
  skipped : Nat
  begun : List Nat
  buf : List GBuf
  bytes : Nat
  tile : Nat
  fault : Option NFault
  how : Nat
  deriving DecidableEq, Repr

/-- The states of a posted matrix operation (R263). -/
inductive MSt where
  | waiting | accepted | granted
  deriving DecidableEq, Repr

/-- A posted matrix operation (R263-R273): its word (0 MMA, 1 causal, 2 tree, 3 ACCZ, 4 ACCRD, 5 ACCWR, 6 WBLD, 7 WBDROP, 8 TMSET), tree
register, crew, block, number, entry, when issued and accepted, how often younger entries passed it, when it ends, the accesses a WBLD waits
for; what a granted operation has still to read (share words, or addresses of a weight image), what it has read, what it has still to write
(share word, bits, value); whether it has computed or a WBLD has its header; and the status it completes with. -/
structure MxOp where
  id : Nat
  op : Nat
  treg : Nat
  ck : Nat
  ctx : Nat
  g : Nat
  blk : List Nat
  seq : Nat
  entry : Nat
  st : MSt
  issued : Nat
  order : Nat
  passed : Nat
  due : Nat
  need : List (Nat × Nat)
  reads : List Nat
  got : Tab Nat
  writes : List (Nat × Nat × Nat)
  ran : Bool
  cond : BitVec 16
  deriving DecidableEq, Repr

/-- A weight slot (R277): EMPTY, LOADING, or VALID; the head slot of the image it belongs to. -/
inductive SlotW where
  | empty
  | loading (head : Nat)
  | valid (head : Nat)
  deriving DecidableEq, Repr

/-- A tree register (R278). -/
structure TreeR where
  ctx : Option Nat
  p : Nat
  par : List Nat
  deriving DecidableEq, Repr

/-- A matrix engine (R261): its clock, its operations, weight slots by number, and tree registers. -/
structure Engine where
  clock : Nat
  ops : List MxOp
  slots : Tab SlotW
  trees : List TreeR
  deriving DecidableEq, Repr

/-- A matrix engine with nothing in it. -/
def Engine.blank : Engine := { clock := 0, ops := [], slots := [], trees := List.replicate 4 ⟨none, 0, []⟩ }

/-- The states of a barrier agent (R347). -/
inductive AgSt where
  | idle | collecting | releasing
  deriving DecidableEq, Repr

/-- A group's barrier agent (R347): EXPECT, the arrived members (member, chip, core, crew), releases unacknowledged, held arrivals,
the members that have departed. -/
structure BAgent where
  st : AgSt
  expect : Nat
  arr : List (Nat × Nat × Nat × Nat)
  acks : Nat
  held : List (Nat × Nat × Nat × Nat)
  gone : List Nat
  deriving DecidableEq, Repr

/-- The states of a window (R335). -/
inductive WSt where
  | closed | opening | attached | detaching
  deriving DecidableEq, Repr

/-- A window's member at its agent (R333, R335): member index, chip, core, crew key, share size, state. -/
structure WMem where
  m : Nat
  chip : Nat
  core : Nat
  ck : Nat
  size : Nat
  att : Att
  deriving DecidableEq, Repr

/-- A group's coordinator and window agent (R333-R335, R367): admitted, the reservation round (chips still to answer, chips that answered
yes, chips that answered no), the window, its members, and the cores that reported for a return. -/
structure GAgent where
  admitted : Bool
  ready : List Nat
  asking : List Nat
  yes : List Nat
  no : List Nat
  win : WSt
  opened : Bool
  mem : List WMem
  reports : List (Nat × Nat)
  out : Bool
  deriving DecidableEq, Repr

/-- A tempo agent (R352): LIVE, the arrivals, the OR of their values, the pawns it has added, and pawns that retired before it added them. -/
structure TAgent where
  live : Nat
  arr : List (Nat × Nat × TPart)
  orv : Word
  known : List TId
  gone : List TId
  deriving DecidableEq, Repr

/-- A group-table entry (R330). -/
structure GEnt where
  v : Bool
  gang : Bool
  win : Bool
  nmem : Nat
  mlist : Nat
  deriving DecidableEq, Repr

/-- What a context's save area holds at a core (R364-R366): slots by number, crews by block, waiting FE entries, saved shares and private
bytes, receives, and the event log. -/
structure Save where
  thr : List (Nat × Thr)
  crews : List (Nat × Crew)
  fe : List (Nat × FeW)
  spad : List (Nat × Nat × Nat)
  empt : List (Nat × Nat)
  priv : List (Nat × Nat × Nat × Nat)
  recv : List REnt
  log : List LogE
  deriving DecidableEq, Repr

/-- A reservation of a core for a member of a gang (R333): kernel node, crew index, core, block, share base, private base, tiles. -/
structure Resv where
  ctx : Nat
  g : Nat
  m : Nat
  kern : Nat
  index : Nat
  core : Nat
  block : Nat
  sp : Nat
  pv : Nat
  tiles : List Nat
  deriving DecidableEq, Repr

/-- A BAR2 aperture (R407). -/
structure Aper where
  ctx : Nat
  base : Nat
  rd : Bool
  wr : Bool
  deriving DecidableEq, Repr

/-- A host access through BAR2 (R407, R234): 0 read, 1 posted write, 2 FetchAdd, 3 Swap, 4 CompareAndSwap; offset, size, data, comparand,
Relaxed Ordering, and the requester's number. -/
structure HostAcc where
  op : Nat
  ofs : Nat
  size : Nat
  data : Nat
  cmp : Nat
  ro : Bool
  id : Nat
  deriving DecidableEq, Repr

/-- A partition entry (R359). -/
structure Part where
  v : Bool
  spsave : Nat
  prio : Nat
  quantum : Nat
  clmask : Nat
  deriving DecidableEq, Repr

/-- A page that changes home (R256, R257): chip and key at the old and at the new home, its frame there, and the entry that the new home
takes when the old home lies on another chip. -/
structure HChg where
  ochip : Nat
  okey : Nat
  nchip : Nat
  nkey : Nat
  frame : Nat
  page : Page
  deriving DecidableEq, Repr

/-- What an event carries. -/
inductive Arg where
  | n1 (a : Nat)
  | n2 (a b : Nat)
  | n3 (a b c : Nat)
  | n4 (a b c d : Nat)
  | n6 (a b c d e f : Nat)
  /-- A knight at a core. -/
  | knight (core : Nat) (k : Knight)
  /-- A creation record for a chip and core, and the issuer's slot and transaction. -/
  | spawn (chip core tk id : Nat) (c : Spawn)
  | seal (q : SealQ)
  | sealAns (q : SealQ) (o : ROut)
  /-- A placement table's entries as the numbers that their 128 bytes hold, with the pages that change home (R165, R256, R257). -/
  | install (ctx : Nat) (tab : List Nat) (chg : List HChg)
  /-- What the old home of a page sends the new one on another chip (R257): bytes from an address, or a side-log entry. -/
  | hcopy (ctx va n v : Nat)
  | hlog (ctx : Nat) (e : SEnt)
  | give (key : Nat) (p : Page)
  /-- A tier move of a page: new tier and the destination frames (R258). -/
  | tier (key ntier : Nat) (frames : List Nat)
  | crec (r : CRec)
  | kent (ctx kern : Nat) (e : KEnt)
  | msg (core : Nat) (m : Msg)
  /-- A tempo arrival at its agent, and a release at a participant (R352, R353). -/
  | tarr (ctx kern chip core : Nat) (p : TPart) (v : Word)
  | trel (ctx core : Nat) (p : TPart) (v : Word)
  /-- A notice to a tempo agent: a pawn to add, with the issuer to acknowledge, or a participant that retired. -/
  | tnote (ctx kern : Nat) (add : Bool) (chip core : Nat) (t : TId) (ack : Option TId) (fault : Option NFault)
  | gent (ctx g : Nat) (e : GEnt)
  /-- A context to create: header, placement table, group entries, staging grants, weight-slot grants (R360, R361). -/
  | cnew (c : Ctx) (tab : List Nat) (gs : List (Nat × GEnt)) (sg : List (Nat × Nat × Nat × Nat)) (wg : List (Nat × Nat × Nat))
  | part (n : Nat) (p : Part)
  | aper (n : Nat) (a : Aper)
  | host (h : HostAcc)
  | wmem (ck status : Nat) (mem : List WMem)
  | steal (ctx qid idx thief : Nat) (got : List Nat)
  | gang (ctx g chip : Nat) (ok : Bool) (mem : List WMem)
  /-- A frame of a received packet: port, destination core, XID, what it carries; and the packet's other frames (R405). -/
  | frame (port dst xid : Nat) (i : Instr) (a : Arg) (rest : Arg)
  | nats (l : List Nat)
  | job (id pos : Nat) (o : ROut)
  | dirMsg (ctx : Nat) (m : DirMsg)
  | dirAck (ctx : Nat)
  /-- An event on its way to another home, with the chip and core of the home that forwards it (R257). -/
  | fwd (chip core : Nat) (i : Instr) (a : Arg)
  | logpend (core ctx seq chip home : Nat)
  | dirReply (tk : Nat) (r : Option DRec)
  | core (c : Nat)
  | thread (tk : Nat)
  /-- A flushing read of a home for a thread's release (R197). -/
  | flush (tk id home : Nat)
  /-- A directory query: the identity and the thread that waits (R245). -/
  | dirQ (ctx : Nat) (q : DirQ)
  | bank (core b : Nat)
  | req (r : MemReq)
  | fill (f : Fill)
  | fillData (f : Fill) (o : ROut) (data : Nat) (token : Bool) (key : Nat)
  | resp (tk id : Nat) (o : ROut)
  | probe (p : Probe)
  | probeReply (p : Probe) (e : PermE)
  | none
  /-- A thread and a transaction number. -/
  | lock (tk id : Nat)
  | frec (ctx : Nat) (r : FRec)
  deriving DecidableEq, Repr

/-- An event of the part with what it carries. -/
structure Ev where
  i : Instr
  a : Arg
  deriving DecidableEq, Repr

/-- The device states of R424, in the order of their codes. -/
inductive DSt where
  | ambient | cooling | coldSettle | ready | run | excursion | hold | warming | fault
  deriving DecidableEq, Repr

/-- A record of the device fault log (R434). -/
structure DLog where
  event : Nat
  loc : Nat
  time : Nat
  addr : Nat
  info : Nat
  deriving DecidableEq, Repr

/-- The link states of R409, in the order of their codes. -/
inductive LSt where
  | down | training | up | degraded | retraining | failed
  deriving DecidableEq, Repr

/-- A link (R408, R409): LSTAT, LERR and the consecutive failed trainings. -/
structure Link where
  st : LSt
  cap : Nat
  trains : Nat
  crcerr : Nat
  retries : Nat
  drops : Nat
  fails : Nat
  deriving DecidableEq, Repr

/-- A link after reset: DOWN, every field 0. -/
def Link.blank : Link := { st := .down, cap := 0, trains := 0, crcerr := 0, retries := 0, drops := 0, fails := 0 }

/-- A capture in its slot (R435, R436): tag, source, its CLOCK, and what each block latched: slots, crews, the bytes of scratchpads, private slices,
accumulators and weight slots, weight slots' states and trees, pages, side logs and owner records, frames in router buffers and recorded inputs, link
words, sensors and BAND. -/
structure Capture where
  slot : Nat
  tag : Nat
  src : Nat
  clock : Nat
  thr : Tab Thr
  crews : Tab Crew
  mem : List Host.Cell
  engines : Tab Engine
  pages : Tab Page
  slog : Tab (List SEnt)
  owners : Tab (Nat × Nat)
  frames : List Ev
  links : Tab Link
  sensors : List Nat
  band : Word
  deriving DecidableEq, Repr

/-- The device's registers and Nyend's own records (R359, R406-R408, R421-R439). -/
structure Dev where
  tmax : Nat
  dstate : DSt
  changes : Nat
  pend : Bool
  band : Nat
  parts : Tab Part
  /-- Sensor readings in 1/8 K, the band decided on, readings of TMAX with their times, time in ns, the hold at 120 K and whether memory has
  recalibrated there (R425). -/
  sensors : List Nat
  target : Nat
  hist : List (Nat × Nat)
  time : Nat
  holdAt : Option Nat
  recal : Bool
  /-- Blocks that have not moved to the target band. -/
  blocks : List Nat
  /-- Work stopped and clocks stopped for band 3 (R427). -/
  stopped : Bool
  clocksOff : Bool
  log : List DLog
  /-- An event of R390 came while no thread was in HALT. -/
  haltPend : Bool
  replace : Bool
  /-- Frames withdrawn from use (R433): tier, home core, number. -/
  withdrawn : List (Nat × Nat × Nat)
  rcores : Nat
  rchan : Nat
  rlanes : Nat
  uecount : Nat
  links : Tab Link
  chipTab : Tab (List Bool)
  aper : Tab Aper
  /-- Rollback fuses blown, the running image's SECVER and digest, the identity key's next leaf and the bound written to flash. -/
  fuses : Nat
  secver : Nat
  digest : Nat
  leaf : Nat
  leafMax : Nat
  scrub : Tab Nat
  scrubSlow : List Nat
  corrected : Tab Nat
  /-- Captures, which slot is next, whether one is being written, blocks that have not latched, and the core that latches at the end of the
  chain it issues. -/
  caps : List Capture
  capNext : Nat
  capBusy : Bool
  latch : List Nat
  snapAt : Option Nat
  deriving DecidableEq, Repr

/-- The device after reset (R422): BAND 4, everything else 0. -/
def Dev.blank : Dev :=
  { tmax := 0, dstate := .ambient, changes := 0, pend := false, band := 4, parts := [], sensors := [], target := 4, hist := [], time := 0
    holdAt := none, recal := false, blocks := [], stopped := false, clocksOff := false, log := []
    haltPend := false, replace := false, withdrawn := [], rcores := 0, rchan := 0, rlanes := 0, uecount := 0, links := [], chipTab := [], aper := []
    fuses := 0, secver := 0, digest := 0, leaf := 0, leafMax := 0, scrub := [], scrubSlow := [], corrected := [], caps := [], capNext := 0
    capBusy := false, latch := [], snapAt := none }

/-- A word of global memory that an agent watches: the event is posted when a write reaches the word (R286, R293, R296). -/
structure Hook where
  ctx : Nat
  ea : Nat
  ev : Ev
  deriving DecidableEq, Repr

/-- The thread fields of a HELD record of a reader that is no thread (R382). -/
structure Reader where
  core : Nat
  code : Nat
  kern : Nat
  tkind : Nat
  number : Nat
  info : Nat
  deriving DecidableEq, Repr

/-- A read that an agent of this package has sent to a home on another chip: its transaction, the event that needs it and is performed again
with the answer, who it is for a HELD record, and the answer. -/
structure Ask where
  id : Nat
  ev : Ev
  ctx : Nat
  ea : Nat
  n : Nat
  who : Option Reader
  res : Option ROut
  deriving DecidableEq, Repr

/-- A write that an agent of this package has sent to a home on another chip and that is not acknowledged: its transaction, address, engine job with
the elements' bytes that it counts, who it is for a HELD record, the page that holds it there, and the event that waits for it. -/
structure Owed where
  id : Nat
  ctx : Nat
  ea : Nat
  job : Option Nat
  cnt : Nat
  who : Option Reader
  held : Option Nat
  ev : Option Ev
  deriving DecidableEq, Repr

/-- A message that leaves once every lane it carries is free to go: the slots still held, and where it goes. -/
structure Out where
  wait : List Nat
  chip : Nat
  core : Nat
  src : Nat
  ev : Ev
  deriving DecidableEq, Repr

/-- A frame in the network (R392-R402): where it goes, what it carries, the router and input where it stands, the escape channel it holds,
and its routing tag. `place` is 0 at a router, 1 in a column channel. -/
structure Flight where
  chip : Nat
  dst : Nat
  src : Nat
  ev : Ev
  xid : Nat
  at_ : Nat
  place : Nat
  inp : Nat
  esc : Bool
  dl : Bool
  dirx : Nat
  /-- The network cycle of injection, and of its last move; whether a capture already holds it (R435). -/
  born : Nat
  since : Nat
  mark : Bool
  deriving DecidableEq, Repr

/-- A UET packet in a port (R404): its number, the port, the peer chip and its port, its frames, and whether it has been sent. -/
structure Packet where
  n : Nat
  port : Nat
  chip : Nat
  dport : Nat
  frames : List Flight
  sent : Bool
  deriving DecidableEq, Repr

/-- An answer of Nyend to the host driver (R455), or of the host port to a host read: a status code and a value. -/
structure Reply where
  code : Nat
  val : Nat
  deriving DecidableEq, Repr

/-- The whole state. -/
structure State where
  /-- Side logs by page, accesses held by page, watches by home, deferred directories by context, watched words of agents, lines moved. -/
  slog : Tab (List SEnt)
  heldP : Tab (List Ev)
  watches : Tab (List Watch)
  dirs : Tab Dir
  hooks : List Hook
  /-- Agents' reads and writes at homes on other chips that are not answered. -/
  asks : List Ask
  owed : List Owed
  moves : Tab (List Nat)
  logged : List Nat
  /-- Home changes in progress at this chip's end, and events held at the new home, forwarded then direct (R257). -/
  rehome : List HChg
  heldF : Tab (List Ev)
  fwds : Tab Nat
  outs : Tab Out
  flights : List Flight
  packets : List Packet
  ncyc : Nat
  reps : List Rep
  /-- How often each die has dropped its replicas of other dies' and chips' homes (R197). -/
  epochs : Tab Nat
  fe : Tab (List FeW)
  empt : List Nat
  /-- Poisoned codewords: first byte and length (R431). -/
  poison : List (Nat × Nat)
  owners : Tab (Nat × Nat)
  dev : Dev
  ev : Arg
  mem : List Host.Cell
  pages : Tab Page
  ctxs : Tab Ctx
  kern : Tab KEnt
  groups : Tab GEnt
  sgrants : Tab (Nat × Nat × Nat)
  wgrants : Tab (Nat × Nat)
  rings : Tab (Nat × Nat)
  queues : Tab Queue
  nodes : List Node
  crecs : List CRec
  posts : List PostJ
  jobs : List Job
  engines : Tab Engine
  bagents : Tab BAgent
  gagents : Tab GAgent
  tagents : Tab TAgent
  resvs : List Resv
  ovf : Tab (List (ORec × Bool))
  pawns : Tab Nat
  spawned : List (Nat × TId)
  saves : Tab Save
  msgq : Tab (List Msg)
  smat : List (Nat × Nat)
  /-- Pending lists of fault records by agent and context, each record with its cursor (R383). -/
  fqp : Tab (List (Nat × FRec))
  /-- Contexts whose flush markers run, with the network cycle at which they were injected (R411). -/
  flush : List (Nat × Nat)
  replies : List Reply
  /-- Host accesses through BAR2 that have not been sent, and the posted writes sent and not acknowledged: transaction and requester (R234). -/
  hostq : List HostAcc
  hostOut : List (Nat × Nat)
  inbox : List Ev
  chip : Nat
  thr : Tab Thr
  crews : Tab Crew
  cores : Tab CoreSt
  iss : Issue
  agenda : List Ev
  /-- Which of the possible next events the next step performs (log 9). -/
  turn : Nat
  tick : Nat
  ids : Nat
  deriving DecidableEq, Repr

/-- No chain is being issued. -/
def Issue.blank : Issue :=
  { core := 0, ctx := 0, crew := none, lanes := [], pc := 0, wpc := 0, next := 0, widx := 0, pre := none, banks := [], loads := [], draws := [], pfx := .none, drops := [] }

/-- The machine right after reset. -/
def State.reset : State :=
  { slog := [], heldP := [], watches := [], dirs := [], hooks := [], asks := [], owed := [], moves := [], logged := [], rehome := [], heldF := [], fwds :=
    [], outs := [], flights := [], packets := [], ncyc := 0, reps := [], epochs := [], fe := [], empt := [], poison := [], owners := [], dev :=
    Dev.blank, ev := .none, mem := [], pages := [], ctxs := [], kern := [], groups := [], sgrants := [], wgrants := [], rings :=
    [], queues := [], nodes := [], crecs := [], posts := [], jobs := [], engines := [], bagents := [], gagents := [], tagents :=
    [], resvs := [], ovf := [], pawns := [], spawned := [], saves := [], msgq := [], smat := [], fqp := [], flush := [], replies
    := [], hostq := [], hostOut := [], inbox := [], chip := 0, thr := [], crews := [], cores := [], iss := Issue.blank, agenda := [], turn := 0, tick := 0, ids := 0 }

end Sys2Proof.Machine
end

