-- ==== Sys2Proof/Machine/Ops.lean ====
section
/-! DEFINITION. The named operations over memory, registers, threads, crews and cores that the meanings share: bytes of memory, register
reads and writes as a chain makes them (03 R45, 06 R142), taking a trap and returning from one (18 R373-R379). -/

namespace Sys2Proof.Machine
open Sys2Proof

/-! ### Memory: bytes under physical keys -/

/-- The byte at a physical key; a byte that nothing has written reads 0 (log 1). -/
def memRd : List Host.Cell → Nat → Byte
  | [], _ => 0
  | (k, v) :: t, a => if a = k then v else if a < k then 0 else memRd t a

/-- The memory with one byte written; a byte of 0 is not listed. -/
def memWr : List Host.Cell → Nat → Byte → List Host.Cell
  | [], a, v => if v = 0 then [] else [(a, v)]
  | (k, w) :: t, a, v =>
    if a = k then (if v = 0 then t else (a, v) :: t)
    else if a < k then (if v = 0 then (k, w) :: t else (a, v) :: (k, w) :: t)
    else (k, w) :: memWr t a v

/-- The canonical form of memory: addresses strictly rising, no entry equal to what an unlisted address reads as. -/
def memWfFrom : Option Nat → List Host.Cell → Bool
  | _, [] => true
  | lo, (k, v) :: t => (match lo with | none => true | some l => decide (l < k)) && v != 0 && memWfFrom (some k) t

/-- The canonical form of a whole memory. -/
def Memory.wf (m : List Host.Cell) : Bool := memWfFrom none m

/-- n little-endian bytes from a key (R1). -/
def memRdN (m : List Host.Cell) (a : Nat) : Nat → Nat
  | 0 => 0
  | n + 1 => (memRd m a).toNat + 256 * memRdN m (a + 1) n

/-- n little-endian bytes of a number written from a key (R1). -/
def memWrN (m : List Host.Cell) (a : Nat) : Nat → Nat → List Host.Cell
  | 0, _ => m
  | n + 1, v => memWrN (memWr m a (BitVec.ofNat 8 v)) (a + 1) n (v / 256)

/-- The state with n bytes written at a key. -/
def State.wrMem (s : State) (a n v : Nat) : State := { s with mem := memWrN s.mem a n v }

/-- Scratchpad byte o of core c (R174). -/
def spadKey (c o : Nat) : Nat := 2 ^ 60 + c * 2 ^ 19 + o
/-- Byte o of lane position L's private slice on core c (R179). -/
def privKey (c l o : Nat) : Nat := 2 ^ 61 + c * 2 ^ 17 + l * 2 ^ 12 + o

/-- The bytes of memory in a range of keys. -/
def cellsIn (m : List Host.Cell) (a n : Nat) : List Host.Cell := m.filter fun c => decide (a ≤ c.1 ∧ c.1 < a + n)
/-- Memory with a range of keys cleared. -/
def clearCells (m : List Host.Cell) (a n : Nat) : List Host.Cell := m.filter fun c => !decide (a ≤ c.1 ∧ c.1 < a + n)

/-- A list element put in its place. -/
def ins {α : Type} (le : α → α → Bool) (x : α) : List α → List α
  | [] => [x]
  | y :: t => if le x y then x :: y :: t else y :: ins le x t

/-- A list sorted; equal elements keep their order. -/
def isort {α : Type} (le : α → α → Bool) (l : List α) : List α := l.foldr (ins le) []

/-! ### Threads, crews and cores -/

/-- The key of a slot: core, bank, slot (R65). -/
def tkOf (core bank slot : Nat) : Nat := (core * 2 + bank) * 512 + slot
/-- The core of a thread key. -/
def coreOfTk (tk : Nat) : Nat := tk / 1024
/-- The bank of a thread key. -/
def bankOfTk (tk : Nat) : Nat := tk / 512 % 2
/-- The slot of a thread key. -/
def slotOfTk (tk : Nat) : Nat := tk % 512
/-- The crew key of a slot block: core, bank, block (R65). -/
def ckOf (core bank block : Nat) : Nat := (core * 2 + bank) * 16 + block
/-- The crew key of the slot block that holds a slot. -/
def ckOfTk (tk : Nat) : Nat := tk / 512 * 16 + tk % 512 / 32
/-- The thread key of lane L of a crew. -/
def laneTk (ck l : Nat) : Nat := ck / 16 * 512 + ck % 16 * 32 + l
/-- The core of a crew key. -/
def coreOfCk (ck : Nat) : Nat := ck / 32

/-- A thread. -/
def State.T (s : State) (tk : Nat) : Thr := (s.thr.get? tk).getD Thr.blank
/-- The key by which engines and receive entries name a crew that is in its context's save area (R364). -/
def savedCk (core ctx block : Nat) : Nat := 2 ^ 20 * (ctx + 1) + ckOf core 0 block
/-- The crew of a key, in a bank or, above bit 20, in the save area of its context (R364). -/
def State.crewAny (s : State) (ck : Nat) : Option Crew :=
  if ck < 2 ^ 20 then s.crews.get? ck
  else
    let k := ck % 2 ^ 20
    match s.saves.get? (coreOfCk k * 64 + (ck / 2 ^ 20 - 1)) with
    | some a => (a.crews.find? (·.1 == k % 16)).map (·.2)
    | none => none
/-- A crew. -/
def State.C (s : State) (ck : Nat) : Crew := (s.crews.get? ck).getD Crew.blank
/-- A core. -/
def State.core (s : State) (c : Nat) : CoreSt := (s.cores.get? c).getD CoreSt.blank
/-- A thread replaced. -/
def State.setT (s : State) (tk : Nat) (t : Thr) : State := { s with thr := s.thr.set tk t }
/-- A thread changed. -/
def State.modT (s : State) (tk : Nat) (f : Thr → Thr) : State := s.setT tk (f (s.T tk))
/-- A crew replaced. -/
def State.setC (s : State) (ck : Nat) (c : Crew) : State := { s with crews := s.crews.set ck c }
/-- A crew changed. -/
def State.modC (s : State) (ck : Nat) (f : Crew → Crew) : State := s.setC ck (f (s.C ck))
/-- A core replaced. -/
def State.setCore (s : State) (c : Nat) (x : CoreSt) : State := { s with cores := s.cores.set c x }
/-- A core changed. -/
def State.modCore (s : State) (c : Nat) (f : CoreSt → CoreSt) : State := s.setCore c (f (s.core c))
/-- The next transaction number. -/
def State.fresh (s : State) : State := { s with ids := s.ids + 1 }
/-- An event that has arrived and waits to be performed. -/
def State.post (s : State) (i : Instr) (a : Arg) : State := { s with agenda := s.agenda ++ [⟨i, a⟩] }

/-- The router to which frames for a core, a die's distributor, the management core or the host port are routed: die x 24 + row x 8 + column (R9,
R392). -/
def routerOf (c : Nat) : Nat :=
  if c < 384 then c / 4 else if 504 ≤ c ∧ c < 508 then (c - 504) * 24 + 14 else 10
/-- The router at which a source injects a frame. The host port attaches at (1, 2) and (1, 3) of die 0 (R15); which of them takes a frame the spec does
not say: the model takes them in turn by transaction number (log 53). -/
def attachOf (c xid : Nat) : Nat := if c = 0x1ff then 10 + xid % 2 else routerOf c
/-- The router input of a source (R400): 0-3 the torus, 4-7 the cores, 8 the engine, 9 the L2, 10 the column channel, 11 a port. -/
def inputOf (c : Nat) : Nat := if c < 384 then 4 + c % 4 else 11

/-- The block with which a source of frames latches in a capture (R435): the core, or the management core's. -/
def latchBlock (c : Nat) : Nat := if c < 384 then c else 3000

/-- An event sent to a core: its own agent takes it at once, any other through the network (R185). -/
def State.send (s : State) (src chip dst : Nat) (i : Instr) (a : Arg) : State :=
  if chip = s.chip ∧ dst = src then s.post i a
  else { s with flights := s.flights ++ [{ chip := chip, dst := dst, src := src, ev := ⟨i, a⟩, xid := s.ids % 65536, at_ := attachOf src s.ids, place := 0
                                           inp := inputOf src, esc := false, dl := false, dirx := 0, born := s.ncyc
                                           since := s.ncyc, mark := !s.dev.latch.isEmpty && !s.dev.latch.contains (latchBlock src) }], ids := s.ids + 1 }

/-- A message sent with a routing direction (R397, R416). -/
def State.sendDir (s : State) (dir src chip dst : Nat) (i : Instr) (a : Arg) : State :=
  let n := s.flights.length
  let s := s.send src chip dst i a
  { s with flights := s.flights.mapIdx fun k f => if n ≤ k then { f with dirx := dir } else f }

/-- A thread as the words of the chain read it (R45, R142). -/
def State.rT (s : State) (tk : Nat) : Thr :=
  match s.iss.pre with
  | some p => (Tab.get? p.1 tk).getD Thr.blank
  | none => s.T tk
/-- A crew as the words of the chain read it. -/
def State.rC (s : State) (ck : Nat) : Crew :=
  match s.iss.pre with
  | some p => (Tab.get? p.2 ck).getD Crew.blank
  | none => s.C ck

/-- General register n of a thread record. -/
def Thr.gr (t : Thr) (n : Nat) : Word := t.g.getD n 0
/-- The thread with general register n written. -/
def Thr.setG (t : Thr) (n : Nat) (v : Word) : Thr := { t with g := t.g.setIfInBounds n v }
/-- The top of the predicate stack: 1 when it is empty (R98). -/
def Thr.top (t : Thr) : Bool := t.pdepth == 0 || bit t.pent.toNat (t.pdepth - 1)
/-- The thread with sticky flags raised (R33). -/
def Thr.raise (t : Thr) (f : Flags) : Thr := { t with flags := t.flags ||| f }

/-- Scalar register n of a crew. -/
def Crew.sr (c : Crew) (n : Nat) : Word := c.s.getD n 0
/-- The crew with scalar register n written. -/
def Crew.setS (c : Crew) (n : Nat) (v : Word) : Crew := { c with s := c.s.setIfInBounds n v }
/-- Mask register n: k0 reads as all ones (R134). -/
def Crew.kr (c : Crew) (n : Nat) : BitVec 32 := if n = 0 then 0xffffffff else c.k.getD n 0
/-- The crew with mask register n written; k0 ignores writes (R134). -/
def Crew.setK (c : Crew) (n : Nat) (v : BitVec 32) : Crew := if n = 0 then c else { c with k := c.k.setIfInBounds n v }
/-- Rejoin register n. -/
def Crew.jr (c : Crew) (n : Nat) : Rejoin := c.j.getD n ⟨0, 0⟩
/-- The crew with rejoin register n written. -/
def Crew.setJ (c : Crew) (n : Nat) (v : Rejoin) : Crew := { c with j := c.j.setIfInBounds n v }

/-- The state with general register n of a thread written. -/
def State.wrG (s : State) (tk n : Nat) (v : Word) : State := s.modT tk (·.setG n v)
/-- The state with flags raised in a thread. -/
def State.raiseF (s : State) (tk : Nat) (f : Flags) : State := s.modT tk (·.raise f)

/-- PSTK as a register (R98). -/
def Thr.pstk (t : Thr) : Word := W (t.pdepth * 2 ^ 16 + t.pent.toNat)
/-- The thread with PSTK written: entries at and above DEPTH are stored as zero (R98). -/
def Thr.setPstk (t : Thr) (v : Word) : Thr :=
  { t with pdepth := bits v 20 16, pent := BitVec.ofNat 16 (v.toNat % 2 ^ min 16 (bits v 20 16)) }
/-- A push (R98, R99). -/
def Thr.push (t : Thr) (b : Bool) : Thr :=
  { t with pdepth := t.pdepth + 1, pent := BitVec.ofNat 16 (t.pent.toNat % 2 ^ t.pdepth + b2n b * 2 ^ t.pdepth) }
/-- A pop (R100). -/
def Thr.pop (t : Thr) : Thr :=
  { t with pdepth := t.pdepth - 1, pent := BitVec.ofNat 16 (t.pent.toNat % 2 ^ (t.pdepth - 1)) }
/-- The thread with its top entry replaced (R100). -/
def Thr.setTop (t : Thr) (b : Bool) : Thr :=
  { t with pent := BitVec.ofNat 16 (t.pent.toNat % 2 ^ (t.pdepth - 1) + b2n b * 2 ^ (t.pdepth - 1)) }
/-- The entry below the top, 1 when there is none (R100). -/
def Thr.below (t : Thr) : Bool := decide (t.pdepth ≤ 1) || bit t.pent.toNat (t.pdepth - 2)

/-- The next draw of a generator (R28): its new state and the 24-bit draw. -/
def nextDraw (x : Word) : Word × Nat :=
  let x := x ^^^ (x <<< 13)
  let x := x ^^^ (x >>> 7)
  let x := x ^^^ (x <<< 17)
  (x, bits x 63 40)

/-- SplitSeed of R29. -/
def splitSeed (seed n : Word) : Word :=
  let z := seed + (n + 1) * 0x9e3779b97f4a7c15
  let z := (z ^^^ (z >>> 30)) * 0xbf58476d1ce4e5b9
  let z := (z ^^^ (z >>> 27)) * 0x94d049bb133111eb
  let z := z ^^^ (z >>> 31)
  if z = 0 then 1 else z

/-! ### Placement and pages (07 R164-R167, 10 R236-R238) -/

/-- A context. -/
def State.ctx (s : State) (c : Nat) : Ctx := (s.ctxs.get? c).getD Ctx.blank
/-- A context changed. -/
def State.modCtx (s : State) (c : Nat) (f : Ctx → Ctx) : State := { s with ctxs := s.ctxs.set c (f (s.ctx c)) }

/-- A context's partition. -/
def State.partOf (s : State) (ctx : Nat) : Part :=
  (s.dev.parts.get? (s.ctx ctx).part).getD { v := false, spsave := 0, prio := 0, quantum := 0, clmask := 0 }

/-- Set bit n of a core set, counted from 0 ascending; `k` bits are searched. -/
def nthSet : Nat → Nat → Nat → Nat → Nat
  | 0, _, _, i => i
  | k + 1, m, n, i => if m % 2 = 1 then (if n = 0 then i else nthSet k (m / 2) (n - 1) (i + 1)) else nthSet k (m / 2) n (i + 1)

/-- Where an address lives: region entry, chip, core, granule at that home, granule size, tier (R167). -/
structure HomeLoc where
  region : Nat
  chip : Nat
  core : Nat
  hg : Nat
  glog : Nat
  tier : Nat
  ofs : Nat
  deriving DecidableEq, Repr

/-- The valid entry that holds an address, searched from entry i. -/
def findRegion : List PEnt → Nat → Nat → Option (Nat × PEnt)
  | [], _, _ => none
  | e :: t, va, i => if e.v && decide (e.base ≤ va ∧ va < e.base + e.len) then some (i, e) else findRegion t va (i + 1)

/-- The home function (R167). -/
def homeIn (tab : List PEnt) (va : Nat) : Option HomeLoc :=
  match findRegion tab va 0 with
  | none => none
  | some (i, e) =>
    let g := (va - e.base) / 2 ^ e.glog
    let m := g % (e.count * e.nchip)
    some { region := i, chip := e.chip0 + m / e.count, core := nthSet 384 e.coreset (m % e.count) 0
           hg := g / (e.count * e.nchip), glog := e.glog, tier := e.tier, ofs := (va - e.base) % 2 ^ e.glog }

/-- Page size of a tier (R236). -/
def pageSize (tier : Nat) : Nat := if tier = 0 then 2 ^ 21 else if tier = 1 then 2 ^ 16 else 2 ^ 12

/-- The home-local offset of an address (R237). -/
def HomeLoc.hl (h : HomeLoc) : Nat := h.hg * 2 ^ h.glog + h.ofs
/-- The page number hp (R237). -/
def HomeLoc.hp (h : HomeLoc) : Nat := h.hl / pageSize h.tier
/-- The offset within the page (R237). -/
def HomeLoc.pofs (h : HomeLoc) : Nat := h.hl % pageSize h.tier

/-- The key of a page: context, region entry, home core, page number, and the tier whose page size counts the numbers (R237, R238): from the end of a
move that splits or merges pages until a table names the new tier, a home has pages of a size that the table does not give (R258). -/
def pgKey (ctx region core hp : Nat) (tier : Nat := 0) : Nat := (((ctx * 64 + region) * 512 + core) * 4 + tier) * 2 ^ 46 + hp
/-- The page number of a page key. -/
def hpOfKey (k : Nat) : Nat := k % 2 ^ 46
/-- The tier of a page key. -/
def tierOfKey (k : Nat) : Nat := k / 2 ^ 46 % 4
/-- The home core of a page key. -/
def coreOfKey (k : Nat) : Nat := k / 2 ^ 48 % 512
/-- The region entry of a page key. -/
def regionOfKey (k : Nat) : Nat := k / 2 ^ 48 / 512 % 64
/-- The context of a page key. -/
def ctxOfKey (k : Nat) : Nat := k / 2 ^ 48 / 512 / 64
/-- The page key of an address at its home. -/
def HomeLoc.key (h : HomeLoc) (ctx : Nat) : Nat := pgKey ctx h.region h.core h.hp h.tier
/-- A page as the permission caches tag it: without its size (R240). -/
def tagOfKey (k : Nat) : Nat := k / 2 ^ 48 * 2 ^ 48 + hpOfKey k
/-- A page named by the page size of another tier: the one that holds its first byte. -/
def reKey (key tier : Nat) : Nat :=
  pgKey (ctxOfKey key) (regionOfKey key) (coreOfKey key) (hpOfKey key * pageSize (tierOfKey key) / pageSize tier) tier
/-- The entry that a home has for a page, whatever size the asking core's table gives it (R258). -/
def State.entryOf (s : State) (key : Nat) : Option Page := [tierOfKey key, 0, 1, 2].findSome? fun t => s.pages.get? (reKey key t)
/-- The home of an address as its page table has it: by the page size of the entry that holds the address, which differs from the region's after a move
between tiers (R258). -/
def State.inPage (s : State) (h : HomeLoc) (ctx : Nat) : HomeLoc :=
  if h.chip ≠ s.chip then h else
  match [h.tier, 0, 1, 2].find? fun t => (s.pages.get? ({ h with tier := t }.key ctx)).isSome with
  | some t => { h with tier := t }
  | none => h

/-- A core's copy of a context's placement table (R164, R256). -/
def State.tabOf (s : State) (core ctx : Nat) : List PEnt :=
  if (s.ctx ctx).late.contains core then (s.ctx ctx).prev else (s.ctx ctx).ptab
/-- The home of an address by a core's copy of the table (R164). -/
def State.homeAt (s : State) (core ctx va : Nat) : Option HomeLoc := homeIn (s.tabOf core ctx) va

/-- The home of an address by the table in force, as an agent of this chip knows its pages (R164, R237). -/
def State.homeOf (s : State) (ctx va : Nat) : Option HomeLoc := (homeIn (s.ctx ctx).ptab va).map fun h => s.inPage h ctx

/-- The HBM4 stack of a core (R10). -/
def hbmStack (core : Nat) : Nat := core / 96 * 3 + core % 96 / 4 / 8
/-- The channel of that stack that a core owns (R10). -/
def hbmChannel (core : Nat) : Nat := core % 96 / 4 % 8 * 4 + core % 4

/-- Bytes of an LPDDR-6 channel, of the four of a die, of a core's share and of Nyend's part of a die (R8, R12). -/
abbrev lpChannel : Nat := 2 ^ 36
/-- Bytes of LPDDR-6 at a die (R12). -/
abbrev lpDie : Nat := 4 * lpChannel
/-- Bytes of a core's LPDDR-6 share (R12). -/
abbrev lpShare : Nat := 0xa0000000
/-- Bytes of LPDDR-6 in a package (R8): 1 TiB. -/
abbrev lpPackage : Nat := 4 * lpDie
/-- Nyend's LPDDR-6 at a die, and in the package (R12). -/
abbrev lpNyend : Nat := lpDie - 96 * lpShare

/-- Where byte o of a core's share lies (R12): the channel of its die, and the place in it. The shares of a die are interleaved over its four channels in
256-byte units; they stand in core order from the start of the channels, and Nyend's part after them (log 53). -/
def lpPlace (core o : Nat) : Nat × Nat :=
  let x := core % 96 * lpShare + o
  (x / 256 % 4, x / 1024 * 256 + x % 256)

/-- The key of a byte of an LPDDR-6 channel of a die. -/
def lpKey (die : Nat) (p : Nat × Nat) : Nat := 2 ^ 44 + die * lpDie + p.1 * lpChannel + p.2

/-- The physical key of byte o of a frame at a home (R169, R170, R236): HBM4 slice, LPDDR-6 share, host memory. In the slice the overflow area, the save areas
and the device structures come before the pages, in the order of R169's table (log 53). -/
def frameKey (tier core frame o : Nat) : Nat :=
  if tier = 0 then core * 0x60000000 + 0x8000000 + frame * 2 ^ 21 + o
  else if tier = 1 then 2 ^ 44 + core * 0xa0000000 + frame * 2 ^ 16 + o
  else 2 ^ 48 + frame * 2 ^ 12 + o

/-- The physical key of a page's byte. -/
def Page.key (p : Page) (core o : Nat) : Nat := frameKey p.tier core p.frame o

/-- The kernel table entry of a thread's kernel on this chip (R319). -/
def State.kent (s : State) (ctx k : Nat) : Option KEnt := s.kern.get? (ctx * 4096 + k)
/-- The kernel code base of a thread. -/
def State.codeBase (s : State) (t : Thr) : Nat :=
  match s.kent t.ctx t.ktab.toNat with
  | some e => e.code.toNat
  | none => 0

/-- Whether an address lies in the kernel's code range (R97). -/
def State.inCode (s : State) (t : Thr) (a : Nat) : Bool :=
  decide (s.codeBase t ≤ a ∧ a < s.codeBase t + 2 ^ 30)

/-! ### Read-only caches (07 R171-R173, 10 R253) -/

/-- The die of a core or a distributor; the management core and the host port are on die 0 (R15). -/
def dieOf (c : Nat) : Nat := if c < 384 then c / 96 else if 504 ≤ c ∧ c < 508 then c - 504 else 0
/-- The die of a replica's holder: a core's L1, or an L2 slice (R172). -/
def holderDie (h : Nat) : Nat := if h < 1000 then dieOf h else (h - 1000) / 24
/-- The core through whose router a holder speaks. -/
def holderCore (h : Nat) : Nat := if h < 1000 then h else (h - 1000) * 4

/-- Whether a cluster runs fused: every kernel with threads or crews placed on its cores requested it (R173). -/
def State.fusedCluster (s : State) (cl : Nat) : Bool :=
  let fuse (ctx k : Nat) : Bool := ((s.kent ctx k).map (·.fuse)).getD false
  let thr (t : Thr) : Bool := t.kind == 2 || t.st == .retired || fuse t.ctx t.ktab.toNat
  let crew (c : Crew) : Bool := c.st == .retired || c.ctx == Config.fwCtx || fuse c.ctx c.ktab.toNat
  (s.thr.all fun x => coreOfTk x.1 / 4 != cl || thr x.2) && (s.crews.all fun x => coreOfCk x.1 / 4 != cl || crew x.2)
    && s.saves.all fun x => x.1 / 256 != cl || ((x.2.thr.all fun y => thr y.2) && x.2.crews.all fun y => crew y.2)

/-- The L1 that holds a line for a core: its own, or the slice of the fused cluster (R173). -/
def State.l1Of (s : State) (core line : Nat) : Nat := if s.fusedCluster (core / 4) then core / 4 * 4 + line % 4 else core
/-- The holder number of the L2 slice of a line on a die (R172). -/
def l2Of (die line : Nat) : Nat := 1000 + die * 24 + line % 24

/-- The set of a line in a cache of 256 or 4,096 sets (R171); which line bits index it the spec does not say (log 52). -/
def setOf (holder line : Nat) : Nat := if holder < 1000 then line / 4 % 256 else line / 24 % 4096
/-- The ways of a cache (R171). -/
def waysOf (holder : Nat) : Nat := if holder < 1000 then 12 else 16

/-- The half of a line that holds an address. -/
def Rep.half (r : Rep) (a : Nat) : Option RHalf := if a % 128 < 64 then r.lo else r.hi
/-- The replica of an address in a cache. -/
def State.repAt (s : State) (holder ctx a : Nat) : Option Rep :=
  s.reps.find? fun r => r.holder == holder && r.ctx == ctx && r.line == a / 128 && (r.half a).isSome
/-- A replica that serves an address at a core, with its hit latency (R171). -/
def State.replica (s : State) (core ctx a : Nat) : Option (Rep × Nat) :=
  match s.repAt (s.l1Of core (a / 128)) ctx a with
  | some r => some (r, if s.fusedCluster (core / 4) then 10 else 6)
  | none => (s.repAt (l2Of (dieOf core) (a / 128)) ctx a).map fun r => (r, 40)
/-- Bytes of a replica. -/
def Rep.bytes (r : Rep) (a n : Nat) : Nat := r.data / 2 ^ (8 * (a % 128)) % 2 ^ (8 * n)

/-- Copy tokens that a holder returns to their homes (R253). -/
def State.payBack (s : State) (holder : Nat) (keys : List Nat) : State :=
  keys.eraseDups.foldl (fun s k => s.send (holderCore holder) s.chip (coreOfKey k) .tokenReturn (.n2 k (keys.count k))) s

/-- The pages of the tokens that come free with a line's halves. -/
def Rep.owes (r : Rep) (hit : RHalf → Bool) : List Nat :=
  (r.lo.toList ++ r.hi.toList).filterMap fun h => if h.token && hit h then some h.key else none

/-- Replicas dropped, their tokens returned (R253). -/
def State.dropReps (s : State) (hit : Rep → RHalf → Bool) : State :=
  let cut (r : Rep) : Rep := { r with lo := r.lo.filter fun h => !hit r h, hi := r.hi.filter fun h => !hit r h }
  let hs := (s.reps.map (·.holder)).eraseDups
  let owed (h : Nat) : List Nat := (s.reps.filter (·.holder == h)).flatMap fun r => r.owes (hit r)
  hs.foldl (fun x h => x.payBack h (owed h)) { s with reps := (s.reps.map cut).filter fun r => r.lo.isSome || r.hi.isSome }

/-- Whether a way of a cache is pinned as a staging region (R172). -/
def State.pinned (s : State) (holder way : Nat) : Bool :=
  s.sgrants.any fun g => g.2.1 + 1000 == holder && decide (g.2.2.1 ≤ way ∧ way < g.2.2.1 + g.2.2.2)

/-- The way in which a cache allocates a line: the first free one of its set, else that of the line allocated first; the replacement order affects
timing only (R171). -/
def State.wayFor (s : State) (holder line : Nat) : Nat :=
  let set := s.reps.filter fun r => r.holder == holder && setOf holder r.line == setOf holder line
  match (List.range (waysOf holder)).find? fun w => !s.pinned holder w && !set.any (·.way == w) with
  | some w => w
  | none => (set.getLast?.map (·.way)).getD 0

/-- A line, or one half of it, allocated in a cache: a half that stands already keeps its place and the second token goes back; a new line takes a
way of its set, and the line that leaves it returns its tokens (R171, R253). -/
def State.addRep (s : State) (r : Rep) : State :=
  match s.reps.find? fun x => x.holder == r.holder && x.ctx == r.ctx && x.line == r.line with
  | some x =>
    let low := 2 ^ 512
    let lo := if x.lo.isSome then x.data % low else r.data % low
    let hi := if x.hi.isSome then x.data / low else r.data / low
    let twice := r.owes fun h => (x.lo.isSome && r.lo == some h) || (x.hi.isSome && r.hi == some h)
    ({ s with reps := s.reps.map fun y => if y = x then { x with data := hi * low + lo, lo := x.lo <|> r.lo, hi := x.hi <|> r.hi } else y }).payBack
      r.holder twice
  | none =>
    let w := s.wayFor r.holder r.line
    let out (x : Rep) : Bool := x.holder == r.holder && setOf r.holder x.line == setOf r.holder r.line && x.way == w
    let s := if s.reps.any out then s.dropReps fun x _ => out x else s
    { s with reps := { r with way := w } :: s.reps }

/-- How often a die has dropped replicas of other homes. -/
def State.epoch (s : State) (die : Nat) : Nat := (s.epochs.get? die).getD 0

/-- The replicas of a die whose home lies on another die or chip are dropped (R197); a fill on its way to it allocates none. -/
def State.dropAway (s : State) (die : Nat) : State :=
  { s with epochs := s.epochs.set die (s.epoch die + 1) }.dropReps fun r h =>
    holderDie r.holder == die && (h.chip != s.chip || dieOf (coreOfKey h.key) != die)

/-- The lane of a fill that serves none. -/
def noLane (ea n : Nat) : MLane := { tk := 2 ^ 30, id := 0, tid := ⟨0, 0, 0⟩, pcw := 0, ea := ea, size := n, data := 0, cmp := 0, mode := 0 }

/-- The fill of the L2 slice that goes with one for an L1 when the slice misses too, so that each holder gets its own token (R190, R253). -/
def State.sliceFill (s : State) (chip : Nat) (f : Fill) : State :=
  let a := f.lane.ea
  let l2 := l2Of (dieOf f.core) (a / 128)
  if (s.repAt l2 f.ctx a).isSome then s
  else s.send f.core chip f.home .lineFill (.fill { f with holder := some l2, strict := false, lane := noLane a f.lane.size })

/-- A line fill for an L1 sent (R190, R253). -/
def State.sendFill (s : State) (chip : Nat) (f : Fill) : State := (s.send f.core chip f.home .lineFill (.fill f)).sliceFill chip f

/-! ### Fetch (03 R42, R58) -/

/-- The permission-cache entry of a page at a home (R240), found by the number that the core's own table gives the page. -/
def State.permEntry (s : State) (core ctx chip key : Nat) : Option PermE :=
  (s.core core).perm.find? fun e => e.ctx == ctx && e.chip == chip && e.key == tagOfKey key

/-- The mark of a page of a chip that a thread's probe has just filled (R241). -/
def freshKey (chip key : Nat) : Nat := key * 65536 + chip

/-- What a core finds for a word that only a sealed page gives: the word, a refusal, or a probe or a line fill for which its thread waits. -/
inductive CodeWord where
  | word (w : Nat)
  | fault (c : Cause) (info : Nat)
  | probe (p : Probe)
  | fill (k chip : Nat) (f : Fill)
  deriving DecidableEq, Repr

/-- A word of a sealed page at a core for a thread, through the permission cache and the replicas (R58, R171, R240, R241, R323): code, 4 bytes with the
execute right, or a launch constant, 8 bytes with the read right. -/
def State.sealedAt (s : State) (core ctx tk : Nat) (code : Bool) (a : Nat) : CodeWord :=
  let k := 2 * a + b2n (!code)
  let n := if code then 4 else 8
  match (s.rT tk).got.find? (·.1 == k) with
  | some (_, .word w) => .word w
  | some (_, .fault c i) => .fault c i
  | none => match s.homeAt core ctx a with
    | none => .fault .permission 0
    | some h =>
      let key := h.key ctx
      let p : Probe := { ctx := ctx, key := key, home := h.core, chip := h.chip, schip := s.chip, src := core, tk := tk, again := false }
      match s.permEntry core ctx h.chip key with
      | none => .probe p
      | some e =>
        if (if code then e.ex else e.rd) then
          match s.replica core ctx a with
          | some (r, _) => .word (r.bytes a n)
          | none =>
            .fill k h.chip { ctx := ctx, home := h.core, chip := s.chip, core := core, holder := some (s.l1Of core (a / 128)), epoch := s.epoch (dieOf core)
                             code := code, strict := true, sx := false, lane := noLane a n }
        else if (s.rT tk).fresh = some (freshKey h.chip key) then .fault .permission 0
        else .probe { p with again := true }

/-- A word of code at a core (R58). -/
def State.codeWord (s : State) (core ctx tk a : Nat) : CodeWord := s.sealedAt core ctx tk true a

/-- Whether a word ties the next word of its packet to itself: C = 1 or a prefix (R42). -/
def ties (w : Nat) : Bool := bit w 31 || majorOf w == 63

/-- Whether an address is a chain head (R42); a word before it that cannot be fetched does not count against it. -/
def State.chainHead (s : State) (core ctx tk a : Nat) : Bool :=
  if a % 12 = 0 then true
  else if a % 4 ≠ 0 then false
  else match s.codeWord core ctx tk (a - 4) with
    | .word w => !ties w
    | _ => true

/-- What must come before a core can say whether an address is a chain head: the word before it in its packet. -/
def State.headNeeds (s : State) (core ctx tk a : Nat) : Option CodeWord :=
  if a % 12 = 0 ∨ a % 4 ≠ 0 then none
  else match s.codeWord core ctx tk (a - 4) with
    | .probe p => some (.probe p)
    | .fill k c f => some (.fill k c f)
    | _ => none

/-- Whether the core finds an unchained NOP at an address. -/
def State.nopAt (s : State) (core ctx tk a : Nat) : Bool := s.codeWord core ctx tk a == .word 0x02000000

/-- The chain head at which a thread at `a` issues next: an unchained NOP with only NOP chains after it in its packet is skipped (R42). -/
def State.skipNops (s : State) (core ctx tk : Nat) : Nat → Nat → Nat
  | 0, a => a
  | n + 1, a =>
    if (List.range (3 - a / 4 % 3)).all fun i => s.nopAt core ctx tk (a + 4 * i) then s.skipNops core ctx tk n (a / 12 * 12 + 12) else a

/-- The first check of R97 that a target fails: the cause, ADDR and INFO. -/
def State.targetFault (s : State) (tk a : Nat) : Option (Cause × Word × Word) :=
  let t := s.T tk
  if a % 4 ≠ 0 then some (.misaligned, W a, 0)
  else if !s.inCode t a || decide (2 ^ 56 ≤ a) then some (.permission, W a, 5)
  else if !s.chainHead (coreOfTk tk) t.ctx tk a then some (.illegalChain, W a, 0)
  else none

/-- What a thread must wait for before the checks of R97 on a target can be made. -/
def State.targetNeeds (s : State) (tk a : Nat) : Option CodeWord := s.headNeeds (coreOfTk tk) (s.T tk).ctx tk a

/-- The chain head at which a thread issues next (R42). -/
def State.nextHead (s : State) (tk : Nat) : Nat := s.skipNops (coreOfTk tk) (s.T tk).ctx tk (2 ^ 28) (s.T tk).pc.toNat

/-- The code of a device state (R424). -/
def DSt.num : DSt → Nat
  | .ambient => 0 | .cooling => 1 | .coldSettle => 2 | .ready => 3 | .run => 4 | .excursion => 5 | .hold => 6 | .warming => 7 | .fault => 8
/-- BAND (R422). -/
def Dev.bandReg (d : Dev) : Word :=
  W (d.tmax % 2 ^ 12 * 2 ^ 36 + d.dstate.num * 2 ^ 24 + d.changes % 2 ^ 16 * 2 ^ 8 + b2n d.pend * 8 + d.band)

/-! ### Traps (18 R372-R379) -/

/-- The clock of a core (R423). -/
def State.clockOf (s : State) (c : Nat) : Nat := (s.core c).clock

/-- The thread made BLOCKED for a reason (R67). -/
def State.block (s : State) (tk : Nat) (w : Wait) : State := s.modT tk fun t => { t with st := .blocked, wait := w }

/-- The ESCALATED record of a thread (R381, R382). -/
def Thr.record (t : Thr) (tk kind : Nat) (c : Cause) (addr pc info : Word) : FRec :=
  { kind := kind, cause := c, core := coreOfTk tk, slot := slotOfTk tk, kern := t.ktab.toNat, tkind := t.kind.toNat, ring := 0
    number := t.number.toNat, lmask := 0, addr := addr, pc := pc, info := info, page := 0, aux0 := 0, aux1 := 0 }

/-- Escalate (R379): the thread is TRAPPED and an ESCALATED record goes to its context's fault queue. -/
def State.escalate (s : State) (tk : Nat) (c : Cause) (pc : BitVec 56) (addr info : Word) : State :=
  let t := s.T tk
  let s := s.setT tk { t with st := .trapped, wait := .none, pc := pc, esc := some ⟨c.num, addr, info⟩, fresh := none, got := [] }
  if t.fw then s else s.post .faultRecordWrite (.frec t.ctx (t.record tk 2 c addr (pc.setWidth 64) info))

/-- TakeTrap of R374 once the locks have resolved. -/
def State.trapNow (s : State) (tk : Nat) (i : TrapInfo) : State :=
  let t := s.T tk
  if i.cause = .uncorrectable then s.escalate tk i.cause i.pc i.addr i.info
  else if 4 ≤ t.frames.length then s.escalate tk .trapStackOverflow i.pc i.addr (W i.cause.num)
  else if t.handler = 0 ∨ (s.targetFault tk t.handler.toNat).isSome then s.escalate tk i.cause i.pc i.addr i.info
  else s.setT tk { t with
    frames := ⟨i.pc, i.word, i.cause, i.addr, i.info⟩ :: t.frames
    view := 0, pc := t.handler, st := .ready, wait := .none, readyAt := s.clockOf (coreOfTk tk), fresh := none, got := [] }

/-- The traps of a list taken in order; after an escalation the rest stay pending. -/
def State.trapAll (s : State) (tk : Nat) : List TrapInfo → State
  | [] => s
  | i :: r =>
    if (s.T tk).st = .trapped then s.modT tk fun t => { t with ptrap := i :: r } else (s.trapNow tk i).trapAll tk r

/-- A thread waits for a line (R171); one fill of a half line is enough for the threads of a core that miss it. -/
def State.needLine (s : State) (tk k chip : Nat) (f : Fill) : State :=
  let same (w : Wait) : Bool := match w with
    | .line k' => k' % 2 == k % 2 && k' / 128 == k / 128
    | _ => false
  let asked := s.thr.any fun x => coreOfTk x.1 == f.core && x.2.ctx == f.ctx && x.2.st == .blocked && same x.2.wait
  let s := s.block tk (.line k)
  if asked then s else s.sendFill chip f

/-- A thread waits for a probe of a page (R184); one probe is enough for the lanes that miss it. -/
def State.needProbe (s : State) (p : Probe) : State :=
  let asked := !p.again && s.thr.any fun x => coreOfTk x.1 == p.src && x.2.ctx == p.ctx && x.2.st == .blocked && x.2.wait == .probe p.chip p.key false
  let s := s.block p.tk (.probe p.chip p.key p.again)
  if asked then s else s.send p.src p.chip p.home .permissionProbe (.probe p)

/-- A thread waits for what its core lacks. -/
def State.seek (s : State) (tk : Nat) : CodeWord → State
  | .probe p => s.needProbe { p with tk := tk }
  | .fill k chip f => s.needLine tk k chip f
  | _ => s

/-- Whether the first pending trap of a thread does not go to its handler: UNCORRECTABLE, or a fifth frame (R374, R379). -/
def Thr.stays (t : Thr) : Bool := decide (4 ≤ t.frames.length) || (match t.ptrap with
  | i :: _ => i.cause == .uncorrectable
  | [] => false)

/-- The pending traps of a thread at a chain boundary: a thread that holds locks waits for them first (R374), and one whose core does not yet hold
the word that tells whether its handler is a chain head waits for that. -/
def State.takePending (s : State) (tk : Nat) : State :=
  let t := s.T tk
  if t.locks ≠ [] then s.block tk .trap
  else match if t.stays ∨ t.handler = 0 ∨ (s.targetFault tk t.handler.toNat).isSome then none else s.targetNeeds tk t.handler.toNat with
    | some w => s.seek tk w
    | none => (s.setT tk { t with ptrap := [] }).trapAll tk t.ptrap

/-- TakeTrap of R374. -/
def State.takeTrap (s : State) (tk : Nat) (i : TrapInfo) : State :=
  (s.modT tk fun t => { t with ptrap := t.ptrap ++ [i] }).takePending tk

/-- The thread made READY at the clock of its core (R67, R80); traps that waited for this chain boundary are taken instead (R377). -/
def State.wake (s : State) (tk : Nat) : State :=
  if (s.T tk).ptrap = [] then s.modT tk fun t => { t with st := .ready, wait := .none, readyAt := s.clockOf (coreOfTk tk) }
  else s.takePending tk

/-- Return from a handler (R376): DEPTH - 1, VIEW 0, and the thread's next chain head is the frame PC. -/
def State.trapReturn (s : State) (tk : Nat) : State :=
  s.modT tk fun t => match t.frames with
    | [] => t
    | f :: r => { t with frames := r, view := 0, pc := f.pc, fresh := none, got := [] }

/-! ### The chain being issued -/

/-- A lane leaves the chain. -/
def State.dropLane (s : State) (l : LaneRef) (d : Drop) : State :=
  { s with iss := { s.iss with lanes := s.iss.lanes.filter (· != l), drops := s.iss.drops ++ [(l, d)] } }

/-- What becomes of a lane that left the chain: its trap, its wait, a line of its code, or a probe of its page (R184). -/
def State.applyDrop (s : State) (l : LaneRef) (d : Drop) : State :=
  match d with
  | .trap i => s.takeTrap l.tk i
  | .hold w => s.block l.tk w
  | .probe p => s.needProbe { p with tk := l.tk }
  | .line k chip f => s.needLine l.tk k chip f

/-- A lane dropped from the chain for a reason. -/
def State.drop (s : State) (l : LaneRef) (d : Drop) : State := (s.applyDrop l d).dropLane l d

/-- An issue-time cause of the word in one lane (R57): the chain is suppressed in that lane, which takes the trap. -/
def State.fail (s : State) (l : LaneRef) (c : Cause) (addr info : Word) : State :=
  s.drop l (.trap { cause := c, pc := s.iss.pc, addr := addr, info := info, word := s.iss.widx })

/-- A cause raised in every issuing lane. -/
def State.failAll (s : State) (c : Cause) (addr info : Word) : State :=
  s.iss.lanes.foldl (fun s l => s.fail l c addr info) s

/-- A lane that waits and issues the chain again later (R184, R143, R156). -/
def State.hold (s : State) (l : LaneRef) (w : Wait) : State := s.drop l (.hold w)

/-- A lane stopped by what its core finds for a word of a sealed page at an address (R58, R184): the trap, or the probe or fill it waits for. -/
def State.stopFor (s : State) (l : LaneRef) (a : Nat) (w : CodeWord) : State :=
  match w with
  | .word _ => s
  | .fault c i => s.fail l c (W a) (W i)
  | .probe p => s.drop l (.probe { p with tk := l.tk })
  | .fill k chip f => s.drop l (.line k chip f)

/-- A lane turns to a target that passes the checks of R97, once its core holds what they need. -/
def State.toward (s : State) (l : LaneRef) (a : Nat) (bad : Cause × Word × Word → State) (go : State) : State :=
  match s.targetFault l.tk a with
  | some x => bad x
  | none => match s.targetNeeds l.tk a with
    | some w => s.stopFor l (a - 4) w
    | none => go

/-- Whether the issuers are roaming threads: neither a crew nor firmware. -/
def State.roaming (s : State) : Bool := s.iss.crew.isNone

/-- Whether the issuers are firmware threads (R384). -/
def State.firmware (s : State) : Bool := s.iss.ctx == Config.fwCtx

/-- The thread left out of every bin for n cycles after this one (R89, R140). -/
def State.quiet (s : State) (tk n : Nat) : State :=
  s.modT tk fun t => { t with noIssue := max t.noIssue (s.clockOf (coreOfTk tk) + 1 + n) }

/-- Whether a codeword has a byte in a range of keys. -/
def touches (p : Nat × Nat) (key n : Nat) : Bool := decide (key < p.1 + p.2 ∧ p.1 < key + n)
/-- Whether a range of keys holds a byte of a poisoned codeword (R431). -/
def State.poisoned (s : State) (key n : Nat) : Bool := s.poison.any fun p => touches p key n
/-- Whether a write of a range leaves a poisoned codeword partly written (R431). -/
def State.partPoison (s : State) (key n : Nat) : Bool := s.poison.any fun p => touches p key n && !decide (key ≤ p.1 ∧ p.1 + p.2 ≤ key + n)
/-- Poison cleared by a write that covers its whole codeword (R431). -/
def State.cleanse (s : State) (key n : Nat) : State := { s with poison := s.poison.filter fun p => !decide (key ≤ p.1 ∧ p.1 + p.2 ≤ key + n) }
/-- A codeword poisoned (R431). -/
def State.poisonAt (s : State) (key n : Nat) : State := { s with poison := ((key, n) :: s.poison).eraseDups }
/-- Poison that goes with bytes copied from one place to another. -/
def State.carryPoison (s : State) (a b n : Nat) : State :=
  { s with poison := s.poison ++ (s.poison.filter fun p => touches p a n).map fun p => (b + p.1 - a, p.2) }

/-- Bytes of a crew's scratchpad share (R177). -/
def State.shareRd (s : State) (ck o n : Nat) : Nat := memRdN s.mem (spadKey (coreOfCk ck) ((s.C ck).spBase + o)) n
/-- A written word of the share is marked in the bound range that holds it (R178). -/
def Crew.mark (c : Crew) (o : Nat) : Crew :=
  { c with bind := c.bind.map fun b =>
      if b.spoff ≤ o ∧ o < b.spoff + b.blen then { b with marks := (b.marks ++ [o / 8 * 8]).eraseDups } else b }
/-- Bytes of one word of a crew's scratchpad share written, the word marked. -/
def State.shareWr (s : State) (ck o n v : Nat) : State :=
  (s.wrMem (spadKey (coreOfCk ck) ((s.C ck).spBase + o)) n v).modC ck (·.mark o)

/-- Release of the rejoin registers of a crew whose enrolled lanes are all parked (R150). -/
def State.rejoinTest (s : State) (ck : Nat) : State :=
  (List.range 8).foldl (fun s n =>
    let r := (s.C ck).jr n
    if r.parked ≠ 0 ∧ r.enrolled &&& ~~~r.parked = 0 then
      let s := (List.range 32).foldl (fun s l => if bit r.parked.toNat l then s.wake (laneTk ck l) else s) s
      s.modC ck (·.setJ n ⟨0, 0⟩)
    else s) s

/-- A lane struck from every rejoin register (R151). -/
def Crew.strikeAll (c : Crew) (l : Nat) : Crew :=
  let m : BitVec 32 := ~~~(BitVec.ofNat 32 (2 ^ l))
  { c with j := c.j.map fun r => ⟨r.parked &&& m, r.enrolled &&& m⟩ }

end Sys2Proof.Machine
end

