-- ==== Sys2Proof/Machine/Operands.lean ====
section
/-! DEFINITION. Operand forms and active lanes (03 R45-R55, 05 R84-R86, 06 R140, R141), the checks of classes 2 to 4 of R57, and the frame
that every instruction word runs in. -/

namespace Sys2Proof.Machine
open Sys2Proof

/-! ### The checks of classes 2 to 4 (R57) -/

/-- Whether the prefix in force may stand before a word (R54, R55). -/
def State.prefixOk (s : State) (i : Instr) : Bool :=
  match s.iss.pfx with
  | .none => true
  | .arith p => arithPrefixOk p i
  | .mem p => memPrefixOk p i

/-- The first cause of classes 2 to 4 that a word raises for its issuers (R57). -/
def State.staticFault (s : State) (i : Instr) : Option Cause :=
  if !i.wf || !s.prefixOk i then some .illegalInstr
  else if i.major == 0x38 && !s.firmware then some .privileged
  else if (match i with | .snap _ => !(s.ctx s.iss.ctx).snap | _ => false) then some .privileged
  else if i.crewOnly && s.roaming then some .crewOnly
  else if i.roamOnly && !s.roaming then some .roamOnly
  else none

/-- The state with no prefix in force: a prefix modifies the one word after it (R54). -/
def State.endWord (s : State) : State := { s with iss := { s.iss with pfx := .none } }

/-- An instruction word: the checks of classes 2 to 4, then its effect in the issuing lanes that are left. -/
def word (i : Instr) (s : State) (k : State → State) : Host.Outcome State Fault Refusal :=
  .next (match s.staticFault i with
    | some c => (s.failAll c 0 0).endWord
    | none => (k s).endWord)

/-! ### Active lanes (R84) -/

/-- The mask of the prefix's KM field at a lane position: k0 or no prefix enables every lane (R55). -/
def State.kmOf (s : State) (l : LaneRef) : Bool :=
  let on (k : Nat) : Bool := k == 0 || (match s.iss.crew with
    | some ck => bit ((s.rC ck).kr k).toNat l.pos
    | none => true)
  match s.iss.pfx with
  | .none => true
  | .arith p => on p.k.toNat
  | .mem p => on p.k.toNat

/-- The MZ bit of the prefix in force. -/
def State.mz (s : State) : Bool :=
  match s.iss.pfx with
  | .none => false
  | .arith p => p.z.toNat == 1
  | .mem p => p.z.toNat == 1

/-- Whether an issuing lane is active for a word with predicate bit `pr` (R84). -/
def State.active (s : State) (pr : Bool) (l : LaneRef) : Bool := s.kmOf l && (!pr || (s.rT l.tk).top)

/-- The rounding mode of a word in a thread (R24). -/
def State.rmode (s : State) (t : Thr) : Nat :=
  match s.iss.pfx with
  | .arith p => if p.r.toNat = 0 then t.rmode.toNat else p.r.toNat
  | _ => t.rmode.toNat

/-- An effect in every issuing lane, in ascending order of the list. -/
def State.eachLane (s : State) (f : State → LaneRef → State) : State := s.iss.lanes.foldl f s

/-! ### Register results of one lane -/

/-- What a word computes in one lane: the register value, the flags, and the generator's new state if it drew. -/
structure LaneRes where
  v : Word
  fl : Flags
  srng : Option Word
  deriving DecidableEq, Repr

/-- A lane result committed: the destination, the flags and the generator (R84, R132). -/
def Thr.commit (t : Thr) (d : Nat) (r : LaneRes) : Thr :=
  let t := (t.setG d r.v).raise r.fl
  match r.srng with
  | some x => { t with srng := x }
  | none => t

/-- A thread as a drawing word reads it: its generator has advanced by the draws of earlier words of the chain (R132). -/
def State.drawT (s : State) (tk : Nat) : Thr :=
  match s.iss.draws.find? (·.1 == tk) with
  | some x => { s.rT tk with srng := x.2 }
  | none => s.rT tk
/-- The generator of a thread after a word's draws. -/
def State.drew (s : State) (tk : Nat) (x : Option Word) : State :=
  match x with
  | some y => { s with iss := { s.iss with draws := (tk, y) :: s.iss.draws } }
  | none => s

/-- A word that writes g[d] in its active lanes and, with MZ = 1, zero in the others (R84). -/
def State.laneOp (s : State) (d : Nat) (pr : Bool) (f : Thr → LaneRes) : State :=
  s.eachLane fun s l =>
    if s.active pr l then (s.modT l.tk (·.commit d (f (s.drawT l.tk)))).drew l.tk (f (s.drawT l.tk)).srng
    else if s.mz then s.wrG l.tk d 0 else s

/-! ### Elements (R18, R51, R86) -/

/-- Element k of width w. -/
def elemAt (w k : Nat) (x : Word) : Nat := x.toNat / 2 ^ (w * k) % 2 ^ w
/-- Elements of width w put together, element 0 lowest. -/
def packElems (w : Nat) : List Nat → Nat
  | [] => 0
  | x :: t => x % 2 ^ w + 2 ^ w * packElems w t
/-- An integer result in its register: i32 sign-extended, n32 zero-extended (R18). -/
def extInt (t : Nat) (n : Nat) : Word := if t = 0 then BitVec.ofInt 64 (sgn 32 n) else W n
/-- The union of element flags. -/
def unionFlags (l : List FR) : Flags := l.foldl (fun a r => a ||| r.fl) 0

/-- An integer word of two sources: element by element (R86). -/
def intBin (t : Nat) (f : Nat → Bool → Nat → Nat → FR) (a : Word) (b : Nat → Nat) : LaneRes :=
  let w := intW t
  let rs := (List.range (intN t)).map fun k => f w (intS t) (elemAt w k a) (b k)
  ⟨extInt t (packElems w (rs.map (·.bits))), unionFlags rs, none⟩

/-- Operand B of an integer L3 word (R48, R85): register, broadcast of element 0, or the signed immediate. -/
def intB (t : Nat) (m : BitVec 2) (b : BitVec 5) (x : Thr) : Nat → Nat := fun k =>
  let w := intW t
  if m.toNat = 2 then wrapI w (sgn 5 b.toNat)
  else if m.toNat = 1 then elemAt w 0 (x.gr b.toNat)
  else elemAt w k (x.gr b.toNat)

/-- Format of a float type code (R51). -/
def fltF (t : Nat) : Fmt := if t = 1 then f64F else if t = 3 then bf16F else if t = 4 then f16F else f32F
/-- Elements of a float type code. -/
def fltN (t : Nat) : Nat := if t ≤ 1 then 1 else if t = 2 then 2 else 4

/-- Operand B of a float L3 word: the immediate is converted exactly to the element type (R85). -/
def fltB (t : Nat) (m : BitVec 2) (b : BitVec 5) (x : Thr) : Nat → Nat := fun k =>
  let w := (fltF t).width
  if m.toNat = 2 then (ofIntF (fltF t) 1 0 (sgn 5 b.toNat)).bits
  else if m.toNat = 1 then elemAt w 0 (x.gr b.toNat)
  else elemAt w k (x.gr b.toNat)

/-- n element results in ascending order, each with its own draw in stochastic mode (R27). -/
def drawGo (mode : Nat) (f : Nat → Nat → FR) : Nat → Nat → Word → List FR × Word
  | 0, _, x => ([], x)
  | n + 1, k, x =>
    let (x', r) := if mode = 6 then nextDraw x else (x, 0)
    let (t, y) := drawGo mode f n (k + 1) x'
    (f k r :: t, y)

/-- n rounded elements of width w as a lane result. -/
def rounded (mode w n : Nat) (x : Thr) (f : Nat → Nat → FR) : LaneRes :=
  let (rs, y) := drawGo mode f n 0 x.srng
  ⟨W (packElems w (rs.map (·.bits))), unionFlags rs, if mode = 6 then some y else none⟩

/-- Element results that round nothing and draw nothing. -/
def unrounded (w n : Nat) (f : Nat → FR) : LaneRes :=
  let rs := (List.range n).map f
  ⟨W (packElems w (rs.map (·.bits))), unionFlags rs, none⟩

/-! ### Scalar operands (R49, R135, R140, R141) -/

/-- The lowest-numbered issuing lane. -/
def State.lowLane (s : State) : LaneRef :=
  s.iss.lanes.foldl (fun a l => if l.pos < a.pos then l else a) (s.iss.lanes.headD ⟨0, 0⟩)

/-- Where launch constant k of a thread's kernel lies; there is none from NSCAL on (R323). -/
def State.constAt (s : State) (t : Thr) (k : Nat) : Option Nat :=
  match s.kent t.ctx t.ktab.toNat with
  | some e => if k < e.nscal then some (e.lconst + 8 * k) else none
  | none => none

/-- Launch constant k of a roaming thread's kernel (R323): the chain issues only once its core holds it. Of a block that software does not keep sealed
the value is free (log 12). -/
def State.launchConst (s : State) (tk k : Nat) : Word :=
  let t := s.rT tk
  match s.constAt t k with
  | none => 0
  | some a => match s.sealedAt s.iss.core t.ctx tk false a with
    | .word w => W w
    | _ => W (Config.looseConst s.tick a)

/-- The value of an operand code in a lane (R49): s, k and g codes; a roaming thread's s codes are launch constants (R141). -/
def State.code (s : State) (c : BitVec 8) (tk : Nat) : Word :=
  if isS c then (match s.iss.crew with
    | some ck => (s.rC ck).sr c.toNat
    | none => s.launchConst tk c.toNat)
  else if isK c then (match s.iss.crew with
    | some ck => ((s.rC ck).kr (c.toNat - 160)).setWidth 64
    | none => 0)
  else (s.rT tk).gr (c.toNat - 184)

/-- A uniform destination written once: an s or a k register (R135, R140). -/
def State.wrUni (s : State) (c : BitVec 8) (v : Word) : State :=
  match s.iss.crew with
  | some ck => s.modC ck fun x => if isS c then x.setS c.toNat v else x.setK (c.toNat - 160) (v.setWidth 32)
  | none => s

/-- Scalar register n of a parameter block as the chain reads it. -/
def State.sreg (s : State) (n : Nat) : Word :=
  match s.iss.crew with
  | some ck => (s.rC ck).sr n
  | none => s.launchConst s.lowLane.tk n

/-- A thread's lock on one of its registers (R156). -/
def Thr.lockedG (t : Thr) (n : Nat) : Bool := t.locks.any fun k => bit k.regs n

end Sys2Proof.Machine
end

