-- ==== Sys2Proof/Machine/Locks.lean ====
section
/-! DEFINITION. Lookahead locks of long-latency words and the delivery of their results (03 R56, 05 R130). -/

namespace Sys2Proof.Machine
open Sys2Proof

/-- A long-latency word of fixed latency N: every issuing lane holds a lock; an active lane's result and flags are delivered N cycles
after issue, and an inactive lane's lock is released with them, or at the end of the issue cycle when no lane is active. -/
def State.fixedLatency (s : State) (d n : Nat) (pr : Bool) (look : Nat) (f : Thr → LaneRes) : State :=
  let now := s.clockOf s.iss.core
  let anyActive := s.iss.lanes.any (s.active pr)
  let due := if anyActive then now + n else now
  let id := s.ids
  (s.eachLane fun s l =>
    let on := s.active pr l
    let r := f (s.drawT l.tk)
    let val := if on then some r.v else if s.mz then some 0 else none
    State.drew (s.modT l.tk fun t =>
      let t := { t with locks := t.locks ++ [{ id := id, d := d, regs := gbit d ||| flagsBit, left := look, active := on
                                               due := some due, val := val, fl := if on then r.fl else 0 }] }
      match on, r.srng with
      | true, some x => { t with srng := x }
      | _, _ => t) l.tk (if on then r.srng else none)).fresh

/-- What a thread waiting for its locks does once one is gone (R56, R67, R374): a chain that waited is tried again, a pending trap is
taken when the last lock is gone. -/
def State.afterUnlock (s : State) (tk : Nat) : State :=
  let t := s.T tk
  if t.st ≠ .blocked then s else
  match t.wait with
  | .window => s.wake tk
  | .trap => if t.locks = [] then s.post .takeTrap (.thread tk) else s
  | _ => s

/-- A lane's lock of one word released, its value and flags written (R56). -/
def State.release (s : State) (tk id : Nat) : State :=
  let t := s.T tk
  match t.locks.find? (·.id == id) with
  | none => s
  | some k =>
    let t := { t with locks := t.locks.filter (·.id != id) }
    let t := match k.val with
      | some v => t.setG k.d v
      | none => t
    s.setT tk (t.raise k.fl)

end Sys2Proof.Machine
end

