-- ==== Sys2Proof/Machine/Integer.lean ====
section
/-! DEFINITION. Integer lane words (05 R101-R112): INT3, INT3B, INTI, SHI, ICMP, MOV. -/

namespace Sys2Proof.Machine
open Sys2Proof

/-- A two-source integer word whose 32-bit result is extended by its type (R102, R18). -/
def State.int3 (s : State) (f : L3F) (op : Nat → Bool → Nat → Nat → FR) : State :=
  s.laneOp f.d.toNat (f.p == 1) fun t => intBin f.t.toNat op (t.gr f.a.toNat) (intB f.t.toNat f.m f.b t)

/-- A one-source integer word; `ext` extends a 32-bit result by its type, otherwise it is zero-extended (R104). -/
def State.int1 (s : State) (f : UnF) (ext : Bool) (op : Nat → Bool → Nat → FR) : State :=
  s.laneOp f.d.toNat (f.p == 1) fun t =>
    let r := intBin f.t.toNat (fun w sg a _ => op w sg a) (t.gr f.a.toNat) (fun _ => 0)
    if ext || decide (2 ≤ f.t.toNat) then r else { r with v := W (r.v.toNat % 2 ^ 32) }

/-- DIV and REM: 34 cycles for i64 and n64, 18 for the other types (R130). -/
def State.divOp (s : State) (f : LongF) (op : Nat → Bool → Nat → Nat → FR) : State :=
  s.fixedLatency f.d.toNat (if f.t.toNat = 2 ∨ f.t.toNat = 3 then 34 else 18) (f.p == 1) f.l.toNat fun t =>
    intBin f.t.toNat op (t.gr f.a.toNat) (intB f.t.toNat 0 f.b t)

/-- An LI word on i64 with the sign-extended IMM12 (R110). -/
def State.immOp (s : State) (f : LiF) (op : Nat → Bool → Nat → Nat → FR) : State :=
  s.laneOp f.d.toNat (f.p == 1) fun t => intBin 2 op (t.gr f.a.toNat) (fun _ => wrapI 64 (sgn 12 f.i.toNat))

/-- The width of the low-half elements of MULW, PACK and UNPK (R105, R108). -/
def lowW (t : Nat) : Nat := if t ≤ 1 then 32 else if t ≤ 5 then 16 else 8

/-- MULW (R105). -/
def mulwRes (t : Nat) (a : Word) (b : Nat → Nat) : LaneRes :=
  let w := lowW t
  let rs := (List.range (32 / w)).map fun k => wrapI (2 * w) (ival w (intS t) (elemAt w k a) * ival w (intS t) (b k))
  ⟨W (packElems (2 * w) rs), 0, none⟩

/-- PACK (R108). -/
def packRes (t : Nat) (a b : Word) : LaneRes :=
  let w := lowW t
  let n := 32 / w
  let rs := (List.range n).map (fun k => satR w (intS t) (ival (2 * w) (intS t) (elemAt (2 * w) k a)))
    ++ (List.range n).map (fun k => satR w (intS t) (ival (2 * w) (intS t) (elemAt (2 * w) k b)))
  ⟨W (packElems w (rs.map (·.bits))), unionFlags rs, none⟩

/-- UNPK (R108). -/
def unpkRes (t : Nat) (a : Word) : LaneRes :=
  let w := lowW t
  ⟨W (packElems (2 * w) ((List.range (32 / w)).map fun k => wrapI (2 * w) (ival w (intS t) (elemAt w k a)))), 0, none⟩

/-- The result of ICMP: all ones or zero an element; 32-bit types repeat the bit in all 64 (R112). -/
def icmpRes (t k : Nat) (a b : Word) : LaneRes :=
  let w := intW t
  if t ≤ 1 then ⟨if icmpE w (intS t) k (elemAt w 0 a) (elemAt w 0 b) then ones else 0, 0, none⟩
  else ⟨W (packElems w ((List.range (intN t)).map fun i =>
    if icmpE w (intS t) k (elemAt w i a) (elemAt w i b) then 2 ^ w - 1 else 0)), 0, none⟩

/-- A push in every issuing lane of (condition AND top); an inactive lane pushes 0 (R99). The depth tested is the one the chain's earlier
words left. -/
def State.pushOp (s : State) (pr : Bool) (c : Thr → Bool × Flags) : State :=
  s.eachLane fun s l =>
    if 16 ≤ (s.T l.tk).pdepth then s.fail l .predOverflow 0 0
    else
      let t := s.rT l.tk
      let r := c t
      if s.active pr l then s.modT l.tk fun x => (x.push (r.1 && t.top)).raise r.2
      else s.modT l.tk fun x => x.push false

/-- ADD (R102). -/
def execAdd (f : L3F) (s : State) : Host.Outcome State Fault Refusal :=
  word (.add f) s fun s => s.int3 f addE

/-- SUB (R102). -/
def execSub (f : L3F) (s : State) : Host.Outcome State Fault Refusal :=
  word (.sub f) s fun s => s.int3 f subE

/-- MUL (R102). -/
def execMul (f : L3F) (s : State) : Host.Outcome State Fault Refusal :=
  word (.mul f) s fun s => s.int3 f mulE

/-- MULH (R102). -/
def execMulh (f : L3F) (s : State) : Host.Outcome State Fault Refusal :=
  word (.mulh f) s fun s => s.int3 f mulhE

/-- AND (R102). -/
def execAndW (f : L3F) (s : State) : Host.Outcome State Fault Refusal :=
  word (.andW f) s fun s => s.int3 f andE

/-- OR (R102). -/
def execOrW (f : L3F) (s : State) : Host.Outcome State Fault Refusal :=
  word (.orW f) s fun s => s.int3 f orE

/-- XOR (R102). -/
def execXorW (f : L3F) (s : State) : Host.Outcome State Fault Refusal :=
  word (.xorW f) s fun s => s.int3 f xorE

/-- ANDN (R102). -/
def execAndn (f : L3F) (s : State) : Host.Outcome State Fault Refusal :=
  word (.andn f) s fun s => s.int3 f andnE

/-- SHL (R102, R103). -/
def execShl (f : L3F) (s : State) : Host.Outcome State Fault Refusal :=
  word (.shl f) s fun s => s.int3 f shlE

/-- SHR (R102, R103). -/
def execShr (f : L3F) (s : State) : Host.Outcome State Fault Refusal :=
  word (.shr f) s fun s => s.int3 f shrE

/-- SAR (R102, R103). -/
def execSar (f : L3F) (s : State) : Host.Outcome State Fault Refusal :=
  word (.sar f) s fun s => s.int3 f sarE

/-- ROT (R102, R103). -/
def execRot (f : L3F) (s : State) : Host.Outcome State Fault Refusal :=
  word (.rot f) s fun s => s.int3 f rotE

/-- MIN (R102). -/
def execMinW (f : L3F) (s : State) : Host.Outcome State Fault Refusal :=
  word (.minW f) s fun s => s.int3 f minE

/-- MAX (R102). -/
def execMaxW (f : L3F) (s : State) : Host.Outcome State Fault Refusal :=
  word (.maxW f) s fun s => s.int3 f maxE

/-- ADDSAT (R102). -/
def execAddsat (f : L3F) (s : State) : Host.Outcome State Fault Refusal :=
  word (.addsat f) s fun s => s.int3 f addsatE

/-- SEL (R102): a where the top is 1, else b. -/
def execSel (f : SelF) (s : State) : Host.Outcome State Fault Refusal :=
  word (.sel f) s fun s => s.laneOp f.d.toNat false fun t =>
    if t.top then intBin f.t.toNat (fun w _ a _ => ⟨a % 2 ^ w, 0⟩) (t.gr f.a.toNat) (fun _ => 0)
    else intBin f.t.toNat (fun w _ _ b => ⟨b % 2 ^ w, 0⟩) (t.gr f.a.toNat) (intB f.t.toNat f.m f.b t)

/-- DIV (R104, R109). -/
def execDiv (f : LongF) (s : State) : Host.Outcome State Fault Refusal :=
  word (.div f) s fun s => s.divOp f divE

/-- REM (R104, R109). -/
def execRem (f : LongF) (s : State) : Host.Outcome State Fault Refusal :=
  word (.rem f) s fun s => s.divOp f remE

/-- MULW (R105). -/
def execMulw (f : L3F) (s : State) : Host.Outcome State Fault Refusal :=
  word (.mulw f) s fun s => s.laneOp f.d.toNat (f.p == 1) fun t =>
    mulwRes f.t.toNat (t.gr f.a.toNat) (intB f.t.toNat f.m f.b t)

/-- ABSD (R104): the 32-bit result is zero-extended. -/
def execAbsd (f : L3F) (s : State) : Host.Outcome State Fault Refusal :=
  word (.absd f) s fun s => s.laneOp f.d.toNat (f.p == 1) fun t =>
    let r := intBin f.t.toNat absdE (t.gr f.a.toNat) (intB f.t.toNat f.m f.b t)
    if 2 ≤ f.t.toNat then r else { r with v := W (r.v.toNat % 2 ^ 32) }

/-- CLZ (R104). -/
def execClz (f : UnF) (s : State) : Host.Outcome State Fault Refusal :=
  word (.clz f) s fun s => s.int1 f false fun w _ a => ⟨clzE w a, 0⟩

/-- CTZ (R104). -/
def execCtz (f : UnF) (s : State) : Host.Outcome State Fault Refusal :=
  word (.ctz f) s fun s => s.int1 f false fun w _ a => ⟨ctzGo w a, 0⟩

/-- POPC (R104). -/
def execPopc (f : UnF) (s : State) : Host.Outcome State Fault Refusal :=
  word (.popc f) s fun s => s.int1 f false fun w _ a => ⟨popGo w a, 0⟩

/-- BREV (R104). -/
def execBrev (f : UnF) (s : State) : Host.Outcome State Fault Refusal :=
  word (.brev f) s fun s => s.int1 f false fun w _ a => ⟨revGo w a, 0⟩

/-- SWAPB (R104). -/
def execSwapb (f : UnF) (s : State) : Host.Outcome State Fault Refusal :=
  word (.swapb f) s fun s => s.int1 f true fun w _ a => ⟨swapGo (w / 8) a, 0⟩

/-- ABS (R104). -/
def execAbsW (f : UnF) (s : State) : Host.Outcome State Fault Refusal :=
  word (.absW f) s fun s => s.int1 f true absE

/-- NEG (R104). -/
def execNeg (f : UnF) (s : State) : Host.Outcome State Fault Refusal :=
  word (.neg f) s fun s => s.int1 f true negE

/-- BFX (R106). -/
def execBfx (f : L3NF) (s : State) : Host.Outcome State Fault Refusal :=
  word (.bfx f) s fun s => s.laneOp f.d.toNat (f.p == 1) fun t =>
    intBin f.t.toNat (fun w sg a _ => bfxE w sg a (elemAt w 0 (t.gr f.b.toNat))) (t.gr f.a.toNat) (fun _ => 0)

/-- BFI (R106): D is read too. -/
def execBfi (f : L3NF) (s : State) : Host.Outcome State Fault Refusal :=
  word (.bfi f) s fun s => s.laneOp f.d.toNat (f.p == 1) fun t =>
    intBin f.t.toNat (fun w _ a d => bfiE w d a (elemAt w 0 (t.gr f.b.toNat))) (t.gr f.a.toNat)
      (fun k => elemAt (intW f.t.toNat) k (t.gr f.d.toNat))

/-- LEA (R107). -/
def execLea (f : L3F) (s : State) : Host.Outcome State Fault Refusal :=
  word (.lea f) s fun s => s.laneOp f.d.toNat (f.p == 1) fun t =>
    let b : Word := if f.m.toNat = 2 then BitVec.ofInt 64 (sgn 5 f.b.toNat) else t.gr f.b.toNat
    ⟨t.gr f.a.toNat + b * W (intW f.t.toNat / 8), 0, none⟩

/-- PACK (R108). -/
def execPack (f : L3NF) (s : State) : Host.Outcome State Fault Refusal :=
  word (.pack f) s fun s => s.laneOp f.d.toNat (f.p == 1) fun t => packRes f.t.toNat (t.gr f.a.toNat) (t.gr f.b.toNat)

/-- UNPK (R108). -/
def execUnpk (f : UnF) (s : State) : Host.Outcome State Fault Refusal :=
  word (.unpk f) s fun s => s.laneOp f.d.toNat (f.p == 1) fun t => unpkRes f.t.toNat (t.gr f.a.toNat)

/-- ADDI (R110). -/
def execAddi (f : LiF) (s : State) : Host.Outcome State Fault Refusal :=
  word (.addi f) s fun s => s.immOp f addE

/-- ANDI (R110). -/
def execAndi (f : LiF) (s : State) : Host.Outcome State Fault Refusal :=
  word (.andi f) s fun s => s.immOp f andE

/-- ORI (R110). -/
def execOri (f : LiF) (s : State) : Host.Outcome State Fault Refusal :=
  word (.ori f) s fun s => s.immOp f orE

/-- XORI (R110). -/
def execXori (f : LiF) (s : State) : Host.Outcome State Fault Refusal :=
  word (.xori f) s fun s => s.immOp f xorE

/-- SHLI (R110). -/
def execShli (f : LiF) (s : State) : Host.Outcome State Fault Refusal :=
  word (.shli f) s fun s => s.immOp f shlE

/-- SHRI (R110). -/
def execShri (f : LiF) (s : State) : Host.Outcome State Fault Refusal :=
  word (.shri f) s fun s => s.immOp f shrE

/-- SARI (R110). -/
def execSari (f : LiF) (s : State) : Host.Outcome State Fault Refusal :=
  word (.sari f) s fun s => s.immOp f sarE

/-- ROTI (R110). -/
def execRoti (f : LiF) (s : State) : Host.Outcome State Fault Refusal :=
  word (.roti f) s fun s => s.immOp f rotE

/-- MOVZ (R111). -/
def execMovz (f : MovF) (s : State) : Host.Outcome State Fault Refusal :=
  word (.movz f) s fun s => s.laneOp f.d.toNat false fun _ => ⟨W (f.i.toNat * 2 ^ (16 * f.h.toNat)), 0, none⟩

/-- MOVK (R111): the other bits are kept. -/
def execMovk (f : MovF) (s : State) : Host.Outcome State Fault Refusal :=
  word (.movk f) s fun s => s.laneOp f.d.toNat false fun t =>
    let h := 2 ^ (16 * f.h.toNat)
    let x := (t.gr f.d.toNat).toNat
    ⟨W (x - x / h % 2 ^ 16 * h + f.i.toNat * h), 0, none⟩

/-- MOVN (R111). -/
def execMovn (f : MovF) (s : State) : Host.Outcome State Fault Refusal :=
  word (.movn f) s fun s => s.laneOp f.d.toNat false fun _ => ⟨~~~ W (f.i.toNat * 2 ^ (16 * f.h.toNat)), 0, none⟩

/-- ICMP (R112). -/
def execIcmp (f : CmpF) (s : State) : Host.Outcome State Fault Refusal :=
  word (.icmp f) s fun s => s.laneOp f.d.toNat (f.p == 1) fun t =>
    icmpRes f.t.toNat f.k.toNat (t.gr f.a.toNat) (t.gr f.b.toNat)

/-- ICMPP (R112, R99). -/
def execIcmpp (f : CmpPF) (s : State) : Host.Outcome State Fault Refusal :=
  word (.icmpp f) s fun s => s.pushOp (f.p == 1) fun t =>
    (icmpE (intW f.t.toNat) (intS f.t.toNat) f.k.toNat (t.gr f.a.toNat).toNat (t.gr f.b.toNat).toNat, 0)

end Sys2Proof.Machine
end

