-- ==== Sys2Proof/Machine/FloatOps.lean ====
section
/-! DEFINITION. Floating-point lane words (05 R113-R129): FP3, FMA, FCVT, FSPEC, FCMP. -/

namespace Sys2Proof.Machine
open Sys2Proof

/-- Cycles an f64 word holds the core's L pipe (R131): the next cycle's rank carries no L word. -/
def State.lUse (s : State) (f64 : Bool) : State :=
  if f64 then s.modCore s.iss.core fun c => { c with lBusy := c.clock + 1 } else s

/-- A rounding FP3 word (R113): `op F mode draw a b`. -/
def State.fp3 (s : State) (f : L3F) (op : Fmt → Nat → Nat → Nat → Nat → FR) : State :=
  let F := fltF f.t.toNat
  (s.laneOp f.d.toNat (f.p == 1) fun t =>
    rounded (s.rmode t) F.width (fltN f.t.toNat) t fun k r =>
      op F (s.rmode t) r (elemAt F.width k (t.gr f.a.toNat)) (fltB f.t.toNat f.m f.b t k)).lUse (f.t.toNat == 1)

/-- A non-rounding FP3 word. -/
def State.fp3n (s : State) (f : L3F) (op : Fmt → Nat → Nat → FR) : State :=
  let F := fltF f.t.toNat
  s.laneOp f.d.toNat (f.p == 1) fun t =>
    unrounded F.width (fltN f.t.toNat) fun k => op F (elemAt F.width k (t.gr f.a.toNat)) (fltB f.t.toNat f.m f.b t k)

/-- FSCALE's element of B: a signed integer of the element's width, or the immediate itself (R116). -/
def scaleB (t : Nat) (m : BitVec 2) (b : BitVec 5) (x : Thr) (k : Nat) : Int :=
  let w := (fltF t).width
  if m.toNat = 2 then sgn 5 b.toNat else sgn w (elemAt w (if m.toNat = 1 then 0 else k) (x.gr b.toNat))

/-- One rounded dot product of FDOT2 (R117). -/
def dot2F (F : Fmt) (mode r a0 b0 a1 b1 c : Nat) : FR :=
  let p := mulFV (unpackF F a0) (unpackF F b0)
  let q := mulFV (unpackF F a1) (unpackF F b1)
  sumF f32F mode r [p.1, q.1, unpackF f32F c] (p.2 || q.2)

/-- FDOT2 in one lane (R117); `c` is the F4 register, or 0. -/
def dot2Res (t mode : Nat) (x : Thr) (a : Word) (b : Nat → Nat) (c : Word) : LaneRes :=
  let F := fltF t
  let w := F.width
  let el k r := dot2F F mode r (elemAt w (2 * k) a) (b (2 * k)) (elemAt w (2 * k + 1) a) (b (2 * k + 1)) (elemAt 32 k c)
  rounded mode 32 (if t = 2 then 1 else 2) x el

/-- The F4 register of the prefix in force (R55). -/
def State.fourth (s : State) (t : Thr) : Word :=
  match s.iss.pfx with
  | .arith p => if p.v.toNat = 1 then t.gr p.e.toNat else 0
  | _ => 0

/-- FMA and FNMA (R118). -/
def State.fmaOp (s : State) (f : FmaF) (neg : Bool) : State :=
  let F := fltF f.t.toNat
  (s.laneOp f.d.toNat (f.p == 1) fun t =>
    rounded (s.rmode t) F.width (fltN f.t.toNat) t fun k r =>
      fmaF F (s.rmode t) r neg (elemAt F.width k (t.gr f.a.toNat)) (elemAt F.width k (t.gr f.b.toNat))
        (elemAt F.width k (t.gr f.e.toNat))).lUse (f.t.toNat == 1)

/-- CVTF in one lane (R120): destination code t, source code b, half m. -/
def cvtfRes (t b m mode : Nat) (x : Thr) (a d : Word) : LaneRes :=
  let F := fltF t
  let G := fltF b
  let base := 2 * m
  if 3 ≤ t ∧ b = 2 then
    let r := rounded mode 16 2 x fun k dr => convF F mode dr (unpackF G (elemAt 32 k a))
    let other := (List.range 4).map fun k =>
      if base ≤ k ∧ k < base + 2 then elemAt 16 (k - base) r.v else elemAt 16 k d
    { r with v := W (packElems 16 other) }
  else if t = 2 ∧ 3 ≤ b then
    rounded mode 32 2 x fun k dr => convF F mode dr (unpackF G (elemAt 16 (base + k) a))
  else rounded mode F.width (fltN t) x fun k dr => convF F mode dr (unpackF G (elemAt G.width k a))

/-- CVTFI in one lane (R121): integer code t, float code b. -/
def cvtfiRes (t b mode : Nat) (x : Thr) (a : Word) : LaneRes :=
  let F := fltF b
  let r := rounded mode (intW t) (intN t) x fun k dr => toIntF F mode dr (intW t) (intS t) (elemAt F.width k a)
  { r with v := extInt t r.v.toNat }

/-- CVTIF in one lane (R122): float code t, integer code b. -/
def cvtifRes (t b mode : Nat) (x : Thr) (a : Word) : LaneRes :=
  let F := fltF t
  rounded mode F.width (fltN t) x fun k dr => ofIntF F mode dr (ival (intW b) (intS b) (elemAt (intW b) k a))

/-- The format a CVTN or CVTW type names (R119). -/
def mxF (t : Nat) : Fmt := if t = 0 then e4m3F else if t = 1 then e5m2F else e2m1F

/-- Bit position of code j of slot p (R123). -/
def codePos (t p j : Nat) : Nat := if t = 2 then 8 * p + 4 * j else 16 * (p % 4) + 8 * j

/-- A field of w bits at bit i replaced. -/
def setField (x : Nat) (i w v : Nat) : Nat := x - x / 2 ^ i % 2 ^ w * 2 ^ i + v % 2 ^ w * 2 ^ i

/-- CVTN in one lane (R124): the control word is element 0 of B. -/
def cvtnRes (t mode : Nat) (x : Thr) (a ctl d : Word) : LaneRes :=
  let F := mxF t
  let w := F.width
  let r := rounded mode 8 2 x fun k dr =>
    if bit ctl.toNat 11 then narrowUnscaled F mode dr (elemAt 32 k a) else narrowScaled F mode dr (elemAt 32 k a) (bits ctl 7 0)
  let p := bits ctl 10 8
  { r with v := W (setField (setField d.toNat (codePos t p 0) w (elemAt 8 0 r.v)) (codePos t p 1) w (elemAt 8 1 r.v)) }

/-- CVTW in one lane (R125). -/
def cvtwRes (t : Nat) (a ctl : Word) : LaneRes :=
  let F := mxF t
  let ns := bit ctl.toNat 11
  let x8 := bits ctl 7 0
  unrounded 32 2 fun k =>
    if !ns && x8 == 0xff then nanR f32F 0
    else widenF F (a.toNat / 2 ^ codePos t (bits ctl 10 8) k % 2 ^ F.width) (if ns then 0 else (x8 : Int) - 127)

/-- Cycles to delivery of an FSPEC word (R130). -/
def specCycles (fn t : Nat) : Nat := if fn ≤ 1 then (if t = 1 then 10 else 8) else if fn ≤ 3 then 12 else 16

/-- One element of an FSPEC word (R36, R37): 0 FRCPS, 1 FRSQS, 2 FEXP2, 3 FLOG2, 4 FSIN, 5 FCOS. -/
def specElem (fn t a : Nat) : FR :=
  let F := fltF t
  let c (x : Nat) : Nat := Config.special fn t x
  let lift (g : Nat → FR) : FR := if 3 ≤ t then via32 F g a else g a
  match fn with
  | 0 => rcpF F (decide (3 ≤ t)) (c a) a
  | 1 => rsqF F (decide (3 ≤ t)) (c a) a
  | 2 => lift fun x => exp2F (c x) x
  | 3 => lift fun x => log2F (c x) x
  | 4 => lift fun x => trigF false (c x) x
  | _ => lift fun x => trigF true (c x) x

/-- An FSPEC word (R127): long-latency, one source. -/
def State.specOp (s : State) (f : SpecF) (fn : Nat) : State :=
  let F := fltF f.t.toNat
  (s.fixedLatency f.d.toNat (specCycles fn f.t.toNat) (f.p == 1) f.l.toNat fun t =>
    unrounded F.width (fltN f.t.toNat) fun k => specElem fn f.t.toNat (elemAt F.width k (t.gr f.a.toNat))).lUse (f.t.toNat == 1)

/-- FCMP in one lane (R128). -/
def fcmpRes (t k : Nat) (a b : Word) : LaneRes :=
  let F := fltF t
  let w := F.width
  let rs := (List.range (fltN t)).map fun i => cmpF F k (elemAt w i a) (elemAt w i b)
  let fl := rs.foldl (fun x r => x ||| r.2) 0
  if t = 0 then ⟨if rs.any (·.1) then ones else 0, fl, none⟩
  else ⟨W (packElems w (rs.map fun r => if r.1 then 2 ^ w - 1 else 0)), fl, none⟩

/-- FADD (R113). -/
def execFadd (f : L3F) (s : State) : Host.Outcome State Fault Refusal :=
  word (.fadd f) s fun s => s.fp3 f addF

/-- FSUB (R113). -/
def execFsub (f : L3F) (s : State) : Host.Outcome State Fault Refusal :=
  word (.fsub f) s fun s => s.fp3 f subF

/-- FMUL (R113). -/
def execFmul (f : L3F) (s : State) : Host.Outcome State Fault Refusal :=
  word (.fmul f) s fun s => s.fp3 f mulF

/-- FMIN (R114). -/
def execFmin (f : L3F) (s : State) : Host.Outcome State Fault Refusal :=
  word (.fmin f) s fun s => (s.fp3n f fun F => minmaxF F false false).lUse (f.t.toNat == 1)

/-- FMAX (R114). -/
def execFmax (f : L3F) (s : State) : Host.Outcome State Fault Refusal :=
  word (.fmax f) s fun s => (s.fp3n f fun F => minmaxF F true false).lUse (f.t.toNat == 1)

/-- FMINNUM (R114). -/
def execFminnum (f : L3F) (s : State) : Host.Outcome State Fault Refusal :=
  word (.fminnum f) s fun s => (s.fp3n f fun F => minmaxF F false true).lUse (f.t.toNat == 1)

/-- FMAXNUM (R114). -/
def execFmaxnum (f : L3F) (s : State) : Host.Outcome State Fault Refusal :=
  word (.fmaxnum f) s fun s => (s.fp3n f fun F => minmaxF F true true).lUse (f.t.toNat == 1)

/-- FSGN (R115): one cycle for f64 (R131). -/
def execFsgn (f : L3F) (s : State) : Host.Outcome State Fault Refusal :=
  word (.fsgn f) s fun s => s.fp3n f sgnF

/-- FSCALE (R116). -/
def execFscale (f : L3F) (s : State) : Host.Outcome State Fault Refusal :=
  word (.fscale f) s fun s => 
    let F := fltF f.t.toNat
    (s.laneOp f.d.toNat (f.p == 1) fun t =>
      rounded (s.rmode t) F.width (fltN f.t.toNat) t fun k r =>
        scaleF F (s.rmode t) r (elemAt F.width k (t.gr f.a.toNat)) (scaleB f.t.toNat f.m f.b t k)).lUse (f.t.toNat == 1)

/-- FDOT2 (R117). -/
def execFdot2 (f : L3F) (s : State) : Host.Outcome State Fault Refusal :=
  word (.fdot2 f) s fun s => s.laneOp f.d.toNat (f.p == 1) fun t =>
    dot2Res f.t.toNat (s.rmode t) t (t.gr f.a.toNat) (fltB f.t.toNat f.m f.b t) (s.fourth t)

/-- FMA (R118). -/
def execFma (f : FmaF) (s : State) : Host.Outcome State Fault Refusal :=
  word (.fma f) s fun s => s.fmaOp f false

/-- FNMA (R118). -/
def execFnma (f : FmaF) (s : State) : Host.Outcome State Fault Refusal :=
  word (.fnma f) s fun s => s.fmaOp f true

/-- CVTF (R120). -/
def execCvtf (f : L3F) (s : State) : Host.Outcome State Fault Refusal :=
  word (.cvtf f) s fun s => (s.laneOp f.d.toNat (f.p == 1) fun t =>
    cvtfRes f.t.toNat f.b.toNat f.m.toNat (s.rmode t) t (t.gr f.a.toNat) (t.gr f.d.toNat)).lUse (f.t.toNat == 1 || f.b.toNat == 1)

/-- CVTFI (R121). -/
def execCvtfi (f : L3NF) (s : State) : Host.Outcome State Fault Refusal :=
  word (.cvtfi f) s fun s => (s.laneOp f.d.toNat (f.p == 1) fun t =>
    cvtfiRes f.t.toNat f.b.toNat (s.rmode t) t (t.gr f.a.toNat)).lUse (f.b.toNat == 1)

/-- CVTIF (R122). -/
def execCvtif (f : L3NF) (s : State) : Host.Outcome State Fault Refusal :=
  word (.cvtif f) s fun s => (s.laneOp f.d.toNat (f.p == 1) fun t =>
    cvtifRes f.t.toNat f.b.toNat (s.rmode t) t (t.gr f.a.toNat)).lUse (f.t.toNat == 1)

/-- CVTN (R124). -/
def execCvtn (f : LongF) (s : State) : Host.Outcome State Fault Refusal :=
  word (.cvtn f) s fun s => s.fixedLatency f.d.toNat 6 (f.p == 1) f.l.toNat fun t =>
    cvtnRes f.t.toNat (s.rmode t) t (t.gr f.a.toNat) (t.gr f.b.toNat) (t.gr f.d.toNat)

/-- CVTW (R125). -/
def execCvtw (f : L3NF) (s : State) : Host.Outcome State Fault Refusal :=
  word (.cvtw f) s fun s => s.laneOp f.d.toNat (f.p == 1) fun t => cvtwRes f.t.toNat (t.gr f.a.toNat) (t.gr f.b.toNat)

/-- FRND (R126). -/
def execFrnd (f : UnF) (s : State) : Host.Outcome State Fault Refusal :=
  word (.frnd f) s fun s => 
    let F := fltF f.t.toNat
    (s.laneOp f.d.toNat (f.p == 1) fun t =>
      rounded (s.rmode t) F.width (fltN f.t.toNat) t fun k r => rndF F (s.rmode t) r (elemAt F.width k (t.gr f.a.toNat))).lUse
        (f.t.toNat == 1)

/-- FRCPS (R127, R36). -/
def execFrcps (f : SpecF) (s : State) : Host.Outcome State Fault Refusal :=
  word (.frcps f) s fun s => s.specOp f 0

/-- FRSQS (R127, R36). -/
def execFrsqs (f : SpecF) (s : State) : Host.Outcome State Fault Refusal :=
  word (.frsqs f) s fun s => s.specOp f 1

/-- FEXP2 (R127, R37). -/
def execFexp2 (f : SpecF) (s : State) : Host.Outcome State Fault Refusal :=
  word (.fexp2 f) s fun s => s.specOp f 2

/-- FLOG2 (R127, R37). -/
def execFlog2 (f : SpecF) (s : State) : Host.Outcome State Fault Refusal :=
  word (.flog2 f) s fun s => s.specOp f 3

/-- FSIN (R127, R37). -/
def execFsin (f : SpecF) (s : State) : Host.Outcome State Fault Refusal :=
  word (.fsin f) s fun s => s.specOp f 4

/-- FCOS (R127, R37). -/
def execFcos (f : SpecF) (s : State) : Host.Outcome State Fault Refusal :=
  word (.fcos f) s fun s => s.specOp f 5

/-- FCMP (R128). -/
def execFcmp (f : CmpF) (s : State) : Host.Outcome State Fault Refusal :=
  word (.fcmp f) s fun s => (s.laneOp f.d.toNat (f.p == 1) fun t =>
    fcmpRes f.t.toNat f.k.toNat (t.gr f.a.toNat) (t.gr f.b.toNat)).lUse (f.t.toNat == 1)

/-- FCMPP (R128, R99). -/
def execFcmpp (f : CmpPF) (s : State) : Host.Outcome State Fault Refusal :=
  word (.fcmpp f) s fun s => (s.pushOp (f.p == 1) fun t =>
    cmpF (fltF f.t.toNat) f.k.toNat (elemAt (fltF f.t.toNat).width 0 (t.gr f.a.toNat)) (elemAt (fltF f.t.toNat).width 0 (t.gr f.b.toNat))).lUse
      (f.t.toNat == 1)

/-- FCLASS (R129). -/
def execFclass (f : UnF) (s : State) : Host.Outcome State Fault Refusal :=
  word (.fclass f) s fun s => 
    let F := fltF f.t.toNat
    s.laneOp f.d.toNat (f.p == 1) fun t =>
      unrounded F.width (fltN f.t.toNat) fun k => ⟨classF F (elemAt F.width k (t.gr f.a.toNat)), 0⟩

end Sys2Proof.Machine
end

