-- ==== Sys2Proof/Machine/Scalar.lean ====
section
/-! DEFINITION. Scalar words (06 R140-R145): SALU, SIMM and SPR, the special registers (03 R60) and the TRAPV commands (18 R376). -/

namespace Sys2Proof.Machine
open Sys2Proof

/-! ### SALU and SIMM -/

/-- A scalar computation d := op d a with flags: in every issuing lane when the destination is a g register, else once (R140); an s
destination in a roaming thread raises UNIFORM_WRITE (R141). -/
def State.scalar (s : State) (d : BitVec 8) (src : State → Nat → Word) (op : Word → Word → Word × Flags) : State :=
  if isG d then
    s.eachLane fun s l =>
      let r := op (s.code d l.tk) (src s l.tk)
      (s.wrG l.tk (d.toNat - 184) r.1).raiseF l.tk r.2
  else if s.roaming then s.failAll .uniformWrite 0 0
  else
    let tk := s.lowLane.tk
    let r := op (s.code d tk) (src s tk)
    (s.wrUni d r.1).eachLane fun s l => s.raiseF l.tk r.2

/-- A SALU word (R143). -/
def State.salu (s : State) (f : S2F) (op : Word → Word → Word) : State :=
  s.scalar f.d (fun s tk => s.code f.a tk) fun d a => (op d a, 0)

/-- A SIMM word with the sign-extended IMM13 (R144). -/
def State.simm (s : State) (f : SiF) (op : Word → Word → Word) : State :=
  s.scalar f.d (fun _ _ => BitVec.ofInt 64 (sgn 13 f.i.toNat)) fun d a => (op d a, 0)

/-- A shift by a scalar count: 0 at 64 and above (R143). -/
def sShl (d a : Word) : Word := if 64 ≤ a.toNat then 0 else d <<< a.toNat
/-- The right shift. -/
def sShr (d a : Word) : Word := if 64 ≤ a.toNat then 0 else d >>> a.toNat
/-- SDIV with its corners and flags (R143). -/
def sDiv (d a : Word) : Word × Flags :=
  if a = 0 then (ones, fIntDiv)
  else if d = 0x8000000000000000 ∧ a = ones then (d, fIntOvf)
  else (BitVec.ofInt 64 (d.toInt.tdiv a.toInt), 0)

/-- A register of a lane of the issuing crew: a retired lane reads as zero (R143, R156). -/
def State.laneReg (s : State) (ck p n : Nat) : Word :=
  if bit (s.rC ck).live.toNat p then (s.rT (laneTk ck p)).gr n else 0

/-- Whether a register of a lane of the crew is locked, as the rank found it (R142, R143, R156). -/
def State.laneLocked (s : State) (ck p n : Nat) : Bool :=
  bit (s.rC ck).live.toNat p && (s.rT (laneTk ck p)).lockedG n

/-! ### Special registers (R60) -/

/-- THREAD (R68). -/
def Thr.threadReg (t : Thr) (tk : Nat) : Word := W (t.kind.toNat * 2 ^ 62 + slotOfTk tk * 2 ^ 32 + t.number.toNat)
/-- KERNEL (R320). -/
def Thr.kernelReg (t : Thr) : Word := W (t.qid.toNat * 2 ^ 44 + t.ktab.toNat * 2 ^ 32 + t.pkt.toNat)
/-- CREW (R136). -/
def crewReg (ck : Nat) (c : Crew) : Word := W (ck % 16 * 2 ^ 32 + c.index.toNat)
/-- The bits of CREWST.JP: registers with a non-zero PARKED (R139). -/
def Crew.jp (c : Crew) : Nat := (List.range 8).foldl (fun a n => if (c.jr n).parked ≠ 0 then a + 2 ^ n else a) 0
/-- CREWST (R139). -/
def Crew.crewst (c : Crew) : Word := W (c.live.toNat * 2 ^ 32 + b2n c.empty * 2 ^ 8 + c.jp)
/-- CTX (R358). -/
def State.ctxReg (s : State) (c : Nat) : Word :=
  let p := (s.ctx c).part
  W (((s.dev.parts.get? p).map (·.prio)).getD 0 * 2 ^ 16 + p * 2 ^ 8 + c % 32)
/-- TRAPV (R375): the map, or a word of the top frame while VIEW is 1-4. -/
def Thr.trapvReg (t : Thr) : Word :=
  let f (g : Frame → Word) : Word := match t.frames with | [] => 0 | x :: _ => g x
  match t.view.toNat with
  | 0 => W (t.frames.length * 2 ^ 56 + t.handler.toNat)
  | 1 => f fun x => x.pc.setWidth 64
  | 2 => f fun x => W (x.word * 2 ^ 8 + x.cause.num)
  | 3 => f (·.addr)
  | _ => f (·.info)

/-- The value of special register n for a lane (R11, R60). -/
def State.special (s : State) (n : Nat) (l : LaneRef) : Word :=
  let t := s.rT l.tk
  let core := s.iss.core
  match n with
  | 0 => 32
  | 1 => W l.pos
  | 2 => W core
  | 3 => W (if core = Config.mgmtCore then Config.mgmtCluster else core / 4)
  | 4 => W (if core = Config.mgmtCore then 0 else core / 96)
  | 5 => W s.chip
  | 6 => t.threadReg l.tk
  | 7 => (match s.iss.crew with | some ck => crewReg ck (s.rC ck) | none => 0)
  | 8 => t.kernelReg
  | 9 => s.ctxReg t.ctx
  | 10 => t.carry.setWidth 64
  | 11 => t.flags.setWidth 64
  | 12 => t.trapen.setWidth 64
  | 13 => t.rmode.setWidth 64
  | 14 => t.srng
  | 15 => t.pstk
  | 16 => W (s.clockOf core)
  | 17 => s.dev.bandReg
  | 18 => (match s.iss.crew with | some ck => (s.rC ck).crewst | none => 0)
  | _ => t.trapvReg

/-- A thread-scope special register written (R25, R28, R33, R69, R98). -/
def Thr.wrSpecial (t : Thr) (n : Nat) (v : Word) : Thr :=
  match n with
  | 10 => { t with carry := v.setWidth 32 }
  | 11 => { t with flags := v.setWidth 7 }
  | 12 => { t with trapen := v.setWidth 7 }
  | 13 => { t with rmode := if bits v 2 0 = 0 ∨ bits v 2 0 = 7 then 1 else v.setWidth 3 }
  | 14 => { t with srng := if v = 0 then 1 else v }
  | 15 => t.setPstk v
  | _ => t

/-- TRAPV commands 0 to 7 in one lane (R376). RET checks the frame PC as a branch target; a failing check is a trap whose chain keeps its
effects. -/
def State.trapvCmd (s : State) (l : LaneRef) (v : Word) : State :=
  let t := s.T l.tk
  match bits v 63 61 with
  | 0 => if bits v 60 56 ≠ 0 then s.fail l .illegalInstr 0 0x300
         else s.modT l.tk fun t => { t with handler := v.setWidth 56, view := 0 }
  | 5 => if bits v 60 56 ≠ 0 then s.fail l .illegalInstr 0 0x300
         else match t.frames with
           | [] => s.fail l .illegalInstr 0 0x301
           | x :: r => s.setT l.tk { t with frames := { x with pc := v.setWidth 56 } :: r }
  | 6 => if bits v 60 0 ≠ 0 then s.fail l .illegalInstr 0 0x300
         else match t.frames with
           | [] => s.fail l .illegalInstr 0 0x301
           | x :: _ => s.toward l x.pc.toNat
               (fun b => s.takeTrap l.tk { cause := b.1, pc := s.iss.pc, addr := b.2.1, info := b.2.2, word := s.iss.widx }) (s.trapReturn l.tk)
  | 7 => s.fail l .illegalInstr 0 0x300
  | c => if bits v 60 0 ≠ 0 then s.fail l .illegalInstr 0 0x300
         else s.modT l.tk fun t => { t with view := BitVec.ofNat 3 c }

/-- MTSR of register n with a value for each lane (R145). -/
def State.mtsr (s : State) (n : Nat) (src : State → Nat → Word) : State :=
  if n = 18 then
    match s.iss.crew with
    | some ck =>
      let v := src s s.lowLane.tk
      s.modC ck fun c => { c with empty := bit v.toNat 8 }
    | none => s
  else if n = 15 ∧ s.iss.lanes.any (fun l => decide (16 < bits (src s l.tk) 20 16)) then s.failAll .predOverflow 0 0
  else s.eachLane fun s l =>
    if n = 19 then s.trapvCmd l (src s l.tk) else s.modT l.tk (·.wrSpecial n (src s l.tk))

/-! ### SLD, SST -/

/-- The checks of a scalar scratchpad offset (R145): an offset that is not a multiple of 8, one at or beyond the share's size. -/
def State.sOffset (s : State) (ck : Nat) (o : Word) : Option Cause :=
  if o.toNat % 8 ≠ 0 then some .misaligned
  else if (s.rC ck).spSize ≤ o.toNat then some .permission
  else none

/-- SMOV (R143). -/
def execSmov (f : S2F) (s : State) : Host.Outcome State Fault Refusal :=
  word (.smov f) s fun s => s.salu f (fun _ a => a)

/-- SADD (R143). -/
def execSadd (f : S2F) (s : State) : Host.Outcome State Fault Refusal :=
  word (.sadd f) s fun s => s.salu f (· + ·)

/-- SSUB (R143). -/
def execSsub (f : S2F) (s : State) : Host.Outcome State Fault Refusal :=
  word (.ssub f) s fun s => s.salu f (· - ·)

/-- SMUL (R143). -/
def execSmul (f : S2F) (s : State) : Host.Outcome State Fault Refusal :=
  word (.smul f) s fun s => s.salu f (· * ·)

/-- SAND (R143). -/
def execSand (f : S2F) (s : State) : Host.Outcome State Fault Refusal :=
  word (.sand f) s fun s => s.salu f (· &&& ·)

/-- SOR (R143). -/
def execSor (f : S2F) (s : State) : Host.Outcome State Fault Refusal :=
  word (.sor f) s fun s => s.salu f (· ||| ·)

/-- SXOR (R143). -/
def execSxor (f : S2F) (s : State) : Host.Outcome State Fault Refusal :=
  word (.sxor f) s fun s => s.salu f (· ^^^ ·)

/-- SSHL (R143). -/
def execSshl (f : S2F) (s : State) : Host.Outcome State Fault Refusal :=
  word (.sshl f) s fun s => s.salu f sShl

/-- SSHR (R143). -/
def execSshr (f : S2F) (s : State) : Host.Outcome State Fault Refusal :=
  word (.sshr f) s fun s => s.salu f sShr

/-- SMIN (R143). -/
def execSmin (f : S2F) (s : State) : Host.Outcome State Fault Refusal :=
  word (.smin f) s fun s => s.salu f (fun d a => if a.slt d then a else d)

/-- SMAX (R143). -/
def execSmax (f : S2F) (s : State) : Host.Outcome State Fault Refusal :=
  word (.smax f) s fun s => s.salu f (fun d a => if d.slt a then a else d)

/-- SBC (R143). -/
def execSbc (f : S2F) (s : State) : Host.Outcome State Fault Refusal :=
  word (.sbc f) s fun s => s.salu f (fun _ a => W (popGo 64 a.toNat))

/-- SDIV (R143, R140): the crew or thread issues no chain for 34 cycles. -/
def execSdiv (f : S2F) (s : State) : Host.Outcome State Fault Refusal :=
  word (.sdiv f) s fun s => 
    let s := s.scalar f.d (fun s tk => s.code f.a tk) sDiv
    match s.iss.crew with
    | some ck => (List.range 32).foldl (fun s l => s.quiet (laneTk ck l) 34) s
    | none => s.eachLane fun s l => s.quiet l.tk 34

/-- SRDL (R143): the chain waits while the register is locked. -/
def execSrdl (f : S2F) (s : State) : Host.Outcome State Fault Refusal :=
  word (.srdl f) s fun s => 
    match s.iss.crew with
    | some ck =>
      let p := (s.code f.d s.lowLane.tk).toNat % 32
      if s.laneLocked ck p (f.a.toNat - 184) then s.eachLane fun s l => s.hold l .lockRead
      else s.wrUni f.d (s.laneReg ck p (f.a.toNat - 184))
    | none => s

/-- SMOVI (R144). -/
def execSmovi (f : SiF) (s : State) : Host.Outcome State Fault Refusal :=
  word (.smovi f) s fun s => s.simm f (fun _ a => a)

/-- SADDI (R144). -/
def execSaddi (f : SiF) (s : State) : Host.Outcome State Fault Refusal :=
  word (.saddi f) s fun s => s.simm f (· + ·)

/-- SANDI (R144). -/
def execSandi (f : SiF) (s : State) : Host.Outcome State Fault Refusal :=
  word (.sandi f) s fun s => s.simm f (· &&& ·)

/-- SORI (R144). -/
def execSori (f : SiF) (s : State) : Host.Outcome State Fault Refusal :=
  word (.sori f) s fun s => s.simm f (· ||| ·)

/-- SSHLI (R144). -/
def execSshli (f : SiF) (s : State) : Host.Outcome State Fault Refusal :=
  word (.sshli f) s fun s => s.simm f sShl

/-- SSHRI (R144). -/
def execSshri (f : SiF) (s : State) : Host.Outcome State Fault Refusal :=
  word (.sshri f) s fun s => s.simm f sShr

/-- MFSR (R145): a g destination is written in each lane, an s or k register once. -/
def execMfsr (f : S2F) (s : State) : Host.Outcome State Fault Refusal :=
  word (.mfsr f) s fun s => 
    if isG f.d then s.eachLane fun s l => s.wrG l.tk (f.d.toNat - 184) (s.special f.a.toNat l)
    else if s.roaming then s.failAll .uniformWrite 0 0
    else s.wrUni f.d (s.special f.a.toNat s.lowLane)

/-- MTSR (R145). -/
def execMtsr (f : S2F) (s : State) : Host.Outcome State Fault Refusal :=
  word (.mtsr f) s fun s => s.mtsr f.d.toNat fun s tk => s.code f.a tk

/-- SLD (R145): a g destination is written in every issuing lane (R140). -/
def execSld (f : S2F) (s : State) : Host.Outcome State Fault Refusal :=
  word (.sld f) s fun s => 
    match s.iss.crew with
    | some ck =>
      let o := s.code f.a s.lowLane.tk
      match s.sOffset ck o with
      | some c => s.failAll c o 0
      | none =>
        let v := W (s.shareRd ck o.toNat 8)
        if isG f.d then s.eachLane fun s l => s.wrG l.tk (f.d.toNat - 184) v else s.wrUni f.d v
    | none => s

/-- SST (R145). -/
def execSst (f : S2F) (s : State) : Host.Outcome State Fault Refusal :=
  word (.sst f) s fun s => 
    match s.iss.crew with
    | some ck =>
      let o := s.code f.d s.lowLane.tk
      match s.sOffset ck o with
      | some c => s.failAll c o 0
      | none => s.shareWr ck o.toNat 8 (s.code f.a s.lowLane.tk).toNat
    | none => s

/-- TRAPV_SETH (R376): the MTSR to TRAPV of a value whose command field says so; a value of another command is
that command. -/
def execTrapvSeth (v : Word) (s : State) : Host.Outcome State Fault Refusal :=
  .next (s.eachLane fun s l => s.trapvCmd l v).endWord

/-- TRAPV_VIEW (R376): the MTSR to TRAPV of a value whose command field says so; a value of another command is
that command. -/
def execTrapvView (v : Word) (s : State) : Host.Outcome State Fault Refusal :=
  .next (s.eachLane fun s l => s.trapvCmd l v).endWord

/-- TRAPV_SETPC (R376): the MTSR to TRAPV of a value whose command field says so; a value of another command is
that command. -/
def execTrapvSetpc (v : Word) (s : State) : Host.Outcome State Fault Refusal :=
  .next (s.eachLane fun s l => s.trapvCmd l v).endWord

/-- TRAPV_RET (R376): return from the handler. -/
def execTrapvRet (s : State) : Host.Outcome State Fault Refusal :=
  .next (s.eachLane fun s l => s.trapvCmd l 0xc000000000000000).endWord

end Sys2Proof.Machine
end

