-- ==== Sys2Proof/Machine/CrossLane.lean ====
section
/-! DEFINITION. Cross-lane words and votes (06 R155-R161, 02 R38). -/

namespace Sys2Proof.Machine
open Sys2Proof

/-- The active lanes of a cross-lane word (R155). -/
def State.activeLanes (s : State) (pr : Bool) : List LaneRef := s.iss.lanes.filter (s.active pr)

/-- One of the four moves (R157): each active lane L receives g[a] of lane src(L); the chain waits while such a register of another lane is
locked (R156). -/
def State.move (s : State) (d a : Nat) (pr : Bool) (src : LaneRef → Thr → Nat) : State :=
  match s.iss.crew with
  | some ck =>
    let from_ (l : LaneRef) : Nat := src l (s.rT l.tk) % 32
    if (s.activeLanes pr).any fun l => from_ l != l.pos && s.laneLocked ck (from_ l) a then s.eachLane fun s l => s.hold l .lockRead
    else s.eachLane fun s' l => if s.active pr l then s'.wrG l.tk d (s.laneReg ck (from_ l) a) else s'
  | none => s

/-- A lane index from a register or the immediate of SHFL and SHFLX (R157). -/
def moveIdx (m : BitVec 2) (b : BitVec 5) (t : Thr) : Nat :=
  if m.toNat = 2 then wrapI 5 (sgn 5 b.toNat) else (t.gr b.toNat).toNat % 32

/-! ### REDL and SCANL -/

/-- Whether an operation code of R158 is a float operation. -/
def redFloat (op : Nat) : Bool := op == 1 || op == 4 || op == 5
/-- Width and count of the elements of a type code under an operation (R158). -/
def redShape (op t : Nat) : Nat × Nat := if redFloat op then ((fltF t).width, fltN t) else (intW t, intN t)

/-- The identity of an operation (R158). -/
def redIdent (op t : Nat) : Nat :=
  let w := intW t
  let F := fltF t
  match op with
  | 0 => 0
  | 1 => signCode F true
  | 2 => if intS t then 2 ^ (w - 1) - 1 else 2 ^ w - 1
  | 3 => if intS t then 2 ^ (w - 1) else 0
  | 4 => (infR F false 0).bits
  | 5 => (infR F true 0).bits
  | 6 => 2 ^ w - 1
  | _ => 0

/-- One step of the operation on two elements (R158); `r` is the draw. -/
def redStep (op t mode r a b : Nat) : FR :=
  let w := intW t
  match op with
  | 0 => addE w (intS t) a b
  | 1 => addF (fltF t) mode r a b
  | 2 => minE w (intS t) a b
  | 3 => maxE w (intS t) a b
  | 4 => minmaxF (fltF t) false false a b
  | 5 => minmaxF (fltF t) true false a b
  | 6 => andE w true a b
  | 7 => orE w true a b
  | _ => xorE w true a b

/-- The values a tree works on: one list of elements a lane, the flags raised and the generator (R38, R159). -/
structure RedAcc where
  v : List (List Nat)
  fl : Flags
  srng : Word
  deriving DecidableEq, Repr

/-- Two lanes' elements combined in ascending element order (R159). -/
def combElems (op t mode : Nat) : List Nat → List Nat → Word → List Nat × Flags × Word
  | a :: as, b :: bs, x =>
    let (x', r) := if mode = 6 ∧ op = 1 then nextDraw x else (x, 0)
    let q := redStep op t mode r a b
    let (vs, fl, y) := combElems op t mode as bs x'
    (q.bits :: vs, q.fl ||| fl, y)
  | _, _, x => ([], 0, x)

/-- One combination of a tree step: lane `dst` receives Op(lane i, lane j) of the values `old`. -/
def combLane (op t mode : Nat) (old : List (List Nat)) (i j dst : Nat) (A : RedAcc) : RedAcc :=
  let (v, fl, x) := combElems op t mode (old.getD i []) (old.getD j []) A.srng
  { v := A.v.set dst v, fl := A.fl ||| fl, srng := x }

/-- The REDL tree (R38): the result stands in lane 0. -/
def redTree (op t mode : Nat) (A : RedAcc) : RedAcc :=
  (List.range 5).foldl (fun A k =>
    (List.range 32).foldl (fun B L => if bit L k then B else combLane op t mode A.v L (L ^^^ 2 ^ k) L B) A) A

/-- The inclusive SCANL tree (R38). -/
def scanTree (op t mode : Nat) (A : RedAcc) : RedAcc :=
  (List.range 5).foldl (fun A k =>
    (List.range 32).foldl (fun B L => if L < 2 ^ k then B else combLane op t mode A.v (L - 2 ^ k) L L B) A) A

/-- The values of the 32 lanes: inactive lanes enter as the identity (R158). -/
def State.redInput (s : State) (op t a : Nat) (act : List LaneRef) : List (List Nat) :=
  let (w, n) := redShape op t
  (List.range 32).map fun p =>
    match act.find? (·.pos == p) with
    | some l => (List.range n).map fun k => elemAt w k ((s.rT l.tk).gr a)
    | none => List.replicate n (redIdent op t)

/-- A result in its register: a 32-bit result extended by its type (R158, R18). -/
def redExt (op t : Nat) (v : List Nat) : Word :=
  let w := (redShape op t).1
  if redFloat op then W (packElems w v) else extInt t (packElems w v)

/-- REDL (`scan` = false) and SCANL (R158-R160). -/
def State.redOp (s : State) (f : L3NF) (scan : Bool) : State :=
  match s.iss.crew with
  | none => s
  | some ck =>
    let op := f.b.toNat
    let t := f.t.toNat
    let act := s.activeLanes (f.p == 1)
    (if act = [] then
      let s := if scan then s else
        s.modC ck fun c => c.setS f.d.toNat (redExt op t (List.replicate (redShape op t).2 (redIdent op t)))
      s.modC ck fun c => { c with empty := true }
    else
      let low := act.foldl (fun a l => if l.pos < a.pos then l else a) (act.headD ⟨0, 0⟩)
      let lt := s.drawT low.tk
      let mode := lt.rmode.toNat
      let A : RedAcc := { v := s.redInput op t f.a.toNat act, fl := 0, srng := lt.srng }
      let B := if scan then scanTree op t mode A else redTree op t mode A
      let s := if scan then act.foldl (fun s l => s.wrG l.tk f.d.toNat (redExt op t (B.v.getD l.pos []))) s
        else s.modC ck fun c => c.setS f.d.toNat (redExt op t (B.v.getD 0 []))
      let s := act.foldl (fun s l => s.raiseF l.tk B.fl) s
      let s := if mode = 6 ∧ op = 1 then (s.modT low.tk fun x => { x with srng := B.srng }).drew low.tk (some B.srng) else s
      s.modC ck fun c => { c with empty := false }).lUse (redFloat op && t == 1)

/-! ### Votes -/

/-- A vote (R161): each active lane is given a value computed from the list of (position, value) of the active lanes. -/
def State.vote (s : State) (f : UnF) (g : List (Nat × Nat) → Nat × Nat → Word) : State :=
  let w := if f.t.toNat ≤ 1 then 32 else 64
  let act := s.activeLanes (f.p == 1)
  let vs := act.map fun l => (l.pos, ((s.rT l.tk).gr f.a.toNat).toNat % 2 ^ w)
  act.foldl (fun s l => s.wrG l.tk f.d.toNat (g vs (l.pos, ((s.rT l.tk).gr f.a.toNat).toNat % 2 ^ w))) s

/-- The mask of the lanes of a list that meet a condition. -/
def maskOf (p : Nat × Nat → Bool) (vs : List (Nat × Nat)) : Word :=
  vs.foldl (fun m v => if p v then m ||| W (2 ^ v.1) else m) 0

/-- SHFL (R157). -/
def execShfl (f : XmvF) (s : State) : Host.Outcome State Fault Refusal :=
  word (.shfl f) s fun s => s.move f.d.toNat f.a.toNat (f.p == 1) fun _ t => moveIdx f.m f.b t

/-- SHFLX (R157). -/
def execShflx (f : XmvF) (s : State) : Host.Outcome State Fault Refusal :=
  word (.shflx f) s fun s => s.move f.d.toNat f.a.toNat (f.p == 1) fun l t => l.pos ^^^ moveIdx f.m f.b t

/-- SHFLI (R157). -/
def execShfli (f : ShfliF) (s : State) : Host.Outcome State Fault Refusal :=
  word (.shfli f) s fun s => s.move f.d.toNat f.a.toNat (f.p == 1) fun l _ => l.pos + wrapI 5 (sgn 5 f.b.toNat)

/-- BCAST (R157): the lowest-numbered active lane. -/
def execBcast (f : DapF) (s : State) : Host.Outcome State Fault Refusal :=
  word (.bcast f) s fun s => 
    let act := s.activeLanes (f.p == 1)
    let low := act.foldl (fun a l => if l.pos < a.pos then l else a) (act.headD ⟨0, 0⟩)
    s.move f.d.toNat f.a.toNat (f.p == 1) fun _ _ => low.pos

/-- REDL (R158-R160). -/
def execRedl (f : L3NF) (s : State) : Host.Outcome State Fault Refusal :=
  word (.redl f) s fun s => s.redOp f false

/-- SCANL (R158-R160). -/
def execScanl (f : L3NF) (s : State) : Host.Outcome State Fault Refusal :=
  word (.scanl f) s fun s => s.redOp f true

/-- BALLOT (R161). -/
def execBallot (f : UnF) (s : State) : Host.Outcome State Fault Refusal :=
  word (.ballot f) s fun s => s.vote f fun vs _ => maskOf (fun v => v.2 != 0) vs

/-- VANY (R161). -/
def execVany (f : UnF) (s : State) : Host.Outcome State Fault Refusal :=
  word (.vany f) s fun s => s.vote f fun vs _ => if vs.any (fun v => v.2 != 0) then ones else 0

/-- VALL (R161). -/
def execVall (f : UnF) (s : State) : Host.Outcome State Fault Refusal :=
  word (.vall f) s fun s => s.vote f fun vs _ => if vs.all (fun v => v.2 != 0) then ones else 0

/-- MATCHL (R161). -/
def execMatchL (f : UnF) (s : State) : Host.Outcome State Fault Refusal :=
  word (.matchL f) s fun s => s.vote f fun vs x => maskOf (fun v => v.2 == x.2) vs

/-- MATCHN (R161). -/
def execMatchN (f : UnF) (s : State) : Host.Outcome State Fault Refusal :=
  word (.matchN f) s fun s => s.vote f fun vs x => W (vs.countP fun v => decide (v.1 < x.1) && v.2 == x.2)

/-- POPL (R161). -/
def execPopl (f : UnF) (s : State) : Host.Outcome State Fault Refusal :=
  word (.popl f) s fun s => s.vote f fun vs x => W (vs.countP fun v => decide (v.1 < x.1) && v.2 != 0)

end Sys2Proof.Machine
end

