-- ==== Sys2Proof/Machine/Access.lean ====
section
/-! DEFINITION. A thread's outstanding accesses: what holds an access back (08 R194-R197, 09 R223), how messages leave, how answers reach
the thread, held words and late faults (08 R188, 18 R377, R382), and what FENCE, departure and EXIT wait for (R71, R88, R216). -/

namespace Sys2Proof.Machine
open Sys2Proof

/-- The page word of a page at a home (R384). -/
def pageWord (chip key : Nat) : Word :=
  W (chip * 2 ^ 48 + coreOfKey key * 2 ^ 39 + regionOfKey key * 2 ^ 33 + hpOfKey key % 2 ^ 33)

/-! ### Messages -/

/-- A message whose lanes may be held; it leaves when all are free. -/
def State.newOut (s : State) (o : Out) : State := { s with outs := s.outs.set s.ids o, ids := s.ids + 1 }

/-- A lane of an outgoing message is free; the last one lets the message leave. -/
def State.leave (s : State) (o tk : Nat) : State :=
  match s.outs.get? o with
  | none => s
  | some m =>
    let w := m.wait.filter (· != tk)
    if w = [] then { s with outs := s.outs.del o }.send m.src m.chip m.core m.ev.i m.ev.a
    else { s with outs := s.outs.set o { m with wait := w } }

/-- Whether an earlier outstanding access holds a later one back (R83, R194, R195, R197, R223). -/
def Acc.holds (a b : Acc) : Bool :=
  match b.kind with
  | .spawn => a.kind == .store || a.kind == .atom
  | .seal => b.rel && a.kind != .seal
  | _ =>
    (a.line.isSome && a.line == b.line)
    || (a.pkind == 0 && b.pkind == 0)
    || (b.rel && decide (b.pkind ≤ 1) && (decide (a.pkind ≤ 1) || a.kind == .spawn || a.kind == .flush || a.kind == .wb))
    || (a.acq && decide (a.pkind ≤ 1) && decide (b.pkind ≤ 1))

/-- An access begins: it is held behind the earlier ones that R194-R197 and R223 name, and leaves if there is none. -/
def State.startAcc (s : State) (tk : Nat) (a : Acc) : State :=
  let h := ((s.T tk).pend.filter (·.holds a)).map (·.id)
  let s := s.modT tk fun t => { t with pend := t.pend ++ [{ a with held := h }] }
  if h = [] then s.leave a.out tk else s

/-- An access is complete: an acquire at DEVICE or SYSTEM scope drops replicas, and the accesses held behind it alone leave (R197). -/
def State.complete (s : State) (tk id : Nat) : State :=
  let s := if (s.T tk).pend.any fun a => a.id == id && a.acq && decide (4 ≤ a.scope) then s.dropAway (dieOf (coreOfTk tk)) else s
  let t := s.T tk
  let rest := t.pend.filter (·.id != id)
  let freed := rest.filter fun a => a.held == [id]
  let s := s.setT tk { t with pend := rest.map fun a => { a with held := a.held.filter (· != id) } }
  freed.foldl (fun s a => s.leave a.out tk) s

/-! ### What threads wait for -/

/-- Whether every earlier load and ATOM has delivered (R216). -/
def Thr.noLoads (t : Thr) : Bool :=
  t.pend.all fun a => a.kind == .store || a.kind == .stw || a.kind == .spawn || a.kind == .flush || a.kind == .wb

/-- How a home is named in a thread's list of those that have posted its host-tier stores. -/
def homeNum (chip core : Nat) : Nat := chip * 2 ^ 16 + core

/-- Flushing reads of every home that has posted a host-tier store of the thread (R197). -/
def State.flushReads (s : State) (tk : Nat) : State :=
  let t := s.T tk
  let s := s.setT tk { t with posted := [] }
  t.posted.foldl (fun s h =>
    let id := s.ids
    let s := s.fresh
    let o := s.ids
    let s := s.newOut { wait := [tk], chip := h / 2 ^ 16, core := h % 2 ^ 16, src := coreOfTk tk, ev := ⟨.pcieCompletion, .flush tk id (homeNum s.chip (coreOfTk tk))⟩ }
    s.startAcc tk { id := id, kind := .flush, line := none, pkind := 1, acq := false, rel := true, scope := 0, held := [], out := o
                    pc := t.pc, d := 0, ea := 0, heldAt := none, recd := false }) s

/-- Whether a core's LOGPEND bit of a context is set (R244). -/
def State.logpend (s : State) (core ctx : Nat) : Bool :=
  match (s.core core).logpend.find? (·.1 == ctx) with
  | some x => x.2.2
  | none => false

/-- The directory identity of a thread (R244). -/
def Thr.tid (t : Thr) : TId := ⟨t.ktab.toNat, t.kind.toNat, t.number.toNat⟩

/-- The home of a context's deferred directory: the agent of the first word of its fault queue (R244). -/
def State.dirHome (s : State) (ctx : Nat) : Nat × Nat :=
  match homeIn (s.ctx ctx).ptab (s.ctx ctx).fqbase with
  | some h => (h.chip, h.core)
  | none => (s.chip, 0)

/-- A query of the deferred directory (R245). -/
def State.dirQuery (s : State) (tk : Nat) (exit : Bool) : State :=
  let t := s.T tk
  let h := s.dirHome t.ctx
  s.send (coreOfTk tk) h.1 h.2 .directoryQuery (.dirQ t.ctx ⟨t.tid, tk, s.chip, coreOfTk tk, exit⟩)

/-! ### What a crew's lanes wait for together -/

/-- Whether every access of a list has completed. -/
def State.needDone (s : State) (need : List (Nat × Nat)) : Bool :=
  need.all fun x => !((s.T x.1).pend.any (·.id == x.2))
/-- The outstanding accesses of some threads. -/
def State.needOf (s : State) (tks : List Nat) : List (Nat × Nat) :=
  tks.flatMap fun tk => (s.T tk).pend.map fun a => (tk, a.id)
/-- The live lanes of a crew as thread keys. -/
def State.liveLanes (s : State) (ck : Nat) : List Nat :=
  ((List.range 32).filter fun l => bit (s.C ck).live.toNat l).map (laneTk ck)
/-- Lane numbers as a mask. -/
def maskOfLanes (l : List Nat) : BitVec 32 := l.foldl (fun m x => m ||| BitVec.ofNat 32 (2 ^ x)) 0

/-- The number of a die's distributor among the cores of R392. -/
def distCore (d : Nat) : Nat := 504 + d

/-- A gathering that every live lane has joined, with the joins' releases met, arrives (R346, R348). -/
def State.barTest (s : State) (ck : Nat) : State :=
  (s.C ck).memb.foldl (fun s b =>
    let c := s.C ck
    if b.st = .gathering ∧ maskOfLanes (b.joined.map (·.lane)) &&& c.live = c.live ∧ s.needDone b.need = true then
      (s.modC ck fun c => { c with memb := c.memb.map fun x => if x.g = b.g then { x with st := .arrived } else x }).send (coreOfCk ck)
        b.chip (distCore 0) .barrierArrival (.n6 c.ctx b.g b.m s.chip (coreOfCk ck) ck)
    else s) s

/-- The chip of a kernel's tempo agent (R319, R352). -/
def State.kernChip (s : State) (ctx kern : Nat) : Nat := ((s.kent ctx kern).map (·.chip)).getD s.chip

/-- A crew's TEMPO that every live lane has joined, with the release conditions met, arrives once (R353). -/
def State.tempoTest (s : State) (ck : Nat) : State :=
  let c := s.C ck
  let t := c.tempo
  if !t.sent && !t.joined.isEmpty && maskOfLanes (t.joined.map (·.lane)) &&& c.live == c.live && s.needDone t.need then
    let v := t.joined.foldl (fun v l => if l.orr then v ||| l.v else v) 0
    (s.modC ck fun c => { c with tempo := { c.tempo with sent := true } }).send (coreOfCk ck) (s.kernChip c.ctx c.ktab.toNat) (distCore 0)
      .tempoArrival (.tarr c.ctx c.ktab.toNat s.chip (coreOfCk ck) (.crew ck) v)
  else s

/-- SENDs of a crew whose release conditions are met and that wait for no earlier answer leave (R416). -/
def State.sendTest (s : State) (ck : Nat) : State :=
  (s.C ck).sends.foldl (fun s w =>
    let earlier := (s.C ck).sends.takeWhile (·.id != w.id)
    if !w.sent && s.needDone w.need && !(earlier.any fun e => e.dchip == w.dchip && e.dcore == w.dcore && e.dctx == w.dctx) then
      let c := s.C ck
      let m : Msg := { schip := s.chip, score := coreOfCk ck, sctx := c.ctx, ctx := w.dctx, tag := w.tag, len := w.len, data := w.data
                       id := w.id, ck := ck }
      (s.modC ck fun c => { c with sends := c.sends.map fun x => if x.id = w.id then { x with sent := true } else x }).sendDir w.dirx
        (coreOfCk ck) w.dchip w.dcore .messageArrival (.msg w.dcore m)
    else s) s

/-- A WDET whose crew has no window access outstanding departs at this instant (R341). Its share stands until the window is CLOSED (R342, log 45). -/
def State.wdetTest (s : State) (ck : Nat) : State :=
  let c := s.C ck
  let busy := (List.range 32).any fun l => (s.T (laneTk ck l)).pend.any fun a => a.kind == .ldw || a.kind == .stw
  if !c.wdet.isEmpty && !busy && (c.att == .opening || c.att == .attached) then
    let b := (c.memb.find? (·.g == c.winG))
    (s.modC ck fun c => { c with att := .departed }).send (coreOfCk ck) ((b.map (·.chip)).getD s.chip) (distCore 0) .windowDeparture
      (.n6 c.ctx c.winG ((b.map (·.m)).getD 0) s.chip (coreOfCk ck) ck)
  else s

/-- What a crew's lanes may be waiting for together is tested again. -/
def State.crewTests (s : State) (ck : Nat) : State := (((s.barTest ck).tempoTest ck).sendTest ck).wdetTest ck

/-- Whether a thread waits: BLOCKED, or TRAPPED while TRET retires it (R385). -/
def Thr.waiting (t : Thr) : Bool := t.st == .blocked || (t.st == .trapped && t.dying)

/-- A thread whose waiting conditions are met goes on (R71, R88, R216). -/
def State.recheck (s : State) (tk : Nat) : State :=
  let s := if (s.T tk).kind = 2 then s.crewTests (ckOfTk tk) else s
  let t := s.T tk
  if !t.waiting then s else
  match t.wait with
  | .tempo => match t.tmp with
    | some w =>
      if !w.sent && t.pend.isEmpty && !(s.spawned.any fun x => x.1 == t.ctx && x.2 == t.tid) then
        ((s.modT tk fun t => { t with tmp := some { w with sent := true } }).post .tempoPark (.thread tk)).send (coreOfTk tk)
          (s.kernChip t.ctx t.ktab.toNat) (distCore 0) .tempoArrival (.tarr t.ctx t.ktab.toNat s.chip (coreOfTk tk) (.thread t.tid tk) (if w.orr then w.v else 0))
      else s
    | none => s
  | .fence k sc =>
    if (if k = 1 then t.noLoads else t.pend.isEmpty) then
      if k ≠ 1 ∧ sc = 5 ∧ t.posted ≠ [] then s.flushReads tk
      else (if k ≠ 2 ∧ 4 ≤ sc then s.dropAway (dieOf (coreOfTk tk)) else s).wake tk
    else s
  | .depart => if t.locks.isEmpty && t.pend.isEmpty then s.post .knightDeparture (.thread tk) else s
  | .exitDrain pc =>
    if t.locks.isEmpty && t.pend.isEmpty then
      if !t.ptrap.isEmpty && !t.dying then s.takePending tk
      else if s.logpend (coreOfTk tk) t.ctx then (s.modT tk fun t => { t with wait := .exitDir pc }).dirQuery tk true
      else s.post .exitDrainComplete (.thread tk)
    else s
  | .sealRel => if t.pend.isEmpty then s.wake tk else s
  | _ => s

/-! ### Answers -/

/-- The locks of a word in inactive lanes go once no active lane holds one (R56). -/
def State.releaseIdle (s : State) (id : Nat) : State :=
  if s.thr.any fun p => p.2.locks.any fun k => k.id == id && k.active then s
  else (s.thr.filter fun p => p.2.locks.any (·.id == id)).foldl
    (fun s p => ((s.release p.1 id).afterUnlock p.1).recheck p.1) s

/-- Lanes of a crew that wait for a register of another lane try again (R143, R156). -/
def State.wakeReaders (s : State) (tk : Nat) : State :=
  if (s.T tk).kind = 2 then
    (List.range 32).foldl (fun s l =>
      let k := laneTk (ckOfTk tk) l
      if (s.T k).st = .blocked ∧ (s.T k).wait = .lockRead then s.wake k else s) s
  else s

/-- A value and flags delivered to a lane: its lock of the word is released with them (R56). -/
def State.deliver (s : State) (tk id : Nat) (v : Option Word) (fl : Flags) : State :=
  let s := s.modT tk fun t => { t with locks := t.locks.map fun k => if k.id = id then { k with val := v, fl := fl } else k }
  let s := (s.release tk id).releaseIdle id
  (((s.complete tk id).afterUnlock tk).recheck tk).wakeReaders tk

/-- The threads that issued one word: the lanes of the crew, or the thread alone (R188). -/
def State.wordLanes (s : State) (tk id : Nat) : List Nat :=
  if (s.T tk).kind = 2 then
    ((List.range 32).map (laneTk (ckOfTk tk))).filter fun k => (s.T k).pend.any (·.id == id)
  else [tk]

/-- The HELD records of a word, one for each page at which lanes are held, once every lane of the word has answered (R188, R382). -/
def State.heldRecords (s : State) (tk id : Nat) : State :=
  let lanes := s.wordLanes tk id
  let accs := lanes.filterMap fun k => ((s.T k).pend.find? (·.id == id)).map fun a => (k, a)
  if accs.any fun x => x.2.heldAt.isNone then s else
  let page (x : Nat × Acc) : Option (Nat × Nat) := x.2.heldAt.map fun key =>
    (((homeIn (s.ctx (ctxOfKey key)).ptab x.2.ea).map (·.chip)).getD s.chip, key)
  let pages := (accs.filterMap fun x => if x.2.recd then none else page x).eraseDups
  let s := pages.foldl (fun s p =>
    let mine := accs.filter fun x => page x == some p
    match mine with
    | [] => s
    | (k, a) :: _ =>
      let t := s.T k
      let m := mine.foldl (fun m x => m + 2 ^ (slotOfTk x.1 % 32)) 0
      let r := t.record k 0 .notPresent (W a.ea) (a.pc.setWidth 64) (W a.d)
      s.post .faultRecordWrite (.frec t.ctx { r with
        lmask := if t.kind = 2 then BitVec.ofNat 32 (2 ^ 32 - 1 - m) else 0, page := pageWord p.1 p.2 })) s
  accs.foldl (fun s x => s.modT x.1 fun t =>
    { t with pend := t.pend.map fun a => if a.id = id then { a with recd := true } else a }) s

/-- A late fault of a word's lane (R377): the lock on D goes with D unchanged, and the lane takes the trap at its next chain boundary. -/
def State.lateFault (s : State) (tk id : Nat) (c : Cause) (late : Nat) : State :=
  let t := s.T tk
  match t.pend.find? (·.id == id) with
  | none => s
  | some a =>
    let rmw := a.kind == .atom || a.kind == .watch
    let info := W ((s.nextHead tk - s.codeBase t) / 4 % 2 ^ 28 * 2 ^ 36 + b2n rmw * 2 ^ 5 + a.d + late)
    let i : TrapInfo := { cause := c, pc := a.pc, addr := W a.ea, info := info, word := 0 }
    let s := s.modT tk fun t => { t with ptrap := t.ptrap ++ [i] }
    let s := s.deliver tk id none 0
    let t := s.T tk
    if t.ptrap ≠ [] ∧ (t.st = .ready ∨ (t.st = .blocked ∧ (t.wait = .load ∨ t.wait = .watch ∨ t.wait = .cwait))) then s.takePending tk else s

/-- Whether a held word of a thread still keeps it BLOCKED as a faulting load (R67, R186). -/
def Thr.faulting (t : Thr) : Bool := t.pend.any fun a => a.heldAt.isSome && (a.kind == .load || a.kind == .atom || a.kind == .ldw)

/-- A thread that waited for a faulting or an arriving load is READY once no word of it is held (R67, R73). -/
def State.loaded (s : State) (tk : Nat) : State :=
  let t := s.T tk
  if t.st = .blocked ∧ t.wait = .load ∧ t.faulting = false then s.wake tk else s

/-- A home's answer reaches a lane (R71, R185, R188). A word held at its page makes a READY thread BLOCKED (R67). -/
def State.answer (s : State) (tk id : Nat) (o : ROut) : State :=
  match o with
  | .data v fl =>
    (((s.deliver tk id (some v) fl).heldRecords tk id).loaded tk)
  | .unsealed v => ((s.deliver tk id (some v) 0).heldRecords tk id).loaded tk
  | .ack => ((s.complete tk id).recheck tk)
  | .refused c _ => (s.lateFault tk id c 0).heldRecords tk id
  | .heldAt key =>
    let s := s.modT tk fun t =>
      { t with pend := t.pend.map fun a => if a.id = id then { a with heldAt := some key, recd := false } else a }
    let s := s.heldRecords tk id
    if (s.T tk).st = .ready ∧ (s.T tk).faulting = true then s.block tk .load else s
  | .woken =>
    let s := (s.complete tk id).heldRecords tk id
    if (s.T tk).wait = .watch then s.wake tk else s.recheck tk

end Sys2Proof.Machine
end

