-- ==== Sys2Proof/Machine/Home.lean ====
section
/-! DEFINITION. The home memory agent: translation, rights and refusals (08 R186, 10 R237-R242), loads, stores, the atomic unit (08 R204-R210),
side logs and the deferred directory (10 R243-R248), watches (08 R218), line copies of a moving page (10 R259). -/

namespace Sys2Proof.Machine
open Sys2Proof

/-! ### Translation -/

/-- The physical key of byte o of a page at its home. A line that a tier move has copied is at the destination: in one of the
frames of a split's move list, or at its place in the one frame of a merge (R258, R259). -/
def State.byteKey (s : State) (key : Nat) (p : Page) (o : Nat) : Nat :=
  let core := coreOfKey key
  if o / 128 < p.moved then
    let a := pageSize p.tier
    let b := pageSize p.ntier
    if b < a then frameKey p.ntier core (((s.moves.get? p.nframe).getD []).getD (o / b) 0) (o % b)
    else frameKey p.ntier core p.nframe (hpOfKey key % (b / a) * a + o)
  else p.key core o

/-- What a home finds for an access (R242, R248, R257). -/
inductive Verdict where
  | ok (p : Page)
  | refuse (c : Cause)
  | absent (p : Page)
  | rehoming
  deriving DecidableEq, Repr

/-- The home's check of an access against its own entry (R242): a page that changes home performs none (R257); rights, the seal, presence. -/
def State.verdict (s : State) (key : Nat) (rd wr : Bool) : Verdict :=
  match s.pages.get? key with
  | none => .refuse .permission
  | some p =>
    if p.st = .retired then .refuse .permission
    else if p.st = .rehoming then .rehoming
    else if (rd && !p.rd) || (wr && !p.wr) then .refuse .permission
    else if wr && p.s then .refuse .sealedWrite
    else if p.st = .unmapped then .absent p
    else .ok p

/-- The cause with which a home refuses n bytes of a page: a poisoned line of a page that containment has retired still escalates its reader (R431, R433,
log 60). -/
def State.causeAt (s : State) (key o n : Nat) (c : Cause) : Cause :=
  match s.pages.get? key with
  | some p => if p.st = .retired ∧ s.poisoned (p.key (coreOfKey key) o) n = true then .uncorrectable else c
  | none => c

/-- A page changed. -/
def State.modPage (s : State) (key : Nat) (f : Page → Page) : State :=
  match s.pages.get? key with
  | some p => { s with pages := s.pages.set key (f p) }
  | none => s

/-- An event held at a page until it is mapped, replayed or resumed, in arrival order. -/
def State.holdAt (s : State) (key : Nat) (e : Ev) : State :=
  { s with heldP := s.heldP.set key ((s.heldP.get? key).getD [] ++ [e]) }

/-- A former home sends an access, page message, knight or creation record on to the new home, which acknowledges it (R77, R257). -/
def State.forward (s : State) (src chip core ctx : Nat) (i : Instr) (a : Arg) : State :=
  { s with fwds := s.fwds.set ctx ((s.fwds.get? ctx).getD 0 + 1) }.send src chip core .homeChangeForward (.fwd s.chip src i a)

/-- A link's registers (R408). -/
def State.link (s : State) (n : Nat) : Link := (s.dev.links.get? n).getD Link.blank
/-- Whether a link carries traffic (R410). -/
def State.linkUp (s : State) (n : Nat) : Bool := (s.link n).st == .up || (s.link n).st == .degraded
/-- Whether a link is being trained. -/
def State.linkTrains (s : State) (n : Nat) : Bool := (s.link n).st == .training || (s.link n).st == .retraining
/-- Whether the host port is DOWN or FAILED: accesses homed in tier 2 are refused (R410). -/
def State.hostLost (s : State) : Bool := !s.linkUp 16 && !s.linkTrains 16

/-! ### Performing -/

/-- The answer of a home to the source of a lane. -/
def State.reply (s : State) (src : Nat) (r : MemReq) (l : MLane) (o : ROut) : State :=
  let i : Instr := match r.op with
    | .load _ => .readDataResponse
    | _ => .ackResponse
  s.send src r.chip r.core i (.resp l.tk l.id o)

/-- Size bytes loaded as a register value (R189). -/
def loadVal (sx : Bool) (size v : Nat) : Word := if sx then BitVec.ofInt 64 (sgn (8 * size) v) else W v

/-- The new word of an atomic operation (R204): operation, 64-bit width, rounding mode (6 as 1, R206), the word, operand, comparand. -/
def atomNew (op : Nat) (w64 : Bool) (mode w b c : Nat) : Nat × Flags :=
  let n := if w64 then 64 else 32
  let F := if w64 then f64F else f32F
  let m := if mode = 6 then 1 else mode
  let w := w % 2 ^ n
  let b := b % 2 ^ n
  match op with
  | 0 => ((w + b) % 2 ^ n, 0)
  | 2 => ((minE n true w b).bits, 0)
  | 3 => ((maxE n true w b).bits, 0)
  | 4 => (w &&& b, 0)
  | 5 => (w ||| b, 0)
  | 6 => (w ^^^ b, 0)
  | 7 => (b, 0)
  | 8 => (if w = c % 2 ^ n then b else w, 0)
  | 9 => (incE n w b, 0)
  | 10 => (decE n w b, 0)
  | 11 => ((minmaxF F false false w b).bits, (minmaxF F false false w b).fl)
  | 12 => ((minmaxF F true false w b).bits, (minmaxF F true false w b).fl)
  | _ => ((addF F m 0 w b).bits, (addF F m 0 w b).fl)

/-- Whether an operation's result is a float (R205). -/
def atomFloat (op : Nat) : Bool := op == 1 || op == 11 || op == 12 || op == 13

/-- The old value in its register (R204, R18): sign-extended for i32, upper half zero for f32. -/
def atomOld (op : Nat) (w64 : Bool) (w : Nat) : Word :=
  if w64 || atomFloat op then W w else BitVec.ofInt 64 (sgn 32 w)

/-- The lanes of an uncombined or integer group in ascending order as one indivisible group (R207): each lane's old value and flags. -/
def atomLanes (op : Nat) (w64 : Bool) : Nat → List MLane → Nat × List (MLane × Word × Flags)
  | w, [] => (w, [])
  | w, l :: t =>
    let (n, fl) := atomNew op w64 l.mode w l.data l.cmp
    let (e, r) := atomLanes op w64 n t
    (e, (l, atomOld op w64 w, fl) :: r)

/-- A combining fadd group (R208): the sum S at the home, each lane's own return rounding; all flags go to every lane. -/
def atomComb (w64 : Bool) (sum : Nat) (fl : Flags) (w : Nat) (ls : List MLane) : Nat × List (MLane × Word × Flags) :=
  let F := if w64 then f64F else f32F
  let m := match ls with
    | [] => 1
    | l :: _ => if l.mode = 6 then 1 else l.mode
  let n := addF F m 0 w sum
  let rs := ls.map fun l => (l, addF F m 0 w l.data)
  let all := rs.foldl (fun a r => a ||| r.2.fl) (fl ||| n.fl)
  (n.bits, rs.map fun r => (r.1, W r.2.bits, all))

/-- An agent that is no thread has no slot: its accesses carry this thread key. -/
abbrev agentTk : Nat := 2 ^ 30
/-- Whether a lane is an agent's access; its `mode` is 1 where it reads what only a sealed page may hold, 2 where it asks
whether code can begin in the page (R315), its `cmp` a store's byte mask. -/
def MLane.agent (l : MLane) : Bool := l.tk == agentTk

/-- Agents and watchers of a word after a write reached it (R218, R285, R286): a recorded watch is woken once its word differs. -/
def State.afterWrite (s : State) (home ctx ea n : Nat) : State :=
  let hit (a m : Nat) : Bool := decide (a < ea + n ∧ ea < a + m)
  let fired := s.hooks.filter fun h => h.ctx == ctx && hit h.ea 8
  let s := { s with hooks := s.hooks.filter fun h => !(h.ctx == ctx && hit h.ea 8) }
  let s := fired.foldl (fun s h => s.post h.ev.i h.ev.a) s
  let ws := (s.watches.get? home).getD []
  let differs (w : Watch) : Bool :=
    w.ctx == ctx && hit w.lane.ea w.lane.size &&
    (match s.homeOf ctx w.lane.ea with
      | some h => match s.pages.get? (h.key ctx) with
        | some p => memRdN s.mem (s.byteKey (h.key ctx) p h.pofs) w.lane.size != w.lane.data % 2 ^ (8 * w.lane.size)
        | none => true
      | none => true)
  let wake := ws.filter differs
  let s := { s with watches := s.watches.set home (ws.filter fun w => !differs w) }
  wake.foldl (fun s w => s.send home w.chip w.core .ackResponse (.resp w.lane.tk w.lane.id .woken)) s

/-! ### Side logs and the deferred directory (R243-R247) -/

/-- Side-log entries a home holds. -/
def State.slogCount (s : State) (home : Nat) : Nat :=
  s.slog.foldl (fun n x => if coreOfKey x.1 = home then n + x.2.length else n) 0

/-- A message to the context's deferred directory. -/
def State.toDir (s : State) (src ctx : Nat) (m : DirMsg) : State :=
  let h := s.dirHome ctx
  s.send src h.1 h.2 .sideLogRegistration (.dirMsg ctx m)

/-- One write entered in a page's side log, or turned into a deferred record when the side-log space is full (R243, R247), with the stores that its
confirmation acknowledges. The page's first entry since its last REPLAY writes a LOGGED record (R382). -/
def State.logWrite (s : State) (home ctx key : Nat) (e : SEnt) (ks : List Confirm) (slot : Nat) : State :=
  if 524288 ≤ s.slogCount home then
    s.toDir home ctx (.refused ⟨e.tid, e.ea, e.pcw, .notPresent, 2⟩ ks)
  else
    let s := { s with slog := s.slog.set key ((s.slog.get? key).getD [] ++ [e]) }
    let s := if s.logged.contains key then s else
      let base := ((s.kent ctx e.tid.kern).map (·.code.toNat)).getD 0
      { s with logged := key :: s.logged }.post .faultRecordWrite (.frec ctx
        { kind := 1, cause := .notPresent, core := (match ks with | c :: _ => c.core | [] => home), slot := slot, kern := e.tid.kern
          tkind := e.tid.kind, ring := 0, number := e.tid.num, lmask := 0, addr := W e.ea, pc := W (base + 4 * e.pcw), info := 0
          page := pageWord s.chip key, aux0 := 0, aux1 := 0 })
    s.toDir home ctx (.entry e.tid ks)

/-- The home core's slot number of a thread key, for fault records. -/
def slotField (tk : Nat) : Nat := slotOfTk tk

/-- The side-log entries of a request (R243): one a lane, and one for a whole combining fadd group. -/
def State.logReq (s : State) (key : Nat) (r : MemReq) : State :=
  let ent (l : MLane) (data : Nat) : SEnt :=
    match r.op with
    | .atom op _ _ _ => ⟨l.ea, true, l.size, op, data, l.tid, l.mode, l.pcw⟩
    | _ => ⟨l.ea, false, l.size, 0, data, l.tid, 0, l.pcw⟩
  let conf (l : MLane) : Confirm := ⟨r.chip, r.core, l.tk, l.id⟩
  match r.op, r.lanes with
  | .atom 13 _ _ true, l :: rest => s.logWrite r.home r.ctx key (ent l r.sum) ((l :: rest).map conf) (slotOfTk l.tk)
  | _, ls => ls.foldl (fun s l => s.logWrite r.home r.ctx key (ent l l.data) [conf l] (slotOfTk l.tk)) s

/-- The number of the host port among the cores of R392. -/
def hostCore : Nat := 0x1ff

/-- A request refused by its home (R242): a word that returns a value holds its thread and traps; a store or RED becomes a deferred fault,
except a host's, which is dropped (R407), and an agent's, which is answered (R304). -/
def State.refuseReq (s : State) (r : MemReq) (c : Cause) (info : Nat) : State :=
  if r.core = hostCore ∨ r.lanes.any MLane.agent = true then r.lanes.foldl (fun s l => s.reply r.home r l (.refused c info)) s else
  match r.op with
  | .store | .atom _ _ false _ => r.lanes.foldl (fun s l =>
      s.toDir r.home r.ctx (.refused ⟨l.tid, l.ea, l.pcw, c, info⟩ [⟨r.chip, r.core, l.tk, l.id⟩])) s
  | _ => r.lanes.foldl (fun s l => s.reply r.home r l (.refused c info)) s

/-- The notice of an atomic performed on a queue's write index (R285): to the distributor of the queue's die. -/
def State.widxNotice (s : State) (home ctx ea v : Nat) : State :=
  s.queues.foldl (fun s q =>
    if q.1 / 64 = ctx ∧ q.2.desc = ea then s.send home s.chip (504 + q.2.die) .queueNotice (.n3 ctx (q.1 % 64) v) else s) s

/-- The bytes of a mask written, of n from a key. -/
def State.wrMask (s : State) (k mask v : Nat) : Nat → State
  | 0 => s
  | n + 1 => if bit mask n then (s.wrMask k mask v n).wrMem (k + n) 1 (v / 2 ^ (8 * n)) else s.wrMask k mask v n

/-- A request performed at physical keys (R187, R192, R207): `k ea` is the key of an address. An agent's store writes the bytes of its mask (R302). -/
def State.doReq (s : State) (r : MemReq) (k : Nat → Nat) : State :=
  match r.op with
  | .load sx => r.lanes.foldl (fun s l =>
      s.reply r.home r l (.data (loadVal sx l.size (memRdN s.mem (k l.ea) l.size)) 0)) s
  | .store =>
    let s := r.lanes.foldl (fun s l => if l.agent then s.wrMask (k l.ea) l.cmp l.data l.size else s.wrMem (k l.ea) l.size l.data) s
    let s := r.lanes.foldl (fun s l => s.afterWrite r.home r.ctx l.ea l.size) s
    r.lanes.foldl (fun s l => s.reply r.home r l .ack) s
  | .atom op w64 ret group => match r.lanes with
    | [] => s
    | l0 :: _ =>
      let w := memRdN s.mem (k l0.ea) l0.size
      let (n, rs) := if op = 13 ∧ group = true then atomComb w64 r.sum r.fl w r.lanes else atomLanes op w64 w r.lanes
      let s := (s.wrMem (k l0.ea) l0.size n).afterWrite r.home r.ctx l0.ea l0.size
      let x := l0.ea / 8 * 8
      let s := s.widxNotice r.home r.ctx x (memRdN s.mem (k x) 8)
      rs.foldl (fun s x => s.reply r.home r x.1 (if ret then .data x.2.1 (if atomFloat op then x.2.2 else 0) else .ack)) s
  | .watch => r.lanes.foldl (fun s l =>
      let ws := (s.watches.get? r.home).getD []
      if memRdN s.mem (k l.ea) l.size ≠ l.data % 2 ^ (8 * l.size) ∨ 256 ≤ ws.length then s.reply r.home r l .woken
      else { s with watches := s.watches.set r.home (ws ++ [⟨r.ctx, r.chip, r.core, l⟩]) }) s

/-- Whether the lanes of a store together cover a codeword. -/
def MemReq.covers (r : MemReq) (k : Nat → Nat) (p : Nat × Nat) : Bool :=
  r.op == .store && (List.range p.2).all fun i => r.lanes.any fun l => decide (k l.ea ≤ p.1 + i ∧ p.1 + i < k l.ea + l.size)

/-- A request performed where no codeword is poisoned (R431): a lane that would read one, or write part of one, is refused; a write of a whole one
clears it. -/
def State.doSound (s : State) (r : MemReq) (k : Nat → Nat) : State :=
  if s.poison = [] then s.doReq r k else
  let bad (l : MLane) : Bool := s.poison.any fun p => touches p (k l.ea) l.size && !r.covers k p
  let no := r.lanes.filter bad
  let yes := r.lanes.filter fun l => !bad l
  let s := if no = [] then s else s.refuseReq { r with lanes := no } .uncorrectable 0
  let s : State := { s with poison := s.poison.filter fun p => !r.covers k p }
  if yes = [] then s else s.doReq { r with lanes := yes } k

/-- Rights a request needs: read, write (R183). -/
def MOp.needs : MOp → Bool × Bool
  | .load _ | .watch => (true, false)
  | .store | .atom _ _ false _ => (false, true)
  | .atom _ _ true _ => (true, true)

/-- The event that performs a request. -/
def MemReq.event (r : MemReq) : Instr :=
  match r.op with
  | .load _ => .remoteRead
  | .store => .writeRequest
  | .atom _ _ _ _ => .atomicRequest
  | .watch => .watchRequest

/-- The lanes of a request in one page of its home (R186): performed, refused, logged or held. -/
def State.performPage (s : State) (r : MemReq) (h : HomeLoc) (ea : Nat) : State :=
  let key := h.key r.ctx
  let base := ea - h.pofs
  let code := r.lanes.any fun l => l.agent && l.mode == 2
  match s.verdict key (r.op.needs.1 && !code) r.op.needs.2 with
  | .refuse c => r.lanes.foldl (fun s l => s.refuseReq { r with lanes := [l] } (s.causeAt key (l.ea - base) l.size c) 0) s
  | .rehoming => s.holdAt key ⟨r.event, .req r⟩
  | .absent _ =>
    if (r.op == .store || r.op.needs == (false, true)) && !r.lanes.any MLane.agent then s.logReq key r
    else r.lanes.foldl (fun s l => s.reply r.home r l (.heldAt key)) (s.holdAt key ⟨r.event, .req r⟩)
  | .ok p =>
    if p.tier = 2 ∧ s.hostLost = true then s.refuseReq r .permission 3
    else if (code && !p.ex) || ((r.lanes.any fun l => l.agent && l.mode != 0) && !p.s) then s.refuseReq r .permission 0
    else if p.tier = 2 ∧ r.op ≠ .store then s.post .pcieCompletion (.req r)
    else s.doSound r fun ea => s.byteKey key p (ea - base)

/-- A request at its home (R186): performed page by page, since the lanes of one line can lie in two pages (R192); one that reaches a former home is
forwarded (R77, R257). -/
def State.performReq (s : State) (r : MemReq) : State :=
  match r.lanes with
  | [] => s
  | l0 :: _ =>
    match s.homeOf r.ctx l0.ea with
    | none => s.refuseReq r .permission 0
    | some h =>
      if h.chip ≠ s.chip ∨ h.core ≠ r.home then s.forward r.home h.chip h.core r.ctx r.event (.req { r with home := h.core })
      else
        let mine (l : MLane) : Bool := ((s.homeOf r.ctx l.ea).map (·.key r.ctx)) == some (h.key r.ctx)
        let rest := r.lanes.filter fun l => !mine l
        let s1 := s.performPage { r with lanes := r.lanes.filter mine } h l0.ea
        match rest with
        | [] => s1
        | l1 :: _ => match s.homeOf r.ctx l1.ea with
          | some h1 => s1.performPage { r with lanes := rest } h1 l1.ea
          | none => s1.refuseReq { r with lanes := rest } .permission 0

/-- A request finished with the host's answer (R197): the read of a host-tier word. -/
def State.finishHost (s : State) (r : MemReq) : State :=
  match r.lanes with
  | [] => s
  | l0 :: _ =>
    match s.homeOf r.ctx l0.ea with
    | none => s.refuseReq r .permission 0
    | some h => match s.verdict (h.key r.ctx) r.op.needs.1 r.op.needs.2 with
      | .ok p => if s.hostLost then s.refuseReq r .permission 3 else s.doSound r fun ea => s.byteKey (h.key r.ctx) p (ea - (l0.ea - h.pofs))
      | _ => s.performReq r

/-- One side-log entry replayed at its page (R246): performed as recorded, its flags discarded, the directory's count lowered; a reduction on a write
index sends its notice as one performed at once does (R285). -/
def State.replayEnt (s : State) (ctx key : Nat) (e : SEnt) : State :=
  match s.homeOf ctx e.ea, s.pages.get? key with
  | some h, some p =>
    let k := s.byteKey key p h.pofs
    if s.partPoison k e.size then s.toDir (coreOfKey key) ctx (.failed ⟨e.tid, e.ea, e.pcw, .uncorrectable, 0⟩) else
    let s := if e.red then s.wrMem k e.size (atomNew e.op (e.size == 8) e.mode (memRdN s.mem k e.size) e.data 0).1
      else s.wrMem k e.size e.data
    let s := s.afterWrite (coreOfKey key) ctx e.ea e.size
    let x := e.ea / 8 * 8
    let s := if e.red then s.widxNotice (coreOfKey key) ctx x (memRdN s.mem (s.byteKey key p (h.pofs - (e.ea - x))) 8) else s
    s.toDir (coreOfKey key) ctx (.replayed e.tid)
  | _, _ => s

/-- The page's side log replayed in the order it was logged (R246). -/
def State.replayLog (s : State) (ctx key : Nat) : State :=
  let es := (s.slog.get? key).getD []
  es.foldl (fun s e => s.replayEnt ctx key e) { s with slog := s.slog.del key, logged := s.logged.filter (· != key) }

/-- The page's side log turned into deferred records (R247). -/
def State.failLog (s : State) (ctx key : Nat) (c : Cause) : State :=
  let es := (s.slog.get? key).getD []
  es.foldl (fun s e => s.toDir (coreOfKey key) ctx (.failed ⟨e.tid, e.ea, e.pcw, c, 0⟩))
    { s with slog := s.slog.del key, logged := s.logged.filter (· != key) }

/-- A directory with nothing in it. -/
def Dir.blank : Dir := { counts := [], recs := [], round := 0, confirms := [], waiting := [], seq := 0, set := false }
/-- A context's directory. -/
def State.dir (s : State) (ctx : Nat) : Dir := (s.dirs.get? ctx).getD Dir.blank
/-- A context's directory replaced. -/
def State.setDir (s : State) (ctx : Nat) (d : Dir) : State := { s with dirs := s.dirs.set ctx d }

/-- The count of a thread. -/
def Dir.count (d : Dir) (t : TId) : Nat := ((d.counts.find? (·.1 == t)).map (·.2)).getD 0
/-- The count of a thread changed. -/
def Dir.setCount (d : Dir) (t : TId) (n : Nat) : Dir :=
  { d with counts := (d.counts.filter (·.1 != t)) ++ (if n = 0 then [] else [(t, n)]) }
/-- Whether the directory holds nothing for any thread (R245). -/
def Dir.empty (d : Dir) : Bool := d.counts.isEmpty && d.recs.isEmpty

/-- The chips of a context's placement (R319). -/
def Ctx.chips (c : Ctx) : List Nat :=
  (c.ptab.flatMap fun e => if e.v then (List.range e.nchip).map (e.chip0 + ·) else []).eraseDups

/-- A LOGPEND notice to every core of every chip of the context (R244, R245). -/
def State.notifyAll (s : State) (ctx seq : Nat) (i : Instr) : State :=
  let h := s.dirHome ctx
  (s.ctx ctx).chips.foldl (fun s ch =>
    (List.range Config.numCores).foldl (fun s c => s.send h.2 ch c i (.logpend c ctx seq h.1 h.2)) s) s

/-- Confirmations sent as logged acknowledgements (R244). -/
def State.confirm (s : State) (home : Nat) (ks : List Confirm) : State :=
  ks.foldl (fun s k => s.send home k.chip k.core .ackResponse (.resp k.tk k.id .ack)) s

/-- Waiting queries whose thread's count is 0 are answered with the thread's oldest record, which leaves (R245, R378). -/
def State.answerQueries (s : State) (ctx : Nat) : State :=
  let home := (s.dirHome ctx).2
  let ready := (s.dir ctx).waiting.filter fun q => !q.exit || (s.dir ctx).count q.tid == 0
  ready.foldl (fun s q =>
    let d := s.dir ctx
    let r := d.recs.find? (·.tid == q.tid)
    let d := { d with waiting := d.waiting.filter (· != q), recs := (match r with | some x => d.recs.erase x | none => d.recs) }
    (s.setDir ctx d).send home q.chip q.core .directoryQueryReply (.dirReply q.tk r)) s

/-- LOGPEND set on the first entry or record, cleared once nothing is left (R244, R245). -/
def State.dirNotice (s : State) (ctx : Nat) : State :=
  let d := s.dir ctx
  if !d.empty && !d.set then
    (s.setDir ctx { d with set := true, seq := d.seq + 1, round := (s.ctx ctx).chips.length * Config.numCores }).notifyAll ctx (d.seq + 1)
      .logpendSet
  else if d.empty && d.set && d.round == 0 then
    (s.setDir ctx { d with set := false, seq := d.seq + 1 }).notifyAll ctx (d.seq + 1) .logpendClear
  else s

/-- Confirmations leave once no set round is in progress (R244). -/
def State.dirConfirm (s : State) (ctx : Nat) : State :=
  let d := s.dir ctx
  if d.round = 0 then (s.setDir ctx { d with confirms := [] }).confirm (s.dirHome ctx).2 d.confirms else s

/-- The directory takes a message (R244, R247). -/
def State.dirTake (s : State) (ctx : Nat) (m : DirMsg) : State :=
  let d := s.dir ctx
  let d := match m with
    | .entry t ks => { d.setCount t (d.count t + 1) with confirms := d.confirms ++ ks }
    | .refused r ks => { d with recs := d.recs ++ [r], confirms := d.confirms ++ ks }
    | .replayed t => d.setCount t (d.count t - 1)
    | .failed r => { d.setCount r.tid (d.count r.tid - 1) with recs := d.recs ++ [r] }
  ((((s.setDir ctx d).dirNotice ctx).dirConfirm ctx).answerQueries ctx).dirNotice ctx

end Sys2Proof.Machine
end

