-- ==== Sys2Proof/Machine/Memory.lean ====
section
/-! DEFINITION. What every memory word shares: effective addresses (08 R182), the checks at issue (R183, R184, R240, R241), locks (03 R56) and
the messages of an access (R185, R192). -/

namespace Sys2Proof.Machine
open Sys2Proof

/-- The effective address of an LM word in a lane (R182). -/
def lmEa (t : Thr) (a : BitVec 5) (o : BitVec 5) (size : Nat) : Word := t.gr a.toNat + BitVec.ofInt 64 (sgn 5 o.toNat * size)

/-! ### Checks at issue -/

/-- What the checks of one lane's address find (R183, R184). -/
inductive Chk where
  | ok (h : HomeLoc) (e : PermE)
  | fault (c : Cause)
  | probe (p : Probe)
  deriving DecidableEq, Repr

/-- The rights a word requires (R183): read, write, and whether the page must be sealed. -/
structure Need where
  rd : Bool
  wr : Bool
  sealed : Bool
  deriving DecidableEq, Repr

/-- The refusal of a permission-cache entry (R183, R241). -/
def PermE.refuses (e : PermE) (n : Need) : Option Cause :=
  if (n.rd && !e.rd) || (n.wr && !e.wr) || (n.sealed && !e.s) then some .permission
  else if n.wr && e.s then some .sealedWrite
  else none

/-- The checks of R183 on one lane's address, in their order. -/
def State.check (s : State) (l : LaneRef) (ea : Word) (size : Nat) (n : Need) (tier : Nat → Bool) : Chk :=
  if bits ea 63 56 ≠ 0 then .fault .permission
  else if ea.toNat % size ≠ 0 then .fault .misaligned
  else
    let ctx := s.iss.ctx
    match s.homeAt s.iss.core ctx ea.toNat with
    | none => .fault .permission
    | some h =>
      let key := h.key ctx
      let p : Probe := { ctx := ctx, key := key, home := h.core, chip := h.chip, schip := s.chip, src := s.iss.core, tk := l.tk, again := false }
      match s.permEntry s.iss.core ctx h.chip key with
      | none => .probe p
      | some e => match e.refuses n with
        | some c => if (s.rT l.tk).fresh = some (freshKey h.chip key) then .fault c else .probe { p with again := true }
        | none => if tier h.tier then .ok h e else .fault .permission

/-- A lane whose checks passed. -/
structure MemLane where
  l : LaneRef
  ea : Word
  h : HomeLoc
  e : PermE
  deriving DecidableEq, Repr

/-- The checks of a word in every active lane: lanes that fail or wait leave the chain; the others are listed in ascending order. -/
def State.checkAll (s : State) (pr : Bool) (size : Nat) (n : Need) (tier : Nat → Bool) (ea : Thr → Word) : State × List MemLane :=
  s.iss.lanes.foldl (fun (s', ms) l =>
    if s.active pr l then
      let x := ea (s.rT l.tk)
      match s.check l x size n tier with
      | .ok h e => (s', ms ++ [⟨l, x, h, e⟩])
      | .fault c => (s'.fail l c x 0, ms)
      | .probe p => (s'.drop l (.probe p), ms)
    else (s', ms)) (s, [])

/-! ### Locks -/

/-- The lock of a long-latency word in one lane. -/
def lockOf (id d regs la : Nat) (active : Bool) (due : Option Nat) (val : Option Word) : Lock :=
  { id := id, d := d, regs := regs, left := la, active := active, due := due, val := val, fl := 0 }

/-- Every issuing lane locks the destination (R56): an active lane until its answer, an inactive one until the last active lane's, or to the
end of this cycle when no lane is active. -/
def State.lockLanes (s : State) (id d regs la : Nat) (on : LaneRef → Bool) : State :=
  let any := s.iss.lanes.any on
  let now := s.clockOf s.iss.core
  s.eachLane fun s l => s.modT l.tk fun t => { t with locks := t.locks ++
    [lockOf id d regs la (on l) (if on l || any then none else some now) (if !on l && s.mz then some 0 else none)] }

/-- The same for a word whose values are known at issue: `v` gives those of the active lanes, delivered at `due`. -/
def State.lockKnown (s : State) (id d regs la due : Nat) (v : LaneRef → Option Word) : State :=
  let any := s.iss.lanes.any fun l => (v l).isSome
  let now := s.clockOf s.iss.core
  s.eachLane fun s l => s.modT l.tk fun t => { t with locks := t.locks ++
    [match v l with
      | some x => lockOf id d regs la true (some due) (some x)
      | none => lockOf id d regs la false (if any then none else some now) (if s.mz then some 0 else none)] }

/-- A lane's lock given its value and delivery cycle. -/
def State.fixLock (s : State) (tk id due : Nat) (v : Word) : State :=
  s.modT tk fun t => { t with locks := t.locks.map fun k => if k.id = id then { k with due := some due, val := some v } else k }

/-! ### Messages -/

/-- The ordering annotation of the prefix in force (R55). -/
def State.ordOf (s : State) : Nat × Nat :=
  match s.iss.pfx with
  | .mem p => (p.o.toNat, p.s.toNat)
  | _ => (0, 0)

/-- The chain head's PCW (R243). -/
def State.pcw (s : State) (t : Thr) : Nat := (s.iss.pc.toNat - s.codeBase t) / 4 % 2 ^ 28

/-- The lane of a request. -/
def State.mlane (s : State) (m : MemLane) (id size data cmp mode : Nat) : MLane :=
  let t := s.rT m.l.tk
  { tk := m.l.tk, id := id, tid := t.tid, pcw := s.pcw t, ea := m.ea.toNat, size := size, data := data, cmp := cmp, mode := mode }

/-- An outstanding access of a lane; an annotation acts only on SO and RC pages (R197, R227). -/
def State.acc (s : State) (m : MemLane) (id : Nat) (k : AKind) (d out : Nat) : Acc :=
  let (o, sc) := s.ordOf
  let on := decide (m.e.ord ≤ 1)
  { id := id, kind := k, line := some (m.ea.toNat / 128), pkind := m.e.ord, acq := on && (o == 1 || o == 3), rel := on && (o == 2 || o == 3)
    scope := sc, held := [], out := out, pc := s.iss.pc, d := d, ea := m.ea.toNat, heldAt := none, recd := false }

/-- The ordering kind of a page that the map unit writes back to (R227): as the permission cache has it, else as the home on this chip reports it; of a page
on another chip that the core has never probed, SO (log 56). -/
def State.kindAt (s : State) (core ctx : Nat) (h : HomeLoc) : Nat :=
  match s.permEntry core ctx h.chip (h.key ctx) with
  | some e => e.ord
  | none => if h.chip = s.chip then ((s.pages.get? ((s.inPage h ctx).key ctx)).map (·.ord)).getD 0 else 0

/-- The words of a crew's bound ranges that are marked are stored back by the releasing lane, in ascending address order, as its own
stores (R178); one that lies in no region becomes a deferred fault of the lane (R164). -/
def State.writeBack (s : State) (tk : Nat) : State :=
  let t := s.T tk
  if t.kind ≠ 2 then s else
  let ck := ckOfTk tk
  let c := s.C ck
  let core := coreOfTk tk
  let s := s.modC ck fun c => { c with bind := c.bind.map fun b => if b.wb then { b with marks := [] } else b }
  let jobs := c.bind.flatMap fun b => if b.wb then b.marks.map fun o => (b.va + (o - b.spoff), o) else []
  let jobs := isort (fun a b => decide (a.1 ≤ b.1)) jobs
  jobs.foldl (fun s j =>
    let id := s.ids
    let s := s.fresh
    let o := s.ids
    let pcw := (t.pc.toNat - s.codeBase t) / 4 % 2 ^ 28
    let a (ord : Nat) : Acc := { id := id, kind := .wb, line := some (j.1 / 128), pkind := ord, acq := false, rel := false, scope := 0, held := []
                                 out := o, pc := t.pc, d := 0, ea := j.1, heldAt := none, recd := false }
    match s.homeAt core t.ctx j.1 with
    | none =>
      let h := s.dirHome t.ctx
      let m : DirMsg := .refused ⟨t.tid, j.1, pcw, .permission, 0⟩ [⟨s.chip, core, tk, id⟩]
      (s.newOut { wait := [tk], chip := h.1, core := h.2, src := core, ev := ⟨.sideLogRegistration, .dirMsg t.ctx m⟩ }).startAcc tk (a 0)
    | some h =>
      let ml : MLane := { tk := tk, id := id, tid := t.tid, pcw := pcw, ea := j.1, size := 8, data := s.shareRd ck j.2 8, cmp := 0, mode := 0 }
      let r : MemReq := { op := .store, ctx := t.ctx, home := h.core, chip := s.chip, core := core, lanes := [ml], sum := 0, fl := 0 }
      let s := s.newOut { wait := [tk], chip := h.chip, core := h.core, src := core, ev := ⟨.writeRequest, .req r⟩ }
      let s := if h.tier = 2 then s.modT tk fun t => { t with posted := (t.posted ++ [homeNum h.chip h.core]).eraseDups } else s
      s.startAcc tk (a (s.kindAt core t.ctx h))) s

/-- What precedes a release access of a lane: the write-back of the crew's bound ranges and, at SYSTEM scope, the flushing reads (R197). -/
def State.beforeRelease (s : State) (tk scope : Nat) : State :=
  let s := s.writeBack tk
  if scope = 5 then s.flushReads tk else s

/-- One request of some lanes of the word sent to its home: it leaves once none of its lanes is held (R194, R195, R197). -/
def State.sendReq (s : State) (op : MOp) (k : AKind) (d : Nat) (sum : Nat) (fl : Flags) (ls : List (MemLane × MLane)) : State :=
  match ls with
  | [] => s
  | (m0, _) :: _ =>
    let core := s.iss.core
    let rel := (s.acc m0 0 k d 0).rel
    let s := if rel then ls.foldl (fun s x => s.beforeRelease x.1.l.tk s.ordOf.2) s else s
    let r : MemReq := { op := op, ctx := s.iss.ctx, home := m0.h.core, chip := s.chip, core := core, lanes := ls.map (·.2), sum := sum, fl := fl }
    let o := s.ids
    let s := s.newOut { wait := ls.map (·.1.l.tk), chip := m0.h.chip, core := m0.h.core, src := core, ev := ⟨r.event, .req r⟩ }
    ls.foldl (fun s x =>
      let s := if m0.h.tier = 2 ∧ k = .store then s.modT x.1.l.tk fun t => { t with posted := (t.posted ++ [homeNum m0.h.chip m0.h.core]).eraseDups } else s
      s.startAcc x.1.l.tk (s.acc x.1 x.2.id k d o)) s

end Sys2Proof.Machine
end

