-- ==== Sys2Proof/Machine/LoadStore.lean ====
section
/-! DEFINITION. Loads and stores of global, scratchpad and private words, and the full/empty words (08 R189-R203). -/

namespace Sys2Proof.Machine
open Sys2Proof

/-! ### Global loads -/

/-- How a load word differs from LD (R189, R190). -/
structure LoadKind where
  sx : Bool
  nm : Bool
  strict : Bool
  alloc : Bool
  deriving DecidableEq, Repr

/-- A load whose checks passed, in one lane: replica, local access, migration or remote read (R185). A hit, too, is outstanding until its value is delivered;
one in the L2 slice brings the line into the L1 (R190). -/
def State.loadLane (s : State) (k : LoadKind) (d size id : Nat) (m : MemLane) : State :=
  let tk := m.l.tk
  let core := s.iss.core
  let ml := s.mlane m id size 0 0 0
  if m.e.s then
    let ea := m.ea.toNat
    let l1 := s.l1Of core (ea / 128)
    let a := s.acc m id .load d 0
    let f : Fill := { ctx := s.iss.ctx, home := m.h.core, chip := s.chip, core := core, holder := if k.alloc then some l1 else none, epoch := s.epoch (dieOf core), code := false
                      strict := k.strict, sx := k.sx, lane := ml }
    match s.replica core s.iss.ctx ea, (s.T tk).pend.any (·.holds a) with
    | some (r, n), false =>
      let s := if r.holder != l1 && k.alloc then s.sendFill m.h.chip { f with strict := false, lane := noLane ea size } else s
      (s.fixLock tk id (s.clockOf core + n) (loadVal k.sx size (r.bytes ea size))).modT tk fun t => { t with pend := t.pend ++ [a] }
    | _, _ =>
      let o := s.ids
      let s := s.newOut { wait := [tk], chip := m.h.chip, core := m.h.core, src := core, ev := ⟨.lineFill, .fill f⟩ }
      let s := if k.alloc then s.sliceFill m.h.chip f else s
      s.startAcc tk { a with out := o }
  else s.sendReq (.load k.sx) .load d 0 0 [(m, ml)]

/-- Whether a load of a roaming thread migrates (R70, R185). -/
def State.migrates (s : State) (k : LoadKind) (m : MemLane) : Bool :=
  s.roaming && !k.nm && !m.e.s && !(m.h.chip == s.chip && m.h.core == s.iss.core) && (s.rT m.l.tk).frames.isEmpty

/-- A thread that departs with a load or MIGR waits for its departure drain (R70, R71). -/
def State.depart (s : State) (tk : Nat) (g : Mig) : State :=
  ((s.modT tk fun t => { t with mig := some g }).block tk .depart).recheck tk

/-- A global load word (R189, R190). -/
def State.gload (s : State) (f : LmF) (k : LoadKind) : State :=
  let size := 2 ^ f.s.toNat
  let d := f.d.toNat
  let (s, ms) := s.checkAll (f.p == 1) size ⟨true, false, k.strict⟩ (fun _ => true) fun t => lmEa t f.a f.o size
  let (o, sc) := s.ordOf
  let go := ms.filter (s.migrates k)
  let stay := ms.filter fun m => !s.migrates k m
  let id := s.ids
  let s := s.fresh
  let all := s.iss.lanes
  let s : State := { s with iss := { s.iss with lanes := all.filter fun l => !go.any (·.l == l) } }
  let s := s.lockLanes id d (gbit d) f.l.toNat fun l => stay.any (·.l == l)
  let s : State := { s with iss := { s.iss with lanes := all } }
  let s := stay.foldl (fun s m => s.loadLane k d size id m) s
  go.foldl (fun s m => s.depart m.l.tk
    { ea := m.ea.toNat, sz := f.s.toNat, sx := k.sx, d := d, mg := false, acq := decide (m.e.ord ≤ 1) && (o == 1 || o == 3), scope := sc
      pc := s.iss.pc }) s

/-- LD (R189). -/
def execLd (f : LmF) (s : State) : Host.Outcome State Fault Refusal := word (.ld f) s fun s => s.gload f ⟨false, false, false, true⟩
/-- LDSX (R189). -/
def execLdsx (f : LmF) (s : State) : Host.Outcome State Fault Refusal := word (.ldsx f) s fun s => s.gload f ⟨true, false, false, true⟩
/-- LDNM (R189): a roaming thread reads remotely. -/
def execLdnm (f : LmF) (s : State) : Host.Outcome State Fault Refusal := word (.ldnm f) s fun s => s.gload f ⟨false, true, false, true⟩
/-- LDR (R190): allocates a missing line. -/
def execLdr (f : LmF) (s : State) : Host.Outcome State Fault Refusal := word (.ldr f) s fun s => s.gload f ⟨false, true, true, true⟩
/-- LDRNA (R190): allocates none. -/
def execLdrna (f : LmF) (s : State) : Host.Outcome State Fault Refusal := word (.ldrna f) s fun s => s.gload f ⟨false, true, true, false⟩

/-! ### Global stores -/

/-- The lanes of a word split into those that go with the first and the others. -/
def splitGroup (same : MemLane → MemLane → Bool) : List MemLane → List MemLane × List MemLane
  | [] => ([], [])
  | m :: t => (m :: t.filter (same m), t.filter fun x => !same m x)

/-- The groups of a word's lanes, each in ascending lane order; the number bounds the groups. -/
def groupsOf (same : MemLane → MemLane → Bool) : Nat → List MemLane → List (List MemLane)
  | 0, _ => []
  | n + 1, ms => match splitGroup same ms with
    | ([], _) => []
    | (g, rest) => g :: groupsOf same n rest

/-- Whether two lanes' stores travel as one message: one line, one home (R192). -/
def sameLine (a b : MemLane) : Bool := a.ea.toNat / 128 == b.ea.toNat / 128 && a.h.chip == b.h.chip && a.h.core == b.h.core

/-- A global store word (R191, R192). -/
def State.gstore (s : State) (f : StF) (comb : Bool) : State :=
  let size := 2 ^ f.s.toNat
  let (s, ms) := s.checkAll (f.p == 1) size ⟨false, true, false⟩ (fun _ => true) fun t => lmEa t f.a f.o size
  let id := s.ids
  let s := s.fresh
  let pick (s : State) (m : MemLane) : MemLane × MLane := (m, s.mlane m id size ((s.rT m.l.tk).gr f.d.toNat).toNat 0 0)
  (groupsOf (fun a b => comb && sameLine a b) ms.length ms).foldl
    (fun s g => s.sendReq .store .store f.d.toNat 0 0 (g.map (pick s))) s

/-- ST (R191, R192). -/
def execSt (f : StF) (s : State) : Host.Outcome State Fault Refusal := word (.st f) s fun s => s.gstore f true
/-- STNM (R192): each lane's store is performed on its own. -/
def execStnm (f : StF) (s : State) : Host.Outcome State Fault Refusal := word (.stnm f) s fun s => s.gstore f false

/-! ### Scratchpad and private words -/

/-- The crew that issues the chain. -/
def State.ck (s : State) : Nat := s.iss.crew.getD 0

/-- The active lanes of a scratchpad or private word whose offsets pass: MISALIGNED, then PERMISSION at or beyond the limit (R177, R179,
R198); the others take their traps. -/
def State.offsets (s : State) (pr : Bool) (size limit : Nat) (ea : Thr → Word) : State × List (LaneRef × Nat) :=
  s.iss.lanes.foldl (fun (s', ms) l =>
    if s.active pr l then
      let x := ea (s.rT l.tk)
      if x.toNat % size ≠ 0 then (s'.fail l .misaligned x 0, ms)
      else if limit ≤ x.toNat then (s'.fail l .permission x 0, ms)
      else (s', ms ++ [(l, x.toNat)])
    else (s', ms)) (s, [])

/-- The lanes whose bytes are not poisoned (R431): a lane that would read poison, or write part of a poisoned word, raises UNCORRECTABLE; a whole word
written clears it. -/
def State.sound (x : State × List (LaneRef × Nat)) (wr : Bool) (size : Nat) (key : LaneRef → Nat → Nat) : State × List (LaneRef × Nat) :=
  if x.1.poison = [] then x else
  x.2.foldl (fun (s, ms) m =>
    let k := key m.1 m.2
    if (if wr then x.1.partPoison k size else x.1.poisoned k size) then (s.fail m.1 .uncorrectable (W m.2) 0, ms)
    else (if wr then s.cleanse k size else s, ms ++ [m])) (x.1, [])

/-- The cycles an access of a rank takes: the most distinct words of one bank (R174). -/
def bankCycles (words : List Nat) : Nat :=
  let ws := words.eraseDups
  (ws.map fun w => (ws.filter fun x => x % 32 == w % 32).length).foldl max 0

/-- When the loads of the rank issued now deliver from the banks (R199). -/
def State.bankDue (s : State) : Nat := s.clockOf s.iss.core + 4 + (bankCycles s.iss.banks - 1)

/-- More scratchpad words that the rank reaches: its loads deliver once the banks have served them all (R174, R199). -/
def State.reach (s : State) (words : List Nat) : State :=
  let s : State := { s with iss := { s.iss with banks := s.iss.banks ++ words } }
  s.iss.loads.foldl (fun x l => x.modT l.1 fun t => { t with locks := t.locks.map fun k =>
    if k.id = l.2 ∧ k.due.isSome = true then { k with due := some s.bankDue } else k }) s

/-- Loads that the banks serve are outstanding until they deliver (R216). -/
def State.bankAccs (s : State) (id d : Nat) (ms : List (LaneRef × Nat)) : State :=
  let s : State := { s with iss := { s.iss with loads := s.iss.loads ++ ms.map fun m => (m.1.tk, id) } }
  ms.foldl (fun s m => s.modT m.1.tk fun t => { t with pend := t.pend ++
    [{ id := id, kind := .bank, line := none, pkind := 3, acq := false, rel := false, scope := 0, held := [], out := 0, pc := s.iss.pc
       d := d, ea := m.2, heldAt := none, recd := false }] }) s

/-- A load of the core's own banks: performed now, delivered in 4 cycles and one for each further bank cycle (R199). -/
def State.bankLoad (s : State) (f : LmF) (limit : Nat) (key : LaneRef → Nat → Nat) (wordsOf : List Nat → List Nat) : State :=
  let size := 2 ^ f.s.toNat
  let (s, ms) := State.sound (s.offsets (f.p == 1) size limit fun t => lmEa t f.a f.o size) false size key
  let id := s.ids
  let s := s.reach (wordsOf (ms.map (·.2)))
  (s.fresh.lockKnown id f.d.toNat (gbit f.d.toNat) f.l.toNat s.bankDue fun l =>
    (ms.find? (·.1 == l)).map fun m => W (memRdN s.mem (key m.1 m.2) size)).bankAccs id f.d.toNat ms

/-- LDS (R198, R199). -/
def execLds (f : LmF) (s : State) : Host.Outcome State Fault Refusal :=
  word (.lds f) s fun s =>
    let c := s.C s.ck
    s.bankLoad f c.spSize (fun _ o => spadKey s.iss.core (c.spBase + o)) (·.map (· / 8))

/-- STS (R198): lanes write in ascending order. -/
def execSts (f : StF) (s : State) : Host.Outcome State Fault Refusal :=
  word (.sts f) s fun s =>
    let size := 2 ^ f.s.toNat
    let ck := s.ck
    let key (_ : LaneRef) (o : Nat) : Nat := spadKey s.iss.core ((s.C ck).spBase + o)
    let (s, ms) := State.sound (s.offsets (f.p == 1) size (s.C ck).spSize fun t => lmEa t f.a f.o size) true size key
    ms.foldl (fun s m => s.shareWr ck m.2 size ((s.rT m.1.tk).gr f.d.toNat).toNat) (s.reach (ms.map (·.2 / 8)))

/-- LDP (R198): lane L reaches position L's private slice (R179). -/
def execLdp (f : LmF) (s : State) : Host.Outcome State Fault Refusal :=
  word (.ldp f) s fun s =>
    let c := s.C s.ck
    s.bankLoad f c.pvSize (fun l o => privKey s.iss.core l.pos (c.pvBase + o)) fun _ => []

/-- STP (R198). -/
def execStp (f : StF) (s : State) : Host.Outcome State Fault Refusal :=
  word (.stp f) s fun s =>
    let size := 2 ^ f.s.toNat
    let c := s.C s.ck
    let key (l : LaneRef) (o : Nat) : Nat := privKey s.iss.core l.pos (c.pvBase + o)
    let (s, ms) := State.sound (s.offsets (f.p == 1) size c.pvSize fun t => lmEa t f.a f.o size) true size key
    ms.foldl (fun s m =>
      s.wrMem (privKey s.iss.core m.1.pos (c.pvBase + m.2)) size ((s.rT m.1.tk).gr f.d.toNat).toNat) s

/-! ### Full/empty words -/

/-- Whether a scratchpad word is FULL (R175). -/
def State.isFull (s : State) (key : Nat) : Bool := !s.empt.contains key
/-- A scratchpad word's bit set. -/
def State.setFull (s : State) (key : Nat) (full : Bool) : State :=
  { s with empt := if full then s.empt.filter (· != key) else if s.empt.contains key then s.empt else key :: s.empt }

/-- Whether an FE access can proceed (R201): 0 LDFE, 1 STEF, 2 LDFF. -/
def State.feReady (s : State) (op key : Nat) : Bool := if op = 1 then !s.isFull key else s.isFull key

/-- The bank's effect of an FE access that proceeds, with the value read (R201). -/
def State.fePerform (s : State) (op key data : Nat) : State × Word :=
  match op with
  | 0 => (s.setFull key false, W (memRdN s.mem key 8))
  | 1 => ((s.wrMem key 8 data).setFull key true, 0)
  | _ => (s, W (memRdN s.mem key 8))

/-- The index of a bank's waiting list. -/
def feBank (core key : Nat) : Nat := core * 32 + key / 8 % 32

/-- An FE access of one lane at its bank: it proceeds, or joins the waiting list (R201-R203). -/
def State.feLane (s : State) (op d id due : Nat) (l : LaneRef) (o data : Nat) : State :=
  let core := s.iss.core
  let ck := s.ck
  let key := spadKey core ((s.C ck).spBase + o)
  if s.feReady op key then
    let (s, v) := s.fePerform op key data
    if op = 1 then s.modC ck (·.mark o) else (s.fixLock l.tk id due v).bankAccs id d [(l, o)]
  else
    let b := feBank core key
    let s : State := { s with fe := s.fe.set b ((s.fe.get? b).getD [] ++
      [{ tk := l.tk, id := id, ck := ck, key := key, op := op, data := data, joined := s.clockOf core }]) }
    if op = 1 then s.block l.tk .fe
    else s.modT l.tk fun t => { t with pend := t.pend ++
      [{ id := id, kind := .fe, line := none, pkind := 3, acq := false, rel := false, scope := 0, held := [], out := 0, pc := s.iss.pc
         d := d, ea := o, heldAt := none, recd := false }] }

/-- LDFE and LDFF (R201). -/
def State.feLoad (s : State) (f : LdfeF) (op : Nat) : State :=
  let key (_ : LaneRef) (o : Nat) : Nat := spadKey s.iss.core ((s.C s.ck).spBase + o)
  let (s, ms) := State.sound (s.offsets (f.p == 1) 8 (s.C s.ck).spSize fun t => lmEa t f.a f.o 8) false 8 key
  let id := s.ids
  let s := (s.fresh.lockLanes id f.d.toNat (gbit f.d.toNat) f.l.toNat fun l => ms.any (·.1 == l)).reach (ms.map (·.2 / 8))
  ms.foldl (fun s m => s.feLane op f.d.toNat id s.bankDue m.1 m.2 0) s

/-- LDFE (R201). -/
def execLdfe (f : LdfeF) (s : State) : Host.Outcome State Fault Refusal := word (.ldfe f) s fun s => s.feLoad f 0
/-- LDFF (R201). -/
def execLdff (f : LdfeF) (s : State) : Host.Outcome State Fault Refusal := word (.ldff f) s fun s => s.feLoad f 2

/-- STEF (R201). -/
def execStef (f : StefF) (s : State) : Host.Outcome State Fault Refusal :=
  word (.stef f) s fun s =>
    let key (_ : LaneRef) (o : Nat) : Nat := spadKey s.iss.core ((s.C s.ck).spBase + o)
    let (s, ms) := State.sound (s.offsets (f.p == 1) 8 (s.C s.ck).spSize fun t => lmEa t f.a f.o 8) true 8 key
    let id := s.ids
    ms.foldl (fun s m => s.feLane 1 f.d.toNat id 0 m.1 m.2 ((s.rT m.1.tk).gr f.d.toNat).toNat) (s.fresh.reach (ms.map (·.2 / 8)))

/-- SETE (R201). -/
def execSete (f : SeteF) (s : State) : Host.Outcome State Fault Refusal :=
  word (.sete f) s fun s =>
    let (s, ms) := s.offsets (f.p == 1) 8 (s.C s.ck).spSize fun t => lmEa t f.a f.o 8
    ms.foldl (fun s m => s.setFull (spadKey s.iss.core ((s.C s.ck).spBase + m.2)) false) (s.reach (ms.map (·.2 / 8)))

/-- The first access of a waiting list that joined in an earlier cycle, whose crew is not SUSPENDED, and that can proceed. -/
def State.fePick (s : State) (now : Nat) (l : List FeW) : Option FeW :=
  l.find? fun w => decide (w.joined < now) && (s.C w.ck).st != .suspended && s.feReady w.op w.key

/-- One waiting access of a bank (R203): the oldest that can proceed. -/
def State.feWaiting (s : State) (core bank : Nat) : State :=
  let b := core * 32 + bank
  let l := (s.fe.get? b).getD []
  match s.fePick (s.clockOf core) l with
  | none => s
  | some w =>
    let rest := l.filter (· != w)
    let s : State := { s with fe := if rest = [] then s.fe.del b else s.fe.set b rest }
    let (s, v) := s.fePerform w.op w.key w.data
    if w.op = 1 then (s.modC w.ck (·.mark (w.key - spadKey core (s.C w.ck).spBase))).wake w.tk
    else s.fixLock w.tk w.id (s.clockOf core + 4) v

/-- FE_WAITING_ACCESS (R203). -/
def execFeWaitingAccess (s : State) : Host.Outcome State Fault Refusal :=
  .next (match s.ev with
    | .bank c b => s.feWaiting c b
    | _ => s)

end Sys2Proof.Machine
end

