-- ==== Sys2Proof/Machine/Atomics.lean ====
section
/-! DEFINITION. Atomics and reductions (08 R204-R210) and the home's atomic unit. -/

namespace Sys2Proof.Machine
open Sys2Proof

/-- Whether two lanes are combined (R207): one address and, for INC and DEC, one operand of the word's width. -/
def sameGroup (op : Nat) (w64 : Bool) (a b : MemLane × Nat) : Bool :=
  (op == 0 || (decide (2 ≤ op) && decide (op ≤ 6)) || op == 9 || op == 10 || op == 13) && a.1.ea == b.1.ea && a.1.h.chip == b.1.h.chip
    && a.1.h.core == b.1.h.core && ((op != 9 && op != 10) || a.2 % (if w64 then 2 ^ 64 else 2 ^ 32) == b.2 % (if w64 then 2 ^ 64 else 2 ^ 32))

/-- The lanes that go with the first one, and the others. -/
def splitAtom (op : Nat) (w64 : Bool) : List (MemLane × Nat) → List (MemLane × Nat) × List (MemLane × Nat)
  | [] => ([], [])
  | m :: t => (m :: t.filter (sameGroup op w64 m), t.filter fun x => !sameGroup op w64 m x)

/-- The groups of a word in ascending lane order; the number bounds the groups. -/
def atomGroups (op : Nat) (w64 : Bool) : Nat → List (MemLane × Nat) → List (List (MemLane × Nat))
  | 0, _ => []
  | n + 1, ms => match splitAtom op w64 ms with
    | ([], _) => []
    | (g, rest) => g :: atomGroups op w64 n rest

/-- The trees of a combining fadd group (R208): the sum S, each lane's E, and the flags of the tree steps. -/
def combTrees (w64 ret : Bool) (mode : Nat) (g : List (Nat × Nat)) : Nat × List Nat × Flags :=
  let t := if w64 then 1 else 0
  let zero := signCode (fltF t) true
  let m := if mode = 6 then 1 else mode
  let A : RedAcc := { v := (List.range 32).map fun p => match g.find? (·.1 == p) with
                        | some x => [x.2]
                        | none => [zero]
                      fl := 0, srng := 0 }
  let S := redTree 1 t m A
  let P := scanTree 1 t m A
  let E (p : Nat) : Nat := match (g.filter fun x => decide (x.1 < p)).getLast? with
    | some x => (P.v.getD x.1 []).headD zero
    | none => zero
  ((S.v.getD 0 []).headD zero, g.map fun x => E x.1, if ret then S.fl ||| P.fl else S.fl)

/-- One group's request sent (R207, R208). -/
def State.sendGroup (s : State) (op d : Nat) (w64 ret : Bool) (id : Nat) (g : List (MemLane × Nat)) : State :=
  let size := if w64 then 8 else 4
  let k : AKind := if ret then .atom else .store
  let lane (x : MemLane × Nat) (data : Nat) : MemLane × MLane :=
    let t := s.rT x.1.l.tk
    (x.1, s.mlane x.1 id size data (t.gr d).toNat t.rmode.toNat)
  if op = 13 then
    match g with
    | [] => s
    | m :: _ =>
      let (sum, es, fl) := combTrees w64 ret (s.rT m.1.l.tk).rmode.toNat (g.map fun x => (x.1.l.pos, x.2 % 2 ^ (8 * size)))
      s.sendReq (.atom op w64 ret true) k d sum fl ((g.zip es).map fun x => lane x.1 x.2)
  else s.sendReq (.atom op w64 ret (decide (1 < g.length))) k d 0 0 (g.map fun x => lane x x.2)

/-- An ATOM word (`ret`) or a RED word: operation, destination, address, operand, width bit and lookahead. -/
def State.atomWord (s : State) (op : Nat) (ret : Bool) (d a b t la : Nat) : State :=
  let w64 := decide (t = 1)
  let (s, ms) := s.checkAll false (if w64 then 8 else 4) ⟨ret, true, false⟩
    (fun tier => decide (tier ≠ 2) || op == 0 || op == 7 || op == 8) fun x => x.gr a
  let id := s.ids
  let s := s.fresh
  let s := if ret then s.lockLanes id d (gbit d ||| (if atomFloat op then flagsBit else 0)) la fun l => ms.any (·.l == l) else s
  let ms := ms.map fun m => (m, ((s.rT m.l.tk).gr b).toNat)
  (atomGroups op w64 ms.length ms).foldl (fun s g => s.sendGroup op d w64 ret id g) s

/-- ATOM, operation 0 (R204). -/
def execAtomAdd (f : AtomF) (s : State) : Host.Outcome State Fault Refusal :=
  word (.atomAdd f) s fun s => s.atomWord 0 true f.d.toNat f.a.toNat f.b.toNat f.t.toNat f.l.toNat
/-- ATOM, operation 1 (R204). -/
def execAtomFadd (f : AtomF) (s : State) : Host.Outcome State Fault Refusal :=
  word (.atomFadd f) s fun s => s.atomWord 1 true f.d.toNat f.a.toNat f.b.toNat f.t.toNat f.l.toNat
/-- ATOM, operation 2 (R204). -/
def execAtomMin (f : AtomF) (s : State) : Host.Outcome State Fault Refusal :=
  word (.atomMin f) s fun s => s.atomWord 2 true f.d.toNat f.a.toNat f.b.toNat f.t.toNat f.l.toNat
/-- ATOM, operation 3 (R204). -/
def execAtomMax (f : AtomF) (s : State) : Host.Outcome State Fault Refusal :=
  word (.atomMax f) s fun s => s.atomWord 3 true f.d.toNat f.a.toNat f.b.toNat f.t.toNat f.l.toNat
/-- ATOM, operation 4 (R204). -/
def execAtomAnd (f : AtomF) (s : State) : Host.Outcome State Fault Refusal :=
  word (.atomAnd f) s fun s => s.atomWord 4 true f.d.toNat f.a.toNat f.b.toNat f.t.toNat f.l.toNat
/-- ATOM, operation 5 (R204). -/
def execAtomOr (f : AtomF) (s : State) : Host.Outcome State Fault Refusal :=
  word (.atomOr f) s fun s => s.atomWord 5 true f.d.toNat f.a.toNat f.b.toNat f.t.toNat f.l.toNat
/-- ATOM, operation 6 (R204). -/
def execAtomXor (f : AtomF) (s : State) : Host.Outcome State Fault Refusal :=
  word (.atomXor f) s fun s => s.atomWord 6 true f.d.toNat f.a.toNat f.b.toNat f.t.toNat f.l.toNat
/-- ATOM, operation 7 (R204). -/
def execAtomXchg (f : AtomF) (s : State) : Host.Outcome State Fault Refusal :=
  word (.atomXchg f) s fun s => s.atomWord 7 true f.d.toNat f.a.toNat f.b.toNat f.t.toNat f.l.toNat
/-- ATOM, operation 8 (R204). -/
def execAtomCas (f : AtomF) (s : State) : Host.Outcome State Fault Refusal :=
  word (.atomCas f) s fun s => s.atomWord 8 true f.d.toNat f.a.toNat f.b.toNat f.t.toNat f.l.toNat
/-- ATOM, operation 9 (R204). -/
def execAtomInc (f : AtomF) (s : State) : Host.Outcome State Fault Refusal :=
  word (.atomInc f) s fun s => s.atomWord 9 true f.d.toNat f.a.toNat f.b.toNat f.t.toNat f.l.toNat
/-- ATOM, operation 10 (R204). -/
def execAtomDec (f : AtomF) (s : State) : Host.Outcome State Fault Refusal :=
  word (.atomDec f) s fun s => s.atomWord 10 true f.d.toNat f.a.toNat f.b.toNat f.t.toNat f.l.toNat
/-- ATOM, operation 11 (R204). -/
def execAtomFmin (f : AtomF) (s : State) : Host.Outcome State Fault Refusal :=
  word (.atomFmin f) s fun s => s.atomWord 11 true f.d.toNat f.a.toNat f.b.toNat f.t.toNat f.l.toNat
/-- ATOM, operation 12 (R204). -/
def execAtomFmax (f : AtomF) (s : State) : Host.Outcome State Fault Refusal :=
  word (.atomFmax f) s fun s => s.atomWord 12 true f.d.toNat f.a.toNat f.b.toNat f.t.toNat f.l.toNat
/-- ATOM, operation 13 (R204). -/
def execAtomFaddComb (f : AtomF) (s : State) : Host.Outcome State Fault Refusal :=
  word (.atomFaddComb f) s fun s => s.atomWord 13 true f.d.toNat f.a.toNat f.b.toNat f.t.toNat f.l.toNat
/-- RED, operation 0 (R204). -/
def execRedAdd (f : RedF) (s : State) : Host.Outcome State Fault Refusal :=
  word (.redAdd f) s fun s => s.atomWord 0 false 0 f.a.toNat f.b.toNat f.t.toNat 0
/-- RED, operation 1 (R204). -/
def execRedFadd (f : RedF) (s : State) : Host.Outcome State Fault Refusal :=
  word (.redFadd f) s fun s => s.atomWord 1 false 0 f.a.toNat f.b.toNat f.t.toNat 0
/-- RED, operation 2 (R204). -/
def execRedMin (f : RedF) (s : State) : Host.Outcome State Fault Refusal :=
  word (.redMin f) s fun s => s.atomWord 2 false 0 f.a.toNat f.b.toNat f.t.toNat 0
/-- RED, operation 3 (R204). -/
def execRedMax (f : RedF) (s : State) : Host.Outcome State Fault Refusal :=
  word (.redMax f) s fun s => s.atomWord 3 false 0 f.a.toNat f.b.toNat f.t.toNat 0
/-- RED, operation 4 (R204). -/
def execRedAnd (f : RedF) (s : State) : Host.Outcome State Fault Refusal :=
  word (.redAnd f) s fun s => s.atomWord 4 false 0 f.a.toNat f.b.toNat f.t.toNat 0
/-- RED, operation 5 (R204). -/
def execRedOr (f : RedF) (s : State) : Host.Outcome State Fault Refusal :=
  word (.redOr f) s fun s => s.atomWord 5 false 0 f.a.toNat f.b.toNat f.t.toNat 0
/-- RED, operation 6 (R204). -/
def execRedXor (f : RedF) (s : State) : Host.Outcome State Fault Refusal :=
  word (.redXor f) s fun s => s.atomWord 6 false 0 f.a.toNat f.b.toNat f.t.toNat 0
/-- RED, operation 9 (R204). -/
def execRedInc (f : RedF) (s : State) : Host.Outcome State Fault Refusal :=
  word (.redInc f) s fun s => s.atomWord 9 false 0 f.a.toNat f.b.toNat f.t.toNat 0
/-- RED, operation 10 (R204). -/
def execRedDec (f : RedF) (s : State) : Host.Outcome State Fault Refusal :=
  word (.redDec f) s fun s => s.atomWord 10 false 0 f.a.toNat f.b.toNat f.t.toNat 0
/-- RED, operation 11 (R204). -/
def execRedFmin (f : RedF) (s : State) : Host.Outcome State Fault Refusal :=
  word (.redFmin f) s fun s => s.atomWord 11 false 0 f.a.toNat f.b.toNat f.t.toNat 0
/-- RED, operation 12 (R204). -/
def execRedFmax (f : RedF) (s : State) : Host.Outcome State Fault Refusal :=
  word (.redFmax f) s fun s => s.atomWord 12 false 0 f.a.toNat f.b.toNat f.t.toNat 0
/-- RED, operation 13 (R204). -/
def execRedFaddComb (f : RedF) (s : State) : Host.Outcome State Fault Refusal :=
  word (.redFaddComb f) s fun s => s.atomWord 13 false 0 f.a.toNat f.b.toNat f.t.toNat 0

/-! ### The atomic unit -/

/-- Whether an atomic came from the home's own core (R210). -/
def MemReq.isLocal (r : MemReq) (chip : Nat) : Bool := r.chip == chip && r.core == r.home

/-- The home whose unit an atomic, or a POST's claim, goes to, and whether it came from the home's own core (R210, R285). -/
def State.atomHome (s : State) (a : Arg) : Option (Nat × Bool) :=
  match a with
  | .req r => some (r.home, r.isLocal s.chip)
  | .n6 chip tk ctx qd _ _ => (s.homeOf ctx qd).map fun h => (h.core, chip == s.chip && coreOfTk tk == h.core)
  | _ => none

/-- Whether an event is an atomic for a home, of the other input than `loc`. -/
def State.otherInput (s : State) (home : Nat) (loc : Bool) (e : Ev) : Bool := e.i == .atomicRequest && s.atomHome e.a == some (home, !loc)

/-- A POST's claim at the home of the write index (R294, R285): the index for its lane, or all ones where no queue there is ACTIVE or PAUSED. -/
def State.claimAt (s : State) (chip tk ctx qd id fail : Nat) : State :=
  let core := coreOfTk tk
  let no (c : Cause) : State := s.send core chip core .postPublish (.n3 id 9 c.num)
  match s.homeOf ctx qd with
  | none => no .permission
  | some h =>
    if h.chip ≠ s.chip then s.forward core h.chip h.core ctx .atomicRequest s.ev else
    let key := h.key ctx
    match s.verdict key true true with
    | .refuse c => no c
    | .rehoming => s.holdAt key ⟨.atomicRequest, s.ev⟩
    | .absent _ => if fail = key + 1 then no .notPresent
      else (s.holdAt key ⟨.atomicRequest, s.ev⟩).send h.core chip core .ackResponse (.resp tk id (.heldAt key))
    | .ok p =>
      let k := s.byteKey key p h.pofs
      if s.poisoned k 8 then no .uncorrectable else
      let i := memRdN s.mem k 8
      if s.queues.any fun q => q.1 / 64 == ctx && q.2.desc == qd && (q.2.st == .active || q.2.st == .paused) then
        (((s.wrMem k 8 (i + 1)).afterWrite h.core ctx qd 8).widxNotice h.core ctx qd ((i + 1) % 2 ^ 64)).send h.core chip core .postPublish (.n3 id 1 i)
      else s.send h.core chip core .postPublish (.n3 id 1 (2 ^ 64 - 1))

/-- An atomic or a claim performed. -/
def State.atomDo (s : State) : State :=
  match s.ev with
  | .req r => s.performReq r
  | .n6 chip tk ctx qd id fail => s.claimAt chip tk ctx qd id fail
  | _ => s

/-- ATOMIC_REQUEST (R210): with work at both inputs of the unit the pointer grants one of them and then points to the other; the loser waits. -/
def execAtomicRequest (s : State) : Host.Outcome State Fault Refusal :=
  .next (match s.atomHome s.ev with
    | none => s.atomDo
    | some (home, loc) =>
      if s.agenda.any (s.otherInput home loc) then
        if (s.core home).atomPtr = loc then s.post .atomicRequest s.ev
        else State.atomDo (s.modCore home fun c => { c with atomPtr := loc })
      else s.atomDo)

/-- REMOTE_READ (R186). -/
def execRemoteRead (s : State) : Host.Outcome State Fault Refusal :=
  .next (match s.ev with
    | .req r => s.performReq r
    | _ => s)

/-- WRITE_REQUEST (R192). -/
def execWriteRequest (s : State) : Host.Outcome State Fault Refusal :=
  .next (match s.ev with
    | .req r => s.performReq r
    | _ => s)

/-- WATCH_REQUEST (R218). -/
def execWatchRequest (s : State) : Host.Outcome State Fault Refusal :=
  .next (match s.ev with
    | .req r => s.performReq r
    | _ => s)

end Sys2Proof.Machine
end

