-- ==== Sys2Proof/Machine/Units.lean ====
section
/-! DEFINITION. Units of a kernel and what counts them (14 R328, 16 R352), the device fault log (20 R434), and the start of a context's
teardown (17 R361, 04 R76). -/

namespace Sys2Proof.Machine
open Sys2Proof

/-- Firmware threads that wait in HALT go on; with none waiting the next HALT passes at once (R390). -/
def State.wakeHalt (s : State) : State :=
  match s.thr.filter fun p => p.2.st == .blocked && p.2.wait == .halt with
  | [] => { s with dev := { s.dev with haltPend := true } }
  | l => l.foldl (fun s p => s.wake p.1) s

/-- The statuses of R455 as numbers of a reply. -/
inductive Status where
  | ok | badState | badContext | noContext | badAperture | badPlacement | badReserve | badQueue | badRing | badGroup | badPartition | badBand
  deriving DecidableEq, Repr

/-- The number of a status. -/
def Status.num : Status → Nat
  | .ok => 0 | .badState => 1 | .badContext => 2 | .noContext => 3 | .badAperture => 4 | .badPlacement => 5 | .badReserve => 6
  | .badQueue => 7 | .badRing => 8 | .badGroup => 9 | .badPartition => 10 | .badBand => 11

/-- A reply to the host driver; the request wakes HALT (R390). -/
def State.replyHost (s : State) (st v : Nat) : State :=
  let r : Reply := ⟨st, v⟩
  ({ s with replies := s.replies ++ [r] }).wakeHalt

/-- Nyend's answer to a request of the host driver (R455). -/
def State.answerHost (s : State) (st : Status) (v : Nat) : State := s.replyHost st.num v

/-- A record of the device fault log (R434); it wakes HALT. -/
def State.devLog (s : State) (event loc addr info : Nat) : State :=
  let r : DLog := { event := event, loc := loc, time := s.dev.time, addr := addr, info := info }
  ({ s with dev := { s.dev with log := (s.dev.log ++ [r]).drop (s.dev.log.length + 1 - 2 ^ 20) } }).wakeHalt

/-- A location of the device fault log: chip, die and core (R434). -/
def State.locOf (s : State) (core : Nat) : Nat := s.chip * 2 ^ 32 + dieOf core * 2 ^ 16 + core

/-- A context enters TEARDOWN (R361). -/
def State.startTeardown (s : State) (ctx : Nat) : State :=
  if (s.ctx ctx).st = .free ∨ (s.ctx ctx).st = .teardown then s
  else (s.modCtx ctx fun c => { c with st := .teardown }).post .teardown (.n1 ctx)

/-- Whether the frames of a context are discarded: it has ended (R369). -/
def State.ctxGone (s : State) (ctx : Nat) : Bool := (s.ctx ctx).st == .teardown || (s.ctx ctx).st == .free

/-! ### Kernels' units -/

/-- The kernel that an index names: its node while it is LAUNCHING or RUNNING (R318). -/
def State.kernNode (s : State) (ctx kern : Nat) : Option Node :=
  s.nodes.find? fun n => n.ctx == ctx && n.kern == kern && n.kd.isSome && (n.st == .launching || n.st == .running)

/-- A node changed. -/
def State.modNode (s : State) (ctx qid idx : Nat) (f : Node → Node) : State :=
  { s with nodes := s.nodes.map fun n => if n.ctx = ctx ∧ n.qid = qid ∧ n.idx = idx then f n else n }

/-- A RUNNING kernel whose units have all retired is complete (R328). -/
def State.kernTest (s : State) (ctx kern : Nat) : State :=
  match s.kernNode ctx kern with
  | some n => if n.st = .running ∧ n.units = 0 then s.post .nodeComplete (.n3 ctx n.qid n.idx) else s
  | none => s

/-- One more unit of a kernel (R328). -/
def State.unitAdd (s : State) (ctx kern : Nat) : State :=
  match s.kernNode ctx kern with
  | some n => s.modNode ctx n.qid n.idx fun n => { n with units := n.units + 1 }
  | none => s

/-- A unit of a kernel retired; the first fault that the distributors record stands (R328). -/
def State.unitDone (s : State) (ctx kern : Nat) (f : Option NFault) : State :=
  match s.kernNode ctx kern with
  | some n => (s.modNode ctx n.qid n.idx fun n =>
      { n with units := n.units - 1, fault := (match n.fault with | some x => some x | none => f) }).kernTest ctx kern
  | none => s

/-- Whether a SPAWN of a unit is not acknowledged yet; of a crew, of any of its lanes (R352). -/
def State.spawnsOut (s : State) (ctx : Nat) (t : TId) : Bool :=
  s.spawned.any fun x => x.1 == ctx && x.2.kern == t.kern && x.2.kind == t.kind && (x.2.num == t.num || (t.kind == 2 && x.2.num / 32 == t.num / 32))

/-- A retired unit is reported to its kernel's chip, where LIVE of its tempo falls (R328, R352): once its pawns have been added there, since a pawn counts
from the issue of its SPAWN. -/
def State.reportUnit (s : State) (ctx kern core : Nat) (t : TId) (f : Option NFault) : State :=
  if s.spawnsOut ctx t then s.post .tempoParticipantNotice (.tnote ctx kern false s.chip core t none f)
  else s.send core (s.kernChip ctx kern) (distCore 0) .tempoParticipantNotice (.tnote ctx kern false s.chip core t none f)

/-! ### Tempo agents (R352) -/

/-- The tempo agent of a kernel. -/
def State.tagent (s : State) (ctx kern : Nat) : TAgent :=
  (s.tagents.get? (ctx * 4096 + kern)).getD { live := 0, arr := [], orv := 0, known := [], gone := [] }
/-- The agent replaced. -/
def State.setTagent (s : State) (ctx kern : Nat) (a : TAgent) : State := { s with tagents := s.tagents.set (ctx * 4096 + kern) a }

/-- The instance completes when ARRIVED = LIVE: every arrived participant is released with the OR (R352, R353). -/
def State.tempoComplete (s : State) (ctx kern : Nat) : State :=
  let a := s.tagent ctx kern
  if a.arr ≠ [] ∧ a.arr.length = a.live then
    a.arr.foldl (fun s p => s.send (distCore 0) p.1 p.2.1 .tempoRelease (.trel ctx p.2.1 p.2.2 a.orv))
      (s.setTagent ctx kern { a with arr := [], orv := 0 })
  else s

/-- A notice at the kernel's chip (R352, R328): a pawn is added and its SPAWN acknowledged, or a participant has retired. -/
def State.tempoNotice (s : State) (ctx kern : Nat) (add : Bool) (chip core : Nat) (t : TId) (ack : Option TId) (f : Option NFault) : State :=
  let a := s.tagent ctx kern
  if add then
    let s := if chip = s.chip then s else s.unitAdd ctx kern
    let s := if a.gone.contains t then s.setTagent ctx kern { a with gone := a.gone.filter (· != t) }
      else s.setTagent ctx kern { a with live := a.live + 1, known := t :: a.known }
    match ack with
    | some i => s.send (distCore 0) chip core .ackResponse (.tnote ctx kern true chip core i none none)
    | none => s
  else
    let s := if t.kind = 1 ∧ a.known.contains t = false then s.setTagent ctx kern { a with gone := t :: a.gone }
      else s.setTagent ctx kern { a with live := a.live - 1, known := a.known.filter (· != t) }
    (s.unitDone ctx kern f).tempoComplete ctx kern

/-- TEMPO_PARTICIPANT_NOTICE (R352): a notice that waits at its own chip for the unit's pawns, or one at the kernel's chip. -/
def execTempoParticipantNotice (s : State) : Host.Outcome State Fault Refusal :=
  .next (match s.ev with
    | .tnote ctx kern add chip core t ack f =>
      if !add && chip == s.chip && (s.spawnsOut ctx t || s.kernChip ctx kern != s.chip) then s.reportUnit ctx kern core t f
      else s.tempoNotice ctx kern add chip core t ack f
    | _ => s)

end Sys2Proof.Machine
end

