-- ==== Sys2Proof/Machine/Threads.lean ====
section
/-! DEFINITION. A thread's life outside issue: slots (04 R65), knights and parked records (R70-R77), pawns (R83, 08 R214), MIGR and HOMEQ
(08 R211-R213), the EXIT drain (05 R88), traps that waited (18 R374), sleep deadlines (05 R92) and lookahead deliveries (03 R56). -/

namespace Sys2Proof.Machine
open Sys2Proof

/-! ### Slots (R65) -/

/-- Whether a context is ACTIVE at a core (R362). -/
def State.ctxActive (s : State) (core ctx : Nat) : Bool :=
  let c := s.core core
  (c.bank.getD c.active none == some ctx) && (match c.resid with | .castling _ => false | _ => true)

/-- Whether a slot block is reserved: it holds a crew, a distributor has marked it (R326), or a gang's member awaits it (R333). -/
def State.blockTaken (s : State) (core bank block : Nat) : Bool :=
  (s.crews.get? (ckOf core bank block)).isSome || (bank == (s.core core).active && (s.core core).marked.contains block)
    || (s.resvs.any fun r => r.core == core && r.block == block && (s.core core).bank.getD bank none == some r.ctx)

/-- The lowest-numbered free slot that is not reserved in the active bank (R65). -/
def State.freeSlot (s : State) (core : Nat) : Option Nat :=
  let b := (s.core core).active
  (List.range 512).find? fun n => (s.thr.get? (tkOf core b n)).isNone && !s.blockTaken core b (n / 32)

/-- A core's overflow list of a context, and the list replaced (R75). -/
def State.ovfOf (s : State) (core ctx : Nat) : List (ORec × Bool) := (s.ovf.get? (core * 64 + ctx)).getD []
/-- The list replaced. -/
def State.setOvf (s : State) (core ctx : Nat) (l : List (ORec × Bool)) : State :=
  { s with ovf := if l = [] then s.ovf.del (core * 64 + ctx) else s.ovf.set (core * 64 + ctx) l }

/-- A slot of a core became free: a marked block may be free (R326), and the head of the active context's list takes the slot (R75). -/
def State.slotFreed (s : State) (core : Nat) : State :=
  let c := s.core core
  let s := if c.marked = [] then s else (List.range 4).foldl (fun s d => s.post .crewPlacement (.n1 d)) s
  match c.bank.getD c.active none with
  | some ctx => if s.ovfOf core ctx = [] then s else s.post .overflowRecordReload (.core core)
  | none => s

/-! ### Admission -/

/-- The HOMEQ value of an address at a core (R212). -/
def State.homeq (s : State) (core ctx : Nat) (a : Word) : Word :=
  if bits a 63 56 ≠ 0 then W (2 ^ 63) else
  match s.homeAt core ctx a.toNat with
  | none => W (2 ^ 63)
  | some h => W (b2n (h.chip == s.chip && h.core == core) * 2 ^ 62 + h.chip * 2 ^ 32 + h.core)

/-- The thread a knight carries, in a slot (R73). -/
def State.restore (s : State) (k : Knight) : Thr :=
  let e := s.kent k.ctx k.kern
  let base := (e.map (·.code.toNat)).getD 0
  { Thr.blank with
    st := .blocked, wait := .load, ctx := k.ctx, g := k.regs.foldl (fun g r => g.setIfInBounds r.1 r.2) (Vector.replicate 32 0)
    pc := BitVec.ofNat 56 (base + 4 * k.pcw), pdepth := k.pdepth, pent := k.pent, flags := k.flags, trapen := k.trapen, rmode := k.round
    srng := k.srng, carry := k.carry, handler := (e.map (·.trapv)).getD 0, kind := BitVec.ofNat 2 (b2n k.pw), number := k.number
    qid := BitVec.ofNat 6 ((e.map (·.qid)).getD 0), ktab := BitVec.ofNat 12 k.kern, pkt := BitVec.ofNat 32 ((e.map (·.pkt)).getD 0)
    posted := k.posted }

/-- A knight in its slot (R73): for MIGR D receives HOMEQ; otherwise the carried load is performed as a local access. -/
def State.admitKnight (s : State) (core slot : Nat) (k : Knight) : State :=
  let tk := tkOf core (s.core core).active slot
  let t := s.restore k
  let m := k.mig
  if m.mg then (s.setT tk (t.setG m.d (s.homeq core k.ctx (W m.ea)))).wake tk
  else
    let id := s.ids
    let s := s.fresh
    let size := 2 ^ m.sz
    let t := { t with locks := [{ id := id, d := m.d, regs := gbit m.d, left := 0, active := true, due := none, val := none, fl := 0 }] }
    let l : MLane := { tk := tk, id := id, tid := t.tid, pcw := k.pcw, ea := m.ea, size := size, data := 0, cmp := 0, mode := 0 }
    let r : MemReq := { op := .load m.sx, ctx := k.ctx, home := core, chip := s.chip, core := core, lanes := [l], sum := 0, fl := 0 }
    let o := s.ids
    let s := (s.setT tk t).newOut { wait := [tk], chip := s.chip, core := core, src := core, ev := ⟨.remoteRead, .req r⟩ }
    let ord := ((s.homeAt core k.ctx m.ea).map (s.kindAt core k.ctx)).getD 0
    s.startAcc tk { id := id, kind := .load, line := some (m.ea / 128), pkind := ord, acq := m.acq, rel := false, scope := m.scope, held := []
                    out := o, pc := m.pc, d := m.d, ea := m.ea, heldAt := none, recd := false }

/-- A created thread in its slot: a pawn (R83, R214) or a launched thread (R322). -/
def State.admitSpawn (s : State) (core slot : Nat) (c : Spawn) : State :=
  let tk := tkOf core (s.core core).active slot
  let e := s.kent c.ctx c.kern
  let base := (e.map (·.code.toNat)).getD 0
  let t : Thr := { Thr.blank with
    ctx := c.ctx, g := ((Vector.replicate 32 0).setIfInBounds 0 c.g0).setIfInBounds 1 c.g1
    pc := BitVec.ofNat 56 (base + 4 * c.pcw), trapen := (e.map (·.trapen)).getD 0, rmode := (e.map (·.round)).getD 1, srng := c.srng
    carry := (e.map (·.carry)).getD 0, handler := (e.map (·.trapv)).getD 0, kind := if c.ln then 0 else 1, number := c.number
    qid := BitVec.ofNat 6 ((e.map (·.qid)).getD 0), ktab := BitVec.ofNat 12 c.kern, pkt := BitVec.ofNat 32 ((e.map (·.pkt)).getD 0) }
  (s.setT tk t).wake tk

/-- A tempo's release in a thread (R353): its lock, which bit 33 marks, goes, the OR is in its register, the acquire at DEVICE scope is done, READY. -/
def State.tempoGo (s : State) (tk : Nat) (v : Word) : State :=
  let t := s.T tk
  let s := s.modT tk fun t => { t with tmp := none, locks := t.locks.filter fun k => !bit k.regs 33 }
  let s := match t.tmp with
    | some w => if w.orr then s.wrG tk w.g v else s
    | none => s
  ((s.dropAway (dieOf (coreOfTk tk))).wake tk).wakeReaders tk

/-- A parked record in a slot (R67, R75). -/
def State.takeIn (s : State) (core slot : Nat) : ORec → State
  | .knight k => s.admitKnight core slot k
  | .spawn c => s.admitSpawn core slot c
  | .tempo t done =>
    let tk := tkOf core (s.core core).active slot
    let s := s.setT tk t
    match done with
    | some v => s.tempoGo tk v
    | none => s

/-- The context of a record. -/
def ORec.ctx : ORec → Nat
  | .knight k => k.ctx
  | .spawn c => c.ctx
  | .tempo t _ => t.ctx

/-! ### Parking (R74-R76) -/

/-- Units of 32 bytes of a record: one for each flit (R72, R75, R394). For a thread that waits in TEMPO the spec gives no size: the model takes that of the
largest knight (log 51). -/
def ORec.units : ORec → Nat
  | .knight k => (40 + 8 * k.regs.length + 31) / 32
  | .spawn _ => 2
  | .tempo _ _ => 9

/-- Units in use of a core's overflow area, or of a context's arrival reserve there. -/
def State.unitsUsed (s : State) (core : Nat) (reserve : Option Nat) : Nat :=
  s.ovf.foldl (fun n x => if x.1 / 64 = core then x.2.foldl (fun n r =>
    match reserve with
    | none => if r.2 then n else n + r.1.units
    | some ctx => if r.2 ∧ x.1 % 64 = ctx then n + r.1.units else n) n else n) 0

/-- A record at the tail of its context's list: in the area, else in the context's reserve, else the context is stopped and torn down (R76). -/
def State.park (s : State) (core : Nat) (r : ORec) : State :=
  let ctx := r.ctx
  let l := s.ovfOf core ctx
  if s.unitsUsed core none + r.units ≤ 2 ^ 21 then s.setOvf core ctx (l ++ [(r, false)])
  else if s.unitsUsed core (some ctx) + r.units ≤ (s.ctx ctx).resv * 2 ^ 21 then s.setOvf core ctx (l ++ [(r, true)])
  else ((s.setOvf core ctx (l ++ [(r, true)])).devLog 0x20 (s.locOf core) 0 ctx).startTeardown ctx

/-- Threads of a context that wait in TEMPO may have to give up their slots (R355). -/
def State.offerTempo (s : State) (core ctx : Nat) : State :=
  (s.thr.filter fun x => coreOfTk x.1 == core && x.2.ctx == ctx && x.2.wait == .tempo).foldl (fun s x => s.post .tempoPark (.thread x.1)) s

/-- A record placed at a core (R74): a slot, or the tail of its context's list. -/
def State.place (s : State) (core : Nat) (r : ORec) : State :=
  if s.ctxGone r.ctx then s
  else if !s.ctxActive core r.ctx || s.ovfOf core r.ctx != [] then (s.park core r).offerTempo core r.ctx
  else match s.freeSlot core with
    | some n => s.takeIn core n r
    | none => (s.park core r).offerTempo core r.ctx

/-- KNIGHT_ARRIVAL (R74, R77). -/
def execKnightArrival (s : State) : Host.Outcome State Fault Refusal :=
  .next (match s.ev with
    | .knight core k =>
      match homeIn (s.ctx k.ctx).ptab k.mig.ea with
      | some h => if h.chip = s.chip ∧ h.core = core then s.place core (.knight k)
        else s.forward core h.chip h.core k.ctx .knightArrival (.knight h.core k)
      | none => s.place core (.knight k)
    | _ => s)

/-- SPAWN_RECORD_ARRIVAL (R83, R322): placed as a knight would be; a pawn is reported to the tempo agent, which acknowledges its SPAWN
(R352). -/
def execSpawnRecordArrival (s : State) : Host.Outcome State Fault Refusal :=
  .next (match s.ev with
    | .spawn _ core tk id c =>
      let here := match homeIn (s.ctx c.ctx).ptab c.addr with
        | some h => if h.chip = s.chip ∧ h.core = core then none else some h
        | none => none
      match here with
      | some h => s.forward core h.chip h.core c.ctx .spawnRecordArrival (.spawn h.chip h.core tk id c)
      | none =>
        let s := if c.ln then s else s.send core (s.kernChip c.ctx c.kern) (distCore 0) .tempoParticipantNotice
          (.tnote c.ctx c.kern true c.chip c.core ⟨c.kern, 1, c.number.toNat⟩ (some c.tid) none)
        s.place core (.spawn c)
    | _ => s)

/-- OVERFLOW_RECORD_RELOAD (R75): the head of the active context's list takes a free slot. -/
def execOverflowRecordReload (s : State) : Host.Outcome State Fault Refusal :=
  .next (match s.ev with
    | .core core =>
      let c := s.core core
      match c.bank.getD c.active none, s.freeSlot core with
      | some ctx, some n => (match s.ovfOf core ctx with
        | [] => s
        | r :: rest => if s.ctxActive core ctx then ((s.setOvf core ctx rest).takeIn core n r.1).slotFreed core else s)
      | _, _ => s
    | _ => s)

/-! ### Departure (R70-R72) -/

/-- The registers a knight carries: CARRY.MASK without D (R72). -/
def Thr.carried (t : Thr) (d : Nat) : List (Nat × Word) :=
  ((List.range 32).filter fun n => bit t.carry.toNat n && n != d).map fun n => (n, t.gr n)

/-- A departing thread for which a trap waits does not leave: its load is a remote read, MIGR gives what HOMEQ would, and the trap is taken (R70, R377, log
55). -/
def State.stayPut (s : State) (tk : Nat) (m : Mig) : State :=
  let s := s.modT tk fun t => { t with mig := none }
  let t := s.T tk
  let core := coreOfTk tk
  match s.homeAt core t.ctx m.ea with
  | none => s.takePending tk
  | some h =>
    if m.mg then (s.wrG tk m.d (s.homeq core t.ctx (W m.ea))).takePending tk
    else
      let id := s.ids
      let s := s.fresh.modT tk fun t => { t with locks := t.locks ++
        [{ id := id, d := m.d, regs := gbit m.d, left := 0, active := true, due := none, val := none, fl := 0 }] }
      let l : MLane := { tk := tk, id := id, tid := t.tid, pcw := (m.pc.toNat - s.codeBase t) / 4 % 2 ^ 28, ea := m.ea, size := 2 ^ m.sz, data := 0, cmp := 0, mode := 0 }
      let r : MemReq := { op := .load m.sx, ctx := t.ctx, home := h.core, chip := s.chip, core := core, lanes := [l], sum := 0, fl := 0 }
      let o := s.ids
      let s := s.newOut { wait := [tk], chip := h.chip, core := h.core, src := core, ev := ⟨.remoteRead, .req r⟩ }
      (s.startAcc tk { id := id, kind := .load, line := some (m.ea / 128), pkind := s.kindAt core t.ctx h, acq := m.acq, rel := false, scope := m.scope
                       held := [], out := o, pc := m.pc, d := m.d, ea := m.ea, heldAt := none, recd := false }).takePending tk

/-- KNIGHT_DEPARTURE (R71): the drained thread leaves for the home of its address, and its slot is free. -/
def execKnightDeparture (s : State) : Host.Outcome State Fault Refusal :=
  .next (match s.ev with
    | .thread tk =>
      let t := s.T tk
      match t.mig with
      | none => s
      | some m =>
        if t.st = .blocked ∧ t.wait = .depart ∧ t.locks = [] ∧ t.pend = [] then
          if t.ptrap ≠ [] then s.stayPut tk m else
          let core := coreOfTk tk
          let k : Knight := { ctx := t.ctx, kern := t.ktab.toNat, mig := m, round := t.rmode, pw := t.kind == 1, number := t.number
                              carry := t.carry, pcw := (t.pc.toNat - s.codeBase t) / 4 % 2 ^ 28, pdepth := t.pdepth, pent := t.pent
                              flags := t.flags, trapen := t.trapen, srng := t.srng, regs := t.carried m.d, posted := t.posted }
          let (chip, dst) := match s.homeAt core t.ctx m.ea with
            | some h => (h.chip, h.core)
            | none => (s.chip, core)
          let s : State := { s with thr := s.thr.del tk }
          (s.send core chip dst .knightArrival (.knight dst k)).slotFreed core
        else s
    | _ => s)

/-- MIGR (R213). -/
def execMigr (f : FlowF) (s : State) : Host.Outcome State Fault Refusal :=
  word (.migr f) s fun s => s.eachLane fun s l =>
    let a := (s.rT l.tk).gr f.a.toNat
    let core := s.iss.core
    if bits a 63 56 ≠ 0 then s.fail l .permission a 0 else
    match s.homeAt core s.iss.ctx a.toNat with
    | none => s.fail l .permission a 0
    | some h =>
      if h.chip = s.chip ∧ h.core = core then s.wrG l.tk f.d.toNat (s.homeq core s.iss.ctx a)
      else if (s.rT l.tk).frames ≠ [] then s.fail l .permission a 1
      else
        let g : Mig := { ea := a.toNat, sz := 0, sx := false, d := f.d.toNat, mg := true, acq := false, scope := 0, pc := s.iss.pc }
        ((s.modT l.tk fun t => { t with mig := some g }).block l.tk .depart).recheck l.tk

/-- HOMEQ (R212). -/
def execHomeq (f : FlowF) (s : State) : Host.Outcome State Fault Refusal :=
  word (.homeq f) s fun s => s.eachLane fun s l =>
    s.wrG l.tk f.d.toNat (s.homeq s.iss.core s.iss.ctx ((s.rT l.tk).gr f.a.toNat))

/-! ### Pawns (R83, R214) -/

/-- One lane's SPAWN: the creation record waits for the issuer's earlier writes (R83), the pawn counts from now (R328). S and the draw are those that
the chain's word order gives (R29, R132): after the draws of its earlier words, before an MTSR of the same chain (log 51). -/
def State.spawnLane (s : State) (l : LaneRef) (h : HomeLoc) (a b target : Word) : State :=
  let t := s.drawT l.tk
  let core := s.iss.core
  let kern := t.ktab.toNat
  let pk := (core * 64 + t.ctx) * 4096 + kern
  let n := (s.pawns.get? pk).getD 0
  let id := s.ids
  let c : Spawn := { ctx := t.ctx, kern := kern, ln := false, g0 := a, g1 := b, pcw := (target.toNat - s.codeBase t) / 4
                     srng := splitSeed t.srng a, number := BitVec.ofNat 32 (core * 2 ^ 23 + n), addr := a.toNat, chip := s.chip, core := core
                     tid := t.tid }
  let s := { s.fresh with pawns := s.pawns.set pk ((n + 1) % 2 ^ 23), spawned := s.spawned ++ [(t.ctx, t.tid)] }
  let s := s.unitAdd t.ctx kern
  let next := (nextDraw t.srng).1
  let s := (s.modT l.tk fun t => { t with srng := next }).drew l.tk (some next)
  let o := s.ids
  let s := s.newOut { wait := [l.tk], chip := s.chip, core := core, src := core, ev := ⟨.spawnMessageSend, .spawn h.chip h.core l.tk id c⟩ }
  s.startAcc l.tk { id := id, kind := .spawn, line := none, pkind := 3, acq := false, rel := false, scope := 0, held := [], out := o
                    pc := s.iss.pc, d := 0, ea := a.toNat, heldAt := none, recd := false }

/-- SPAWN (R214). -/
def execSpawn (f : SpawnF) (s : State) : Host.Outcome State Fault Refusal :=
  word (.spawn f) s fun s => s.eachLane fun s l =>
    let t := s.rT l.tk
    let p := t.gr f.d.toNat
    let a := t.gr f.a.toNat
    if p.toNat % 4 ≠ 0 then s.fail l .misaligned p 0
    else if !s.inCode t p.toNat || decide (2 ^ 56 ≤ p.toNat) then s.fail l .permission p 5
    else if bits a 63 56 ≠ 0 then s.fail l .permission a 0
    else match s.homeAt s.iss.core s.iss.ctx a.toNat with
      | none => s.fail l .permission a 0
      | some h => s.spawnLane l h a (t.gr f.b.toNat) p

/-- SPAWN_MESSAGE_SEND (R83): the record leaves the core. -/
def execSpawnMessageSend (s : State) : Host.Outcome State Fault Refusal :=
  .next (match s.ev with
    | .spawn chip core tk id c =>
      ((s.send (coreOfTk tk) chip core .spawnRecordArrival (.spawn chip core tk id c)).complete tk id).recheck tk
    | _ => s)

/-! ### Retirement (R88, R138) -/

/-- A crew whose last lane has retired leaves RUNNING (R138): it departs from its barriers (R347) and from its window (R336), and drains. -/
def State.crewDrain (s : State) (ck : Nat) : State :=
  let c := s.C ck
  let s := s.setC ck { c with st := .draining }
  let s := c.memb.foldl (fun s b => s.send (coreOfCk ck) b.chip (distCore 0) .barrierMemberDeparture (.n3 c.ctx b.g b.m)) s
  let s := if c.att = .opening ∨ c.att = .attached then
      let b := c.memb.find? (·.g == c.winG)
      (s.modC ck fun c => { c with att := .departed }).send (coreOfCk ck) ((b.map (·.chip)).getD s.chip) (distCore 0) .windowDeparture
        (.n6 c.ctx c.winG ((b.map (·.m)).getD 0) s.chip (coreOfCk ck) ck)
    else s
  s.post .crewRetire (.n1 ck)

/-- A crew without a live lane (R139). -/
def Crew.unlive (c : Crew) (l : Nat) : Crew := { c with live := c.live &&& ~~~(BitVec.ofNat 32 (2 ^ l)) }

/-- The first fault of a kernel's units (R328). -/
def State.unitFault (s : State) (ctx kern : Nat) (f : Option NFault) : State :=
  match f, s.kernNode ctx kern with
  | some x, some n => s.modNode ctx n.qid n.idx fun n => { n with fault := some (n.fault.getD x) }
  | _, _ => s

/-- A crew lane retires: it leaves LIVE and every rejoin register; the last one lets the crew drain. -/
def State.retireLane (s : State) (tk : Nat) (f : Option NFault) : State :=
  let ck := ckOfTk tk
  let l := slotOfTk tk % 32
  let s := s.modT tk fun t => { t with st := .retired, wait := .none }
  let s := s.modC ck fun c => (c.strikeAll l).unlive l
  let s := (((s.rejoinTest ck).crewTests ck).wakeReaders tk).unitFault (s.T tk).ctx (s.T tk).ktab.toNat f
  if (s.C ck).live.toNat == 0 then s.crewDrain ck else s

/-- A thread retires (R67, R88): a roaming thread frees its slot. -/
def State.retire (s : State) (tk : Nat) (f : Option NFault) : State :=
  let t := s.T tk
  if t.kind.toNat == 2 then s.retireLane tk f
  else
    let s : State := { s with thr := s.thr.del tk }
    if t.fw then s else (s.reportUnit t.ctx t.ktab.toNat (coreOfTk tk) t.tid f).slotFreed (coreOfTk tk)

/-- Whether a lane is its crew's last live one and bound words are marked (R178). -/
def State.lastToWrite (s : State) (tk : Nat) : Bool :=
  (s.T tk).kind == 2 &&
    (let c := s.C (ckOfTk tk)
     c.live == BitVec.ofNat 32 (2 ^ (slotOfTk tk % 32)) && c.bind.any fun b => b.wb && !b.marks.isEmpty)

/-- Whether a thread's bank is the active one of its core and no castling is under way (R66, R362). -/
def State.bankActive (s : State) (tk : Nat) : Bool :=
  bankOfTk tk == (s.core (coreOfTk tk)).active && (match (s.core (coreOfTk tk)).resid with | .castling _ => false | _ => true)

/-- Whether a lane is its crew's last live one: only a RUNNING crew leaves for DRAINING (R138). -/
def State.lastLane (s : State) (tk : Nat) : Bool :=
  (s.T tk).kind == 2 && !(s.T tk).fw && (s.C (ckOfTk tk)).live == BitVec.ofNat 32 (2 ^ (slotOfTk tk % 32))

/-- EXIT_DRAIN_COMPLETE (R88, R178): the crew's last live lane first writes its bound ranges back. -/
def execExitDrainComplete (s : State) : Host.Outcome State Fault Refusal :=
  .next (match s.ev with
    | .thread tk =>
      let t := s.T tk
      let go (pc : BitVec 56) : State :=
        if (!s.bankActive tk && s.lastLane tk) || t.pend != [] || t.locks != [] then s
        else if s.lastToWrite tk then ((s.block tk (.exitDrain pc)).writeBack tk).recheck tk
        else s.retire tk (if t.dying then t.esc else none)
      if !t.waiting then s else
      match t.wait with
      | .exitDrain pc => go pc
      | .exitDir pc => go pc
      | _ => s
    | _ => s)

/-! ### Deliveries, traps and sleep -/

/-- LOOKAHEAD_RESULT_DELIVERY (R56): a word's result reaches a lane in its delivery cycle. -/
def State.deliverDue (s : State) (tk id : Nat) : State :=
  match (s.T tk).locks.find? (·.id == id) with
  | some k => s.deliver tk id k.val k.fl
  | none => s

/-- LOOKAHEAD_RESULT_DELIVERY (R56). -/
def execLookaheadResultDelivery (s : State) : Host.Outcome State Fault Refusal :=
  .next (match s.ev with
    | .lock tk id => s.deliverDue tk id
    | _ => s)

/-- TAKE_TRAP (R374). -/
def execTakeTrap (s : State) : Host.Outcome State Fault Refusal :=
  .next (match s.ev with
    | .thread tk => if (s.T tk).st = .blocked ∧ (s.T tk).wait = .trap ∧ (s.T tk).locks = [] then s.takePending tk else s
    | _ => s)

/-- A sleeping thread whose deadline has come is READY (R92). -/
def State.sleepOver (s : State) (tk : Nat) : State :=
  let t := s.T tk
  match t.sleepAt with
  | some d => if t.st = .blocked ∧ t.wait = .sleep ∧ d ≤ s.clockOf (coreOfTk tk) then
      (s.modT tk fun t => { t with sleepAt := none }).wake tk else s
  | none => s

/-- SLEEP_DEADLINE (R92). -/
def execSleepDeadline (s : State) : Host.Outcome State Fault Refusal :=
  .next (match s.ev with
    | .thread tk => s.sleepOver tk
    | _ => s)

end Sys2Proof.Machine
end

