-- ==== Sys2Proof/Machine/Windows.lean ====
section
/-! DEFINITION. Scratchpad windows (15 R335-R342): GQRY, WOPEN and WDET, the window agent, and the window words LDW and STW (07 R180,
08 R200). -/

namespace Sys2Proof.Machine
open Sys2Proof

/-! ### Groups a crew belongs to -/

/-- A group-table entry (R330). -/
def State.gent (s : State) (ctx g : Nat) : Option GEnt :=
  match s.groups.get? (ctx * 256 + g) with
  | some e => if e.v then some e else none
  | none => none

/-- A crew's membership of a group whose entry is valid (R332). -/
def State.membOf (s : State) (ck g : Nat) : Option Memb :=
  match s.gent (s.C ck).ctx g with
  | some _ => (s.C ck).memb.find? (·.g == g)
  | none => none

/-- The crew of a core, in either bank, that is a member of a group of its context (R332). -/
def State.memberAt (s : State) (core ctx g m : Nat) : Option Nat :=
  (s.crews.find? fun x => coreOfCk x.1 == core && x.2.ctx == ctx && x.2.memb.any fun b => b.g == g && b.m == m).map (·.1)

/-- Whether a core's save area of a context holds the member (R364). -/
def State.memberSaved (s : State) (core ctx g m : Nat) : Option Nat :=
  match s.saves.get? (core * 64 + ctx) with
  | some a => (a.crews.find? fun x => x.2.memb.any fun b => b.g == g && b.m == m).map (·.1)
  | none => none

/-- The code of an attachment state (R339). -/
def Att.num : Att → Nat
  | .none => 0 | .opening => 1 | .attached => 2 | .departed => 3

/-- The group index of a GRP or BAR word: reserved bits raise ILLEGAL_INSTR with information 0x100 (R338, R345). -/
def State.groupArg (s : State) (sb : BitVec 8) : Option Nat :=
  let v := s.sreg sb.toNat
  if bits v 63 8 ≠ 0 then none else some v.toNat

/-! ### GQRY, WOPEN, WDET -/

/-- GQRY (R339). -/
def execGqry (f : XgF) (s : State) : Host.Outcome State Fault Refusal :=
  word (.gqry f) s fun s =>
    match s.groupArg f.s with
    | none => s.failAll .illegalInstr 0 0x100
    | some g =>
      let c := s.C s.ck
      let v : Word := match s.gent c.ctx g, s.membOf s.ck g with
        | some e, some b => W (2 ^ 63 + b2n e.gang * 2 ^ 62 + b2n e.win * 2 ^ 61 + c.att.num * 2 ^ 59 + e.nmem * 2 ^ 32 + b.m)
        | _, _ => 0
      s.eachLane fun s l => s.wrG l.tk f.g.toNat v

/-- A WOPEN that only reports a status (R340). -/
def State.openStatus (s : State) (g st : Nat) : State := s.eachLane fun s l => s.wrG l.tk g (W (st * 2 ^ 62))

/-- The issuing lanes wait in WOPEN for the window to leave OPENING. -/
def State.openWait (s : State) (g grp : Nat) : State :=
  s.eachLane fun s l => (s.block l.tk (.wopen grp)).modC s.ck fun c => { c with wopen := c.wopen ++ [(l.pos, g)] }

/-- A WOPEN of a crew already attached: the result of the first one (R340). -/
def State.openAgain (s : State) (g grp : Nat) (b : Memb) (e : GEnt) : State :=
  if (s.C s.ck).att = .attached then s.eachLane fun s l => s.wrG l.tk g (W (e.nmem * 2 ^ 32 + b.m)) else s.openWait g grp

/-- WOPEN (R340). -/
def execWopen (f : XgF) (s : State) : Host.Outcome State Fault Refusal :=
  word (.wopen f) s fun s =>
    match s.groupArg f.s with
    | none => s.failAll .illegalInstr 0 0x100
    | some g =>
      let c := s.C s.ck
      let d := f.g.toNat
      match s.gent c.ctx g, s.membOf s.ck g with
      | some e, some b =>
        if e.win = false then s.openStatus d 1
        else match c.att with
          | .opening | .attached => if c.winG ≠ g then s.openStatus d 3 else s.openAgain d g b e
          | .departed => s.openStatus d 2
          | .none =>
            let s := s.modC s.ck fun c => { c with att := .opening, winG := g }
            (s.openWait d g).send s.iss.core b.chip (distCore 0) .windowOpen
              (.n6 c.ctx g b.m s.chip s.iss.core (s.ck * 2 ^ 20 + c.spSize))
      | _, _ => s.openStatus d 1

/-- WDET (R341). -/
def execWdet (f : ChainF) (s : State) : Host.Outcome State Fault Refusal :=
  word (.wdet f) s fun s =>
    let c := s.C s.ck
    if c.att = .opening ∨ c.att = .attached then
      let ck := s.ck
      (s.eachLane fun s l => (s.block l.tk .wdet).modC ck fun c => { c with wdet := c.wdet ++ [l.pos] }).wdetTest ck
    else s

/-! ### The window agent (R335) -/

/-- A group's coordinator and window agent. -/
def State.gagent (s : State) (ctx g : Nat) : GAgent :=
  (s.gagents.get? (ctx * 256 + g)).getD
    { admitted := false, ready := [], asking := [], yes := [], no := [], win := .closed, opened := false, mem := [], reports := [], out := false }
/-- The agent replaced. -/
def State.setGagent (s : State) (ctx g : Nat) (a : GAgent) : State := { s with gagents := s.gagents.set (ctx * 256 + g) a }

/-- What a member's core is told: 0 attached, 2 closed, 3 departure recorded, 4 the window is CLOSED, 5 opened before in this admission, 6 departure
recorded, which closed the window. -/
def State.tellMember (s : State) (ctx g : Nat) (m : WMem) (st : Nat) (mem : List WMem) : State :=
  s.send (distCore 0) m.chip m.core .windowOpenReply (.wmem ((m.core * 64 + ctx) * 256 + g) st (if st = 0 then m :: mem else [m]))

/-- A member's attachment at the agent. -/
def GAgent.setAtt (a : GAgent) (m : Nat) (t : Att) : GAgent := { a with mem := a.mem.map fun x => if x.m = m then { x with att := t } else x }

/-- A member opens (R335). -/
def State.windowOpenAt (s : State) (ctx g m chip core ckSize : Nat) : State :=
  let a := s.gagent ctx g
  let w : WMem := { m := m, chip := chip, core := core, ck := ckSize / 2 ^ 20, size := ckSize % 2 ^ 20, att := .opening }
  if a.opened && a.win != .opening then
    (s.setGagent ctx g { a with mem := a.mem.filter (·.m != m) ++ [{ w with att := .departed }] }).tellMember ctx g w 5 []
  else
    let mem := a.mem.filter (·.m != m) ++ [w]
    let n := ((s.gent ctx g).map (·.nmem)).getD 0
    if mem.length = n then
      let mem := mem.map fun x => { x with att := Att.attached }
      mem.foldl (fun s x => s.tellMember ctx g x 0 mem) (s.setGagent ctx g { a with win := .attached, opened := true, mem := mem })
    else s.setGagent ctx g { a with win := .opening, opened := true, mem := mem }

/-- WINDOW_OPEN (R335). -/
def execWindowOpen (s : State) : Host.Outcome State Fault Refusal :=
  .next (match s.ev with
    | .n6 ctx g m chip core ck => s.windowOpenAt ctx g m chip core ck
    | _ => s)

/-- A member departs (R335, R336); a departure that has overtaken the member's own open waits for it. -/
def State.windowDepartAt (s : State) (ctx g m chip core ck : Nat) : State :=
  let a := s.gagent ctx g
  let me : WMem := { m := m, chip := chip, core := core, ck := ck, size := 0, att := .departed }
  if a.admitted && !(a.mem.any (·.m == m)) then s.post .windowDeparture (.n6 ctx g m chip core ck) else
  let t := s.tellMember ctx g me (if a.win = .opening then 6 else 3) []
  match a.win with
  | .opening =>
    let others := a.mem.filter fun x => x.att == .opening && x.m != m
    others.foldl (fun s x => s.tellMember ctx g x 2 [])
      (t.setGagent ctx g { a with win := .closed, mem := a.mem.map fun x => { x with att := .departed } })
  | .attached | .detaching =>
    let b := a.setAtt m .departed
    if b.mem.any fun x => x.att == .attached then t.setGagent ctx g { b with win := .detaching }
    else b.mem.foldl (fun s x => s.tellMember ctx g x 4 []) (t.setGagent ctx g { b with win := .closed })
  | .closed => t

/-- WINDOW_DEPARTURE (R335). -/
def execWindowDeparture (s : State) : Host.Outcome State Fault Refusal :=
  .next (match s.ev with
    | .n6 ctx g m chip core ck => s.windowDepartAt ctx g m chip core ck
    | _ => s)

/-- The lanes that wait in WOPEN get a result and go on. -/
def State.openDone (s : State) (ck : Nat) (v : Word) : State :=
  let l := (s.C ck).wopen
  l.foldl (fun s x => (s.wrG (laneTk ck x.1) x.2 v).wake (laneTk ck x.1)) (s.modC ck fun c => { c with wopen := [] })

/-- The lanes that wait in WDET go on. -/
def State.wdetDone (s : State) (ck : Nat) : State :=
  (s.C ck).wdet.foldl (fun s l => s.wake (laneTk ck l)) (s.modC ck fun c => { c with wdet := [] })

/-- The agent's word at a member's core (R335, R340, R341). A crew that has departed meanwhile stays so. -/
def State.windowTold (s : State) (ck st : Nat) (mem : List WMem) : State :=
  match st with
  | 0 =>
    let m := (mem.head?.map (·.m)).getD 0
    let mem := mem.drop 1
    let s := if (s.C ck).att = .departed then s
      else s.modC ck fun c => { c with att := .attached, wmem := mem.map fun x => (x.m, x.chip, x.core, x.ck, x.size) }
    s.openDone ck (W (mem.length * 2 ^ 32 + m))
  | 2 => (s.modC ck fun c => { c with att := .departed }).openDone ck (W (2 * 2 ^ 62))
  | 3 => s.wdetDone ck
  | 6 => (s.openDone ck (W (2 * 2 ^ 62))).wdetDone ck
  | 4 => (s.modC ck fun c => { c with wmem := [] }).post .crewRetire (.n1 ck)
  | _ => (s.modC ck fun c => { c with att := .none, winG := 0 }).openDone ck (W (2 * 2 ^ 62))

/-- WINDOW_OPEN_REPLY (R335): it waits at the core while the member's context is not in a bank. -/
def execWindowOpenReply (s : State) : Host.Outcome State Fault Refusal :=
  .next (match s.ev with
    | .wmem key st mem =>
      let g := key % 256
      let ctx := key / 256 % 64
      let core := key / 256 / 64
      let m := (mem.head?.map (·.m)).getD 0
      match s.memberAt core ctx g m with
      | some ck => s.windowTold ck st mem
      | none => if (s.memberSaved core ctx g m).isSome then s.post .windowOpenReply s.ev else s
    | _ => s)

/-! ### LDW and STW (R200, R337) -/

/-- The checks of a window address in a lane: MISALIGNED, then PERMISSION (R57, R180, R337). -/
def State.winCheck (s : State) (size : Nat) (x : Word) : Option Cause :=
  let c := s.C s.ck
  if x.toNat % size ≠ 0 then some .misaligned
  else if c.att ≠ .attached then some .permission
  else if bits x 63 44 ≠ 0 ∨ bits x 31 19 ≠ 0 then some .permission
  else match c.wmem.find? (·.1 == bits x 43 32) with
    | none => some .permission
    | some m => if m.2.2.2.2 ≤ bits x 18 0 then some .permission else none

/-- The lanes of a window word whose checks pass, each with its address. -/
def State.winLanes (s : State) (pr : Bool) (size : Nat) (ea : Thr → Word) : State × List (LaneRef × Word) :=
  s.iss.lanes.foldl (fun (s', ms) l =>
    if s.active pr l then
      let x := ea (s.rT l.tk)
      match s.winCheck size x with
      | some c => (s'.fail l c x 0, ms)
      | none => (s', ms ++ [(l, x)])
    else (s', ms)) (s, [])

/-- A window word's request of one lane to the member's core. -/
def State.winSend (s : State) (ld : Bool) (id size d : Nat) (l : LaneRef) (x : Word) (data : Nat) : State :=
  let c := s.C s.ck
  match c.wmem.find? (·.1 == bits x 43 32) with
  | none => s
  | some m =>
    let t := s.rT l.tk
    let ml : MLane := { tk := l.tk, id := id, tid := t.tid, pcw := s.pcw t, ea := x.toNat, size := size, data := data, cmp := 0, mode := 0 }
    let r : MemReq := { op := if ld then .load false else .store, ctx := s.iss.ctx, home := m.2.2.1, chip := s.chip, core := s.iss.core
                        lanes := [ml], sum := c.winG, fl := 0 }
    let o := s.ids
    let s := s.newOut { wait := [l.tk], chip := m.2.1, core := m.2.2.1, src := s.iss.core
                        ev := ⟨if ld then .windowRead else .windowWrite, .req r⟩ }
    s.startAcc l.tk { id := id, kind := if ld then .ldw else .stw, line := some (2 ^ 60 + x.toNat / 128), pkind := 3, acq := false, rel := false
                      scope := 0, held := [], out := o, pc := s.iss.pc, d := d, ea := x.toNat, heldAt := none, recd := false }

/-- LDW (R198, R200). -/
def execLdw (f : LmF) (s : State) : Host.Outcome State Fault Refusal :=
  word (.ldw f) s fun s =>
    let size := 2 ^ f.s.toNat
    let d := f.d.toNat
    let (s, ms) := s.winLanes (f.p == 1) size fun t => lmEa t f.a f.o size
    let id := s.ids
    let s := s.fresh.lockLanes id d (gbit d) f.l.toNat fun l => ms.any (·.1 == l)
    ms.foldl (fun s m => s.winSend true id size d m.1 m.2 0) s

/-- STW (R198, R200). -/
def execStw (f : StF) (s : State) : Host.Outcome State Fault Refusal :=
  word (.stw f) s fun s =>
    let size := 2 ^ f.s.toNat
    let (s, ms) := s.winLanes (f.p == 1) size fun t => lmEa t f.a f.o size
    let id := s.ids
    ms.foldl (fun s m => s.winSend false id size f.d.toNat m.1 m.2 ((s.rT m.1.tk).gr f.d.toNat).toNat) s.fresh

/-- An access refused because the member has departed (R336): LDW traps, STW becomes a deferred fault. -/
def State.winRefuse (s : State) (r : MemReq) (l : MLane) : State :=
  match r.op with
  | .store => s.toDir r.home r.ctx (.refused ⟨l.tid, l.ea, l.pcw, .windowDeparted, 0⟩ [⟨r.chip, r.core, l.tk, l.id⟩])
  | _ => s.send r.home r.chip r.core .readDataResponse (.resp l.tk l.id (.refused .windowDeparted 0))

/-- A window access at the member's core (R200, R334, R336): it waits there until the member is RUNNING or has finished. -/
def State.winPerform (s : State) (r : MemReq) (i : Instr) : State :=
  match r.lanes with
  | [] => s
  | l :: _ =>
    let m := l.ea / 2 ^ 32 % 4096
    let o := l.ea % 2 ^ 19
    match s.memberAt r.home r.ctx r.sum m with
    | none => if (s.memberSaved r.home r.ctx r.sum m).isSome then s.post i (.req r) else s.winRefuse r l
    | some ck =>
      let c := s.C ck
      if c.att = .departed then s.winRefuse r l
      else if c.st = .suspended ∨ c.st = .placed then s.post i (.req r)
      else match r.op with
        | .store => (s.shareWr ck o l.size l.data).send r.home r.chip r.core .ackResponse (.resp l.tk l.id .ack)
        | _ => s.send r.home r.chip r.core .readDataResponse (.resp l.tk l.id (.data (W (s.shareRd ck o l.size)) 0))

/-- WINDOW_READ (R200). -/
def execWindowRead (s : State) : Host.Outcome State Fault Refusal :=
  .next (match s.ev with
    | .req r => s.winPerform r .windowRead
    | _ => s)

/-- WINDOW_WRITE (R200). -/
def execWindowWrite (s : State) : Host.Outcome State Fault Refusal :=
  .next (match s.ev with
    | .req r => s.winPerform r .windowWrite
    | _ => s)

end Sys2Proof.Machine
end

