-- ==== Sys2Proof/Machine/Barrier.lean ====
section
/-! DEFINITION. Barriers (16): group barriers with their agent (R345-R348), byte-counting barriers (R349, R350) and the tempo (R352-R355). -/

namespace Sys2Proof.Machine
open Sys2Proof

/-! ### Group barriers: the crew -/

/-- The scope of a BAR word whose M bit is set (R344). -/
def barScope (f : BitVec 4) : Option Nat := if bit f.toNat 3 then some (f.toNat % 8) else none

/-- A crew's membership changed. -/
def State.modMemb (s : State) (ck g : Nat) (f : Memb → Memb) : State :=
  s.modC ck fun c => { c with memb := c.memb.map fun b => if b.g = g then f b else b }

/-- A lane joins a gathering (R346, R348): with M set it meets the release conditions before the arrival is sent. -/
def State.joinBar (s : State) (ck g : Nat) (j : Join) : State :=
  let tk := laneTk ck j.lane
  let s := match j.scope with
    | some sc => (let s := s.writeBack tk; if sc = 5 then s.flushReads tk else s)
    | none => s
  let need := match j.scope with
    | some _ => s.needOf [tk]
    | none => []
  s.modMemb ck g fun b =>
    if b.st = .gathering then { b with joined := b.joined ++ [j], need := b.need ++ need }
    else { b with st := .gathering, joined := [j], need := need }

/-- One lane of BAR or BARA (R346). -/
def State.barLane (s : State) (ck g : Nat) (j : Join) : State :=
  match (s.C ck).memb.find? (·.g == g) with
  | none => s
  | some b =>
    let tk := laneTk ck j.lane
    if b.st = .arrived ∨ (b.st = .gathering ∧ (b.joined.any (·.lane == j.lane)) = true) then
      (s.block tk (.bar g)).modMemb ck g fun b => { b with queue := b.queue ++ [j] }
    else
      let s := s.joinBar ck g j
      if j.bar then s.block tk (.bar g) else s

/-- BAR or BARA (R345, R346). -/
def State.barWord (s : State) (f : BarF) (bar : Bool) : State :=
  match s.groupArg f.s with
  | none => s.failAll .illegalInstr 0 0x100
  | some g =>
    let ck := s.ck
    match s.membOf ck g with
    | none => s.failAll .permission 0 0
    | some _ => (s.eachLane fun s l => s.barLane ck g ⟨l.pos, bar, barScope f.f⟩).barTest ck

/-- BAR (R346). -/
def execBar (f : BarF) (s : State) : Host.Outcome State Fault Refusal := word (.bar f) s fun s => s.barWord f true
/-- BARA (R346). -/
def execBara (f : BarF) (s : State) : Host.Outcome State Fault Refusal := word (.bara f) s fun s => s.barWord f false

/-- The acquire of a lane that passes a barrier (R348). -/
def State.barAcquire (s : State) (tk : Nat) (sc : Option Nat) : State :=
  match sc with
  | some n => if 4 ≤ n then s.dropAway (dieOf (coreOfTk tk)) else s
  | none => s

/-- BARW (R346): a lane that has not joined the current gathering raises ILLEGAL_CONVERGENCE. -/
def execBarw (f : BarF) (s : State) : Host.Outcome State Fault Refusal :=
  word (.barw f) s fun s =>
    match s.groupArg f.s with
    | none => s.failAll .illegalInstr 0 0x100
    | some g =>
      let ck := s.ck
      match s.membOf ck g with
      | none => s.failAll .permission 0 0
      | some b =>
        let sc := barScope f.f
        if b.st = .gathering ∨ b.st = .arrived then
          s.eachLane fun s l =>
            if b.joined.any (·.lane == l.pos) then
              (s.block l.tk (.bar g)).modMemb ck g fun b => { b with waitw := b.waitw ++ [(l.pos, sc)] }
            else s.fail l .illegalConvergence 0 0
        else s.eachLane fun s l => s.barAcquire l.tk sc

/-- The release of a crew's barrier (R346, R348): DONE, the waiting lanes go on, and lanes that waited to join again start the next gathering. -/
def State.barDone (s : State) (ck g : Nat) : State :=
  match (s.C ck).memb.find? (·.g == g) with
  | none => s
  | some b =>
    let s := s.modMemb ck g fun b => { b with st := .done, joined := [], waitw := [], need := [], queue := [] }
    let s := (b.joined.filter (·.bar)).foldl (fun s j => (s.barAcquire (laneTk ck j.lane) j.scope).wake (laneTk ck j.lane)) s
    let s := b.waitw.foldl (fun s w => (s.barAcquire (laneTk ck w.1) w.2).wake (laneTk ck w.1)) s
    (b.queue.foldl (fun s j =>
      let s := s.joinBar ck g j
      if j.bar then s else s.wake (laneTk ck j.lane)) s).barTest ck

/-! ### Group barriers: the agent (R347) -/

/-- A group's barrier agent: EXPECT starts at NMEM. -/
def State.bagent (s : State) (ctx g : Nat) : BAgent :=
  (s.bagents.get? (ctx * 256 + g)).getD
    { st := .idle, expect := ((s.gent ctx g).map (·.nmem)).getD 0, arr := [], acks := 0, held := [], gone := [] }
/-- The agent replaced. -/
def State.setBagent (s : State) (ctx g : Nat) (a : BAgent) : State := { s with bagents := s.bagents.set (ctx * 256 + g) a }

/-- The instance completes when COUNT = EXPECT (R347). -/
def State.bagentTest (s : State) (ctx g : Nat) : State :=
  let a := s.bagent ctx g
  if a.st = .collecting ∧ a.arr.length = a.expect then
    a.arr.foldl (fun s x => s.send (distCore 0) x.2.1 x.2.2.1 .barrierRelease (.n6 ctx g x.1 s.chip x.2.2.1 x.2.2.2))
      (s.setBagent ctx g { a with st := .releasing, acks := a.arr.length })
  else s

/-- An arrival at the agent; one of a member that has departed meanwhile is withdrawn. -/
def State.barArrive (s : State) (ctx g : Nat) (x : Nat × Nat × Nat × Nat) : State :=
  let a := s.bagent ctx g
  if a.gone.contains x.1 then s
  else if a.st = .releasing then s.setBagent ctx g { a with held := a.held ++ [x] }
  else (s.setBagent ctx g { a with st := .collecting, arr := a.arr ++ [x] }).bagentTest ctx g

/-- BARRIER_ARRIVAL (R347). -/
def execBarrierArrival (s : State) : Host.Outcome State Fault Refusal :=
  .next (match s.ev with
    | .n6 ctx g m chip core ck => s.barArrive ctx g (m, chip, core, ck)
    | _ => s)

/-- BARRIER_RELEASE_ACK (R347): with the last one the instance is IDLE, and held arrivals are taken. -/
def execBarrierReleaseAck (s : State) : Host.Outcome State Fault Refusal :=
  .next (match s.ev with
    | .n3 ctx g _ =>
      let a := s.bagent ctx g
      if a.acks ≤ 1 then
        a.held.foldl (fun s x => s.barArrive ctx g x) (s.setBagent ctx g { a with st := .idle, arr := [], acks := 0, held := [] })
      else s.setBagent ctx g { a with acks := a.acks - 1 }
    | _ => s)

/-- BARRIER_MEMBER_DEPARTURE (R347): EXPECT falls and the member's pending arrival is withdrawn. -/
def execBarrierMemberDeparture (s : State) : Host.Outcome State Fault Refusal :=
  .next (match s.ev with
    | .n3 ctx g m =>
      let a := s.bagent ctx g
      let arr := if a.st = .releasing then a.arr else a.arr.filter (·.1 != m)
      let st := if a.st = .collecting ∧ arr = [] then AgSt.idle else a.st
      (s.setBagent ctx g { a with st := st, expect := a.expect - 1, arr := arr, held := a.held.filter (·.1 != m), gone := m :: a.gone }).bagentTest ctx g
    | _ => s)

/-- An event appended to a context's event log at a core (R366). -/
def State.logEvent (s : State) (core ctx : Nat) (e : LogE) : State :=
  match s.saves.get? (core * 64 + ctx) with
  | some a => { s with saves := s.saves.set (core * 64 + ctx) { a with log := a.log ++ [e] } }
  | none => s

/-- BARRIER_RELEASE (R347, R366): the crew's barrier is DONE, or the event goes to the log of its spilled context; the core acknowledges. -/
def execBarrierRelease (s : State) : Host.Outcome State Fault Refusal :=
  .next (match s.ev with
    | .n6 ctx g m chip core _ =>
      let s := match s.memberAt core ctx g m with
        | some ck => s.barDone ck g
        | none => match s.memberSaved core ctx g m with
          | some block => s.logEvent core ctx (.bar block g)
          | none => s
      s.send core chip (distCore 0) .barrierReleaseAck (.n3 ctx g m)
    | _ => s)

/-! ### Byte-counting barriers (R349, R350) -/

/-- The signed REMAIN of a barrier word. -/
def remainOf (w : Nat) : Int := sgn 48 (w % 2 ^ 48)
/-- A barrier word put together. -/
def barWordOf (armed ovr : Bool) (r : Int) : Nat := b2n armed * 2 ^ 63 + b2n ovr * 2 ^ 62 + wrapI 48 r

/-- Count of R349 at a word's key: the word and whether it becomes FULL. -/
def countStep (w b : Nat) : Nat × Bool :=
  let r : Int := sgn 48 (wrapI 48 (remainOf w - b))
  let ovr := bit w 62 || decide (r < 0)
  if bit w 63 ∧ r ≤ 0 then (barWordOf false ovr r, true) else (barWordOf (bit w 63) ovr r, false)

/-- Arm of R349: the word, and the full/empty bit it takes. -/
def armStep (w n : Nat) : Nat × Bool :=
  let r : Int := sgn 48 (wrapI 48 (remainOf w + n))
  if r ≤ 0 then (barWordOf false (decide (r < 0)) r, true) else (barWordOf true false r, false)

/-- Count performed on a share word of a crew (R349). -/
def State.countAt (s : State) (ck o b : Nat) : State :=
  let (w, full) := countStep (s.shareRd ck o 8) b
  let s := s.shareWr ck o 8 w
  if full then s.setFull (spadKey (coreOfCk ck) ((s.C ck).spBase + o)) true else s

/-- Arm performed on a share word of a crew (R349). -/
def State.armAt (s : State) (ck o n : Nat) : State :=
  let (w, full) := armStep (s.shareRd ck o 8) n
  (s.shareWr ck o 8 w).setFull (spadKey (coreOfCk ck) ((s.C ck).spBase + o)) full

/-- The checks of BEXP and BARB (R345), then their effect once for the chain. -/
def State.byteWord (s : State) (f : XsF) (k : State → Nat → Nat → State) : State :=
  let o := s.sreg f.s.toNat
  let n := s.sreg (f.s.toNat + 1)
  if bits o 63 19 ≠ 0 then s.failAll .illegalInstr 0 0x100
  else if bits n 63 47 ≠ 0 then s.failAll .illegalInstr 0 0x101
  else if o.toNat % 8 ≠ 0 then s.failAll .misaligned o 0
  else if (s.C s.ck).spSize ≤ o.toNat then s.failAll .permission o 0
  else k s o.toNat n.toNat

/-- BEXP (R350). -/
def execBexp (f : XsF) (s : State) : Host.Outcome State Fault Refusal := word (.bexp f) s fun s => s.byteWord f fun s o n => s.armAt s.ck o n
/-- BARB (R350). -/
def execBarb (f : XsF) (s : State) : Host.Outcome State Fault Refusal := word (.barb f) s fun s => s.byteWord f fun s o n => s.countAt s.ck o n

/-! ### Tempo (R352-R355) -/

/-- A lane joins its crew's TEMPO (R353). -/
def State.tempoJoin (s : State) (ck : Nat) (l : TLane) : State :=
  let s := s.writeBack (laneTk ck l.lane)
  let need := s.needOf [laneTk ck l.lane]
  s.modC ck fun c => { c with tempo := { c.tempo with joined := c.tempo.joined ++ [l], need := c.tempo.need ++ need } }

/-- The lock of a TEMPO.or destination from issue to release (R353); bit 33 marks it. -/
def State.tempoLock (s : State) (tk g : Nat) : State :=
  (s.modT tk fun t => { t with locks := t.locks ++
    [{ id := s.ids, d := g, regs := gbit g ||| 2 ^ 33, left := 0, active := true, due := none, val := none, fl := 0 }] }).fresh

/-- TEMPO and TEMPO.or (R353): a crew's lanes gather, a roaming thread arrives alone. -/
def State.tempoWord (s : State) (orr : Bool) (g : Nat) : State :=
  match s.iss.crew with
  | some ck =>
    (s.eachLane fun s l =>
      let v := (s.rT l.tk).gr g
      let s := s.block l.tk .tempo
      let s := if orr then s.tempoLock l.tk g else s
      let t := (s.C ck).tempo
      let j : TLane := ⟨l.pos, orr, g, v⟩
      if t.sent || t.joined.any (·.lane == l.pos) then s.modC ck fun c => { c with tempo := { c.tempo with queue := c.tempo.queue ++ [j] } }
      else s.tempoJoin ck j).tempoTest ck
  | none =>
    s.eachLane fun s l =>
      let v := (s.rT l.tk).gr g
      let s := s.block l.tk .tempo
      let s := if orr then s.tempoLock l.tk g else s
      (s.modT l.tk fun t => { t with tmp := some ⟨orr, g, v, false⟩ }).recheck l.tk

/-- TEMPO (R353). -/
def execTempo (f : ChainF) (s : State) : Host.Outcome State Fault Refusal := word (.tempo f) s fun s => s.tempoWord false 0
/-- TEMPO.or (R353). -/
def execTempoOr (f : CgF) (s : State) : Host.Outcome State Fault Refusal := word (.tempoOr f) s fun s => s.tempoWord true f.g.toNat

/-- TEMPO_ARRIVAL (R352). -/
def execTempoArrival (s : State) : Host.Outcome State Fault Refusal :=
  .next (match s.ev with
    | .tarr ctx kern chip core p v =>
      let a := s.tagent ctx kern
      (s.setTagent ctx kern { a with arr := a.arr ++ [(chip, core, p)], orv := a.orv ||| v }).tempoComplete ctx kern
    | _ => s)

/-- A tempo's release in a crew (R353): each joined lane goes on; lanes that waited to join again start the next gathering. -/
def State.tempoCrewGo (s : State) (ck : Nat) (v : Word) : State :=
  let t := (s.C ck).tempo
  let s := (s.modC ck fun c => { c with tempo := TGath.blank }).dropAway (dieOf (coreOfCk ck))
  let s := t.joined.foldl (fun s l =>
    let tk := laneTk ck l.lane
    let s := s.modT tk fun x => { x with locks := x.locks.filter fun k => !bit k.regs 33 }
    let s := if l.orr then s.wrG tk l.g v else s
    (s.wake tk).wakeReaders tk) s
  (t.queue.foldl (fun s l => s.tempoJoin ck l) s).tempoTest ck

/-- A parked tempo record released (R355). -/
def relTempo (t : TId) (v : Word) : ORec × Bool → ORec × Bool
  | (.tempo x none, b) => if x.tid = t then (.tempo x (some v), b) else (.tempo x none, b)
  | r => r

/-- A thread that waits in TEMPO in a core's save area (R366). -/
def State.tempoSaved (s : State) (core ctx : Nat) (t : TId) : Option Nat :=
  match s.saves.get? (core * 64 + ctx) with
  | some a => (a.thr.find? fun x => x.2.tid == t && x.2.wait == .tempo).map (·.1)
  | none => none

/-- TEMPO_RELEASE (R353, R355, R366). -/
def execTempoRelease (s : State) : Host.Outcome State Fault Refusal :=
  .next (match s.ev with
    | .trel ctx core p v =>
      match p with
      | .crew ck =>
        match s.crews.find? fun x => coreOfCk x.1 == core && x.1 % 16 == ck % 16 && x.2.ctx == ctx && x.2.tempo.sent with
        | some x => s.tempoCrewGo x.1 v
        | none => s.logEvent core ctx (.tempo (some (ck % 16)) 0 v)
      | .thread t _ =>
        match s.thr.find? fun x => coreOfTk x.1 == core && x.2.ctx == ctx && x.2.tid == t && x.2.wait == .tempo with
        | some x => s.tempoGo x.1 v
        | none => match s.tempoSaved core ctx t with
          | some slot => s.logEvent core ctx (.tempo none slot v)
          | none => s.setOvf core ctx ((s.ovfOf core ctx).map (relTempo t v))
    | _ => s)

/-- TEMPO_PARK (R355): a roaming thread that has arrived gives up its slot while its context's list is not empty. -/
def execTempoPark (s : State) : Host.Outcome State Fault Refusal :=
  .next (match s.ev with
    | .thread tk =>
      let t := s.T tk
      let core := coreOfTk tk
      let sent := match t.tmp with
        | some w => w.sent
        | none => false
      if t.st = .blocked ∧ t.wait = .tempo ∧ t.kind ≠ 2 ∧ sent = true ∧ s.ovfOf core t.ctx ≠ [] ∧ s.ctxActive core t.ctx = true then
        (({ s with thr := s.thr.del tk }).park core (.tempo t none)).slotFreed core
      else s
    | _ => s)

end Sys2Proof.Machine
end

