-- ==== Sys2Proof/Machine/Capture.lean ====
section
/-! DEFINITION. Snapshots (20 R435, R436): the trigger and its spread, what each block latches, recorded inputs, SNAP (05 R93), and reading a
capture. -/

namespace Sys2Proof.Machine
open Sys2Proof

/-- The blocks of a package that latch on their own: cores with their agents, clusters (1000 on), links (2000 on), the management core's sensors. -/
def allBlocks : List Nat :=
  List.range 384 ++ (List.range 96).map (1000 + ·) ++ [2000, 2001, 2002, 2003] ++ (List.range 8).map (2008 + ·) ++ [2016, 3000]

/-- The capture that is being written: the last one. -/
def State.modCap (s : State) (f : Capture → Capture) : State :=
  { s with dev := { s.dev with caps := s.dev.caps.modify (s.dev.caps.length - 1) f } }

/-- What a core latches (R435): its slots, crews, scratchpad and private slices, and its home's page entries, side logs and owner records. -/
def Capture.core (k : Capture) (s : State) (c : Nat) : Capture :=
  let home (key : Nat) : Bool := coreOfKey key == c
  { k with
    thr := k.thr ++ s.thr.filter fun x => coreOfTk x.1 == c
    crews := k.crews ++ s.crews.filter fun x => coreOfCk x.1 == c
    mem := k.mem ++ cellsIn s.mem (spadKey c 0) (2 ^ 19) ++ cellsIn s.mem (privKey c 0 0) (2 ^ 17)
    pages := k.pages ++ s.pages.filter fun x => home x.1
    slog := k.slog ++ s.slog.filter fun x => home x.1
    owners := k.owners ++ s.owners.filter fun x => home x.1 }

/-- What a block latches. -/
def Capture.latch (k : Capture) (s : State) (b : Nat) : Capture :=
  if b < 384 then k.core s b
  else if b < 2000 then
    let cl := b - 1000
    { k with mem := k.mem ++ cellsIn s.mem (2 ^ 62 + cl * 2 ^ 21) (2 ^ 21) ++ cellsIn s.mem (2 ^ 63 + cl * 2 ^ 23) (2 ^ 23)
             engines := k.engines ++ s.engines.filter fun x => x.1 == cl }
  else if b < 3000 then { k with links := k.links ++ [(b - 2000, (s.dev.links.get? (b - 2000)).getD Link.blank)] }
  else { k with sensors := s.dev.sensors, band := s.dev.bandReg }

/-- The trigger reaches a block (R435). With the last one, the frames still in routers are recorded, and the capture goes to its slot. -/
def State.latchOne (s : State) (b : Nat) : State :=
  if s.dev.latch.contains b then
    let s := s.modCap fun k => k.latch s b
    let s : State := { s with dev := { s.dev with latch := s.dev.latch.erase b } }
    if s.dev.latch = [] then
      let fl := s.flights
      let s := s.modCap fun k => { k with frames := k.frames ++ (fl.filter fun f => !f.mark).map (·.ev) }
      ({ s with flights := fl.map fun f => { f with mark := true } } : State).post .snapshotCaptureComplete .none
    else s
  else s

/-- A frame that reaches its target while a capture spreads (R435): one that left after the trigger does not arrive before it; one that left
before is a recorded input of a block that has latched. -/
def State.seen (s : State) (f : Flight) : State :=
  if s.dev.latch = [] then s else
  let b := latchBlock f.dst
  if f.mark then s.latchOne b
  else if s.dev.latch.contains b then s
  else s.modCap fun k => { k with frames := k.frames ++ [f.ev] }

/-- The common trigger is raised (R435, R436): dropped while a capture is being written. -/
def State.trigger (s : State) (tag src clock : Nat) : State :=
  if s.dev.capBusy then s.devLog 0x41 (s.locOf src) 0 tag
  else
    let n := s.dev.capNext
    let k : Capture := { slot := n, tag := tag, src := src, clock := clock, thr := [], crews := [], mem := [], engines := [], pages := [], slog := []
                         owners := [], frames := [], links := [], sensors := [], band := 0 }
    let s : State := { s with
      flights := s.flights.map fun f => { f with mark := false }
      dev := { s.dev with caps := (s.dev.caps.filter fun c => c.slot != n) ++ [k], capNext := 1 - n, capBusy := true, latch := allBlocks } }
    (s.devLog 0x40 (s.locOf src) 0 tag).post .snapshotTriggerArrival .none

/-- SNAP (R93): the issuing core latches with its chain in effect. A word that several lanes issue raises one trigger (log 51). -/
def execSnap (f : CtlF) (s : State) : Host.Outcome State Fault Refusal :=
  word (.snap f) s fun s =>
    let busy := s.dev.capBusy
    let c := s.iss.core
    let s := s.trigger f.i.toNat c (s.clockOf c)
    if busy then s else { s with dev := { s.dev with snapAt := some c } }

/-- The core that issued SNAP latches at the end of its chain (R93). -/
def State.snapHere (s : State) : State :=
  match s.dev.snapAt with
  | some c => ({ s with dev := { s.dev with snapAt := none } } : State).latchOne c
  | none => s

/-- SNAPSHOT_REQUEST (R435): the management core's own trigger. -/
def execSnapshotRequest (s : State) : Host.Outcome State Fault Refusal :=
  .next (match s.ev with
    | .n1 tag => (s.trigger (tag % 2 ^ 13) Config.mgmtCore (s.clockOf Config.mgmtCore)).answerHost .ok 0
    | _ => s)

/-- SNAPSHOT_TRIGGER_ARRIVAL (R435): the trigger reaches a block; in which order is not given (log 9). -/
def execSnapshotTriggerArrival (s : State) : Host.Outcome State Fault Refusal :=
  .next (match s.dev.latch with
    | [] => s
    | l =>
      let b := l.getD (if l.length ≤ 1 then 0 else Config.choice s.tick % l.length) 0
      let s := ({ s with tick := s.tick + 1 } : State).latchOne b
      if s.dev.latch = [] then s else s.post .snapshotTriggerArrival .none)

/-- SNAPSHOT_CAPTURE_COMPLETE (R436). -/
def execSnapshotCaptureComplete (s : State) : Host.Outcome State Fault Refusal :=
  .next { s with dev := { s.dev with capBusy := false } }

/-- CAPTURE_READ (R436): slot, offset, length. The spec gives a capture's contents and not their places, so the bytes are open (log 14). -/
def execCaptureRead (s : State) : Host.Outcome State Fault Refusal :=
  .next (match s.ev with
    | .n3 slot ofs len =>
      if s.dev.caps.any (·.slot == slot) then s.answerHost .ok (Config.captureBytes s.tick ofs % 2 ^ (8 * len)) else s.answerHost .badState 0
    | _ => s)

end Sys2Proof.Machine
end

