-- ==== Sys2Proof/Machine/Agent.lean ====
section
/-! DEFINITION. How an agent that is no thread reads and writes a context's memory: distributors, engines, map units and Nyend's firmware (08 R186,
10 R242, 18 R382), and the words it watches (08 R218). -/

namespace Sys2Proof.Machine
open Sys2Proof

/-- Why an agent's access is not performed: refused or unmappable, held at a page, to be tried again at a page that changes home, or to be read from homes
on other chips. -/
inductive AErr where
  | bad (c : Cause) (ea : Nat)
  | wait (key ea : Nat)
  | busy
  | away (ea n mode : Nat)
  deriving DecidableEq, Repr

/-- The event that tries again an access held at a page: `fail` is 0, or 1 + the key of a page declared unmappable (R387). -/
def failKey (fail key : Nat) : Bool := fail == key + 1

/-- What an event has read of a home on another chip. -/
def State.asked (s : State) (a : Arg) (ctx ea n : Nat) : Option Ask := s.asks.find? fun x => x.ev.a == a && x.ctx == ctx && x.ea == ea && x.n == n

/-- At most 8 bytes read by an agent at their home (R186, R242); `sealed` requires a sealed page. -/
def State.rdOne (s : State) (ctx fail : Nat) (sealed : Bool) (ea n : Nat) : Except AErr Nat :=
  if 2 ^ 56 ≤ ea then .error (.bad .permission ea) else
  match s.homeOf ctx ea with
  | none => .error (.bad .permission ea)
  | some h =>
    if h.chip ≠ s.chip then
      match (s.asked s.ev ctx ea n).bind (·.res) with
      | some (.data v _) => .ok v.toNat
      | some (.refused c _) => .error (.bad c ea)
      | _ => .error (.away ea n (b2n sealed))
    else
    let key := h.key ctx
    match s.verdict key true false with
    | .refuse c => .error (.bad (s.causeAt key h.pofs n c) ea)
    | .rehoming => .error .busy
    | .absent _ => if failKey fail key then .error (.bad .notPresent ea) else .error (.wait key ea)
    | .ok p => if p.tier = 2 ∧ s.hostLost = true then .error (.bad .permission ea) else if sealed && !p.s then .error (.bad .permission ea)
      else if s.poisoned (s.byteKey key p h.pofs) n then .error (.bad .uncorrectable ea) else .ok (memRdN s.mem (s.byteKey key p h.pofs) n)

/-- Words of 8 bytes, the last one shorter, read one by one: a line can have two homes (R192). -/
def State.rdPieces (s : State) (ctx fail : Nat) (sealed : Bool) : Nat → Nat → Nat → Except AErr (List Nat)
  | 0, _, _ => .ok []
  | k + 1, ea, n => match s.rdOne ctx fail sealed ea (min 8 n) with
    | .error e => .error e
    | .ok w => match s.rdPieces ctx fail sealed k (ea + 8) (n - 8) with
      | .error e => .error e
      | .ok r => .ok (w :: r)

/-- n bytes as words; what is on other chips is asked for as a whole. -/
def State.rdBytes (s : State) (ctx fail : Nat) (sealed : Bool) (ea n : Nat) : Except AErr (List Nat) :=
  match s.rdPieces ctx fail sealed ((n + 7) / 8) ea n with
  | .error (.away _ _ _) => .error (.away ea n (b2n sealed))
  | x => x

/-- n bytes read by an agent. -/
def State.rdA (s : State) (ctx fail : Nat) (sealed : Bool) (ea n : Nat) : Except AErr Nat :=
  (s.rdBytes ctx fail sealed ea n).map fun ws => ws.foldr (fun w r => w + 2 ^ 64 * r) 0

/-- k words of 8 bytes read from an address. -/
def State.rdWords (s : State) (ctx fail : Nat) (sealed : Bool) (ea k : Nat) : Except AErr (List Nat) := s.rdBytes ctx fail sealed ea (8 * k)

/-- The check of an agent's write (R242). A home on another chip checks it when it arrives. -/
def State.wrChk (s : State) (ctx fail ea : Nat) : Except AErr Unit :=
  if 2 ^ 56 ≤ ea then .error (.bad .permission ea) else
  match s.homeOf ctx ea with
  | none => .error (.bad .permission ea)
  | some h =>
    if h.chip ≠ s.chip then .ok () else
    let key := h.key ctx
    match s.verdict key false true with
    | .refuse c => .error (.bad c ea)
    | .rehoming => .error .busy
    | .absent _ => if failKey fail key then .error (.bad .notPresent ea) else .error (.wait key ea)
    | .ok p => if p.tier = 2 ∧ s.hostLost = true then .error (.bad .permission ea)
      else if s.poisoned (s.byteKey key p h.pofs) 1 then .error (.bad .uncorrectable ea) else .ok ()

/-- The bytes of a mask, of at most 8 from an address, written by an agent at their home as one access (R187, R302); a write to another chip leaves as a
request whose acknowledgement is owed. -/
def State.wrMaskA (s : State) (src ctx ea n mask v : Nat) : State :=
  match s.homeOf ctx ea with
  | none => s
  | some h =>
    if h.chip ≠ s.chip then
      let l : MLane := { noLane ea n with id := s.ids, data := v, cmp := mask }
      let r : MemReq := { op := .store, ctx := ctx, home := h.core, chip := s.chip, core := src, lanes := [l], sum := 0, fl := 0 }
      let s : State := { s with owed := s.owed ++ [⟨s.ids, ctx, ea, none, 0, none, none, none⟩] }
      s.fresh.send src h.chip h.core .writeRequest (.req r)
    else match s.pages.get? (h.key ctx) with
      | none => s
      | some p => (s.wrMask (s.byteKey (h.key ctx) p h.pofs) mask v n).afterWrite h.core ctx ea n

/-- n bytes, at most 8, written by an agent at their home. -/
def State.wrA (s : State) (src ctx ea n v : Nat) : State := s.wrMaskA src ctx ea n (2 ^ n - 1) v

/-- Words written from an address. -/
def State.wrWords (s : State) (src ctx : Nat) : Nat → List Nat → State
  | _, [] => s
  | ea, w :: r => (s.wrA src ctx ea 8 w).wrWords src ctx (ea + 8) r

/-! ### Homes on other chips -/

/-- The reads that an event needs of homes on other chips sent; the event is performed again with their answers. -/
def State.askAway (s : State) (src : Nat) (who : Option Reader) (e : Ev) (ctx ea n mode : Nat) : State :=
  (List.range ((n + 7) / 8)).foldl (fun s i =>
    let a := ea + 8 * i
    let k := min 8 (n - 8 * i)
    match homeIn (s.ctx ctx).ptab a with
    | none => s
    | some h =>
      if h.chip = s.chip ∨ (s.asked e.a ctx a k).isSome then s else
      let l : MLane := { noLane a k with id := s.ids, mode := mode }
      let r : MemReq := { op := .load false, ctx := ctx, home := h.core, chip := s.chip, core := src, lanes := [l], sum := 0, fl := 0 }
      let s : State := { s with asks := s.asks ++ [⟨s.ids, e, ctx, a, k, who, none⟩] }
      s.fresh.send src h.chip h.core .remoteRead (.req r)) s

/-- Whether a read of another chip's home is still without its answer; one held there says at which page. -/
def Ask.isOpen (x : Ask) : Bool :=
  match x.res with
  | none => true
  | some (.heldAt _) => true
  | _ => false

/-- The answers that a performed event has used. -/
def State.askDone (s : State) (e : Ev) : State :=
  if s.asks.any fun x => x.ev == e && x.isOpen then s else { s with asks := s.asks.filter (·.ev != e) }

/-- The writes that left since transaction `id0` are an engine job's, or an event waits for all of them. -/
def State.owedBy (s : State) (id0 : Nat) (job : Option Nat) (cnt : Nat) (who : Option Reader) (ev : Option Ev) : State :=
  { s with owed := s.owed.map fun w => if id0 ≤ w.id then { w with job := job, cnt := cnt, who := who, ev := ev } else w }

/-- What follows an agent's writes, which began with transaction `id0` (R286, R289, R293): at once where they were performed on this chip, else the event
once they are acknowledged. -/
def State.thenDo (s : State) (id0 : Nat) (who : Option Reader) (e : Ev) (go : State → State) : State :=
  if s.owed.any fun w => decide (id0 ≤ w.id) then s.owedBy id0 none 0 who (some e) else go s

/-- The HELD record of an agent's access at a page (R382). -/
def State.heldRec (s : State) (ctx chip key ea : Nat) (r : Reader) : State :=
  s.post .faultRecordWrite (.frec ctx
    { kind := 0, cause := .notPresent, core := r.core, slot := 0x1ff, kern := r.kern, tkind := r.tkind, ring := 0, number := r.number
      lmask := 0, addr := W ea, pc := 0, info := W (r.code * 2 ^ 60 + r.info % 2 ^ 32), page := pageWord chip key, aux0 := 0, aux1 := 0 })

/-- The event that an agent's access becomes when it can no more be performed (R387). -/
def Ev.unmappable (e : Ev) (key : Nat) : Ev :=
  match e.i, e.a with
  | .packetConsume, .n3 a b _ => ⟨e.i, .n3 a b (key + 1)⟩
  | .roamingThreadCreate, .n3 a _ c => ⟨e.i, .n3 a (key + 1) c⟩
  | .bindFill, .n4 a b c _ => ⟨e.i, .n4 a b c (key + 1)⟩
  | .crewStart, .n1 a => ⟨e.i, .n2 a (key + 1)⟩
  | .distributionStart, .n3 a b c => ⟨e.i, .n4 a b c (key + 1)⟩
  | .engineJobStart, .n2 a _ => ⟨e.i, .n2 a (key + 1)⟩
  | .engineGranule, .n4 a _ g ea => ⟨e.i, .n4 a (key + 1) g ea⟩
  | .matrixOpComplete, .n3 a b _ => ⟨e.i, .n3 a b (key + 1)⟩
  | .matrixOpComplete, .n4 a b c _ => ⟨e.i, .n4 a b c (key + 1)⟩
  | .postPublish, .n3 a _ _ => ⟨e.i, .n3 a 9 Cause.notPresent.num⟩
  | .atomicRequest, .n6 a b c d f _ => ⟨e.i, .n6 a b c d f (key + 1)⟩
  | .ringRegister, .n6 a b c d _ f => ⟨e.i, .n6 a b c d 1 f⟩
  | .completionRecordWrite, .crec r => ⟨e.i, .crec { r with toFq := true }⟩
  | _, _ => e

/-- A home on another chip answers an agent's read: held, its one HELD record for that page is written (R382); with the last answer the event is
performed again. -/
def State.askAnswer (s : State) (x : Ask) (chip : Nat) (o : ROut) : State :=
  let got (s : State) : State := { s with asks := s.asks.map fun y => if y.id = x.id then { y with res := some o } else y }
  match o, x.who with
  | .heldAt key, some r =>
    if s.asks.any fun y => y.who == x.who && y.ctx == x.ctx && y.res == some o then got s else (got s).heldRec x.ctx chip key x.ea r
  | .heldAt key, none => match x.ev.i, x.ev.a with
    | .postPublish, .n3 id _ _ => match s.posts.find? (·.id == id) with
      | some j => s.answer j.tk j.id (.heldAt key)
      | none => s
    | _, _ => s
  | _, _ =>
    let s := got s
    if s.asks.any fun y => y.ev == x.ev && y.isOpen then s else s.post x.ev.i x.ev.a

/-- A home on another chip answers an agent's write: held, its HELD record is written; else a job counts it, or ends (R304, R306), and the event that waits
for the last such answer goes on, as one that cannot be performed where the write was refused. -/
def State.owedAnswer (s : State) (w : Owed) (chip : Nat) (o : ROut) : State :=
  match o, w.who with
  | .heldAt key, some r =>
    let s' : State := { s with owed := s.owed.map fun y => if y.id = w.id then { y with held := some key } else y }
    if s.owed.any fun y => y.who == w.who && y.ctx == w.ctx && y.held == some key then s' else s'.heldRec w.ctx chip key w.ea r
  | .heldAt _, none => s
  | _, _ =>
    let s : State := { s with owed := s.owed.filter (·.id != w.id) }
    let s := match w.job with
      | some j => s.post .engineGranule (.job j (w.ea + 2 ^ 56 * w.cnt) o)
      | none => s
    match w.ev with
    | none => s
    | some e => match o with
      | .refused _ _ =>
        let e' := e.unmappable 0
        let s : State := { s with owed := s.owed.map fun y => if y.ev = some e then { y with ev := none } else y }
        s.post e'.i e'.a
      | _ => if s.owed.any fun y => y.ev == some e then s else s.post e.i e.a

/-- An answer to an agent's access. -/
def State.agentAnswer (s : State) (id : Nat) (o : ROut) : State :=
  let chipOf (ctx ea : Nat) : Nat := ((homeIn (s.ctx ctx).ptab ea).map (·.chip)).getD s.chip
  match s.asks.find? (·.id == id) with
  | some x => s.askAnswer x (chipOf x.ctx x.ea) o
  | none => match s.owed.find? (·.id == id) with
    | some w => s.owedAnswer w (chipOf w.ctx w.ea) o
    | none => s

/-- An agent's read that is not performed: its event waits at the page, for a home change or for other chips; `bad` is what becomes of a refusal. -/
def State.agentErr (s : State) (src ctx : Nat) (who : Reader) (e : Ev) (bad : Cause → Nat → State) : AErr → State
  | .bad c ea => bad c ea
  | .wait key ea => (s.holdAt key e).heldRec ctx s.chip key ea who
  | .busy => s.post e.i e.a
  | .away ea n mode => s.askAway src (some who) e ctx ea n mode

/-- The same for an event that writes no HELD record. -/
def State.nyendErr (s : State) (ctx : Nat) (e : Ev) (bad : Cause → Nat → State) : AErr → State
  | .bad c ea => bad c ea
  | .wait key _ => s.holdAt key e
  | .busy => s.post e.i e.a
  | .away ea n mode => s.askAway Config.mgmtCore none e ctx ea n mode

/-- An event that waits until a word is written (R218); a word whose home lies on another chip is read again. -/
def State.watchWord (s : State) (ctx ea : Nat) (e : Ev) : State :=
  match s.homeOf ctx ea with
  | some h =>
    if h.chip ≠ s.chip then s.post e.i e.a
    else
      let k : Hook := ⟨ctx, ea / 8 * 8, e⟩
      if s.hooks.contains k then s else { s with hooks := s.hooks ++ [k] }
  | none => s

/-- A group's member list (R330). -/
def State.groupList (s : State) (ctx fail g : Nat) : Except AErr (List Nat) :=
  match s.groups.get? (ctx * 256 + g) with
  | none => .ok []
  | some e => if !e.v then .ok [] else s.rdWords ctx fail true e.mlist e.nmem

/-- The chips of a group's member list, ascending (R330, R333). -/
def chipsOf (ws : List Nat) : List Nat := isort (fun a b => decide (a ≤ b)) (ws.map fun w => fld w 63 48).eraseDups

/-- A choice among n things that the spec leaves open (R456). -/
def State.pickOf (s : State) (n : Nat) : Nat := if n ≤ 1 then 0 else Config.choice s.tick % n

/-- Whether valid regions cover a range (R282, R292); the number bounds how many are joined. -/
def covered (tab : List PEnt) : Nat → Nat → Nat → Bool
  | 0, _, _ => false
  | k + 1, a, n => match findRegion tab a 0 with
    | none => false
    | some (_, e) => decide (a + n ≤ e.base + e.len) || covered tab k (e.base + e.len) (a + n - (e.base + e.len))

/-- Whether an address lies in a region of TIER 0 or 1 in a page that can be written (R238, R281, R292). -/
def State.writable (s : State) (ctx ea : Nat) : Bool :=
  match s.homeOf ctx ea with
  | none => false
  | some h => decide (h.tier ≤ 1) && (decide (h.chip ≠ s.chip) || (match s.pages.get? (h.key ctx) with
    | some p => p.wr && !p.s && p.st != .retired
    | none => false))

end Sys2Proof.Machine
end

