-- ==== Sys2Proof/Machine/Sync.lean ====
section
/-! DEFINITION. FENCE and WAITW (08 R215-R218), SEAL and UNSEAL with copy tokens (10 R249-R255), permission probes (R240, R241), line fills
(R253), and the deferred directory's messages (R244, R245). -/

namespace Sys2Proof.Machine
open Sys2Proof

/-! ### FENCE and WAITW -/

/-- FENCE (R215, R216, R178): a THREAD-scope fence blocks nothing. -/
def execFence (f : FenceF) (s : State) : Host.Outcome State Fault Refusal :=
  word (.fence f) s fun s => s.eachLane fun s l =>
    let k := f.d.toNat
    let s := if k = 1 then s else s.writeBack l.tk
    if f.s.toNat = 0 then s else (s.block l.tk (.fence k f.s.toNat)).recheck l.tk

/-- WAITW (R217): a watch for every active lane, each BLOCKED until its home wakes it. -/
def execWaitw (f : WaitwF) (s : State) : Host.Outcome State Fault Refusal :=
  word (.waitw f) s fun s =>
    let size := if f.s = 1 then 8 else 4
    let (s, ms) := s.checkAll (f.p == 1) size ⟨true, false, false⟩ (fun _ => true) fun t => lmEa t f.a f.o size
    let id := s.ids
    let s := s.fresh
    ms.foldl (fun s m =>
      let ml := s.mlane m id size ((s.rT m.l.tk).gr f.d.toNat).toNat 0 0
      (s.block m.l.tk .watch).sendReq .watch .watch f.d.toNat 0 0 [(m, ml)]) s

/-! ### SEAL and UNSEAL: the issuing core -/

/-- The sealed mark of a page cleared in a core's permission cache (R251, R253). -/
def State.unmark (s : State) (core ctx chip key : Nat) : State :=
  let tag := tagOfKey key
  let off (e : PermE) : PermE := if e.ctx = ctx ∧ e.key = tag ∧ e.chip = chip then { e with s := false } else e
  s.modCore core fun c => { c with perm := c.perm.map off }

/-- The pages that hold a byte of a range, each with the lowest such address (R249, R252). -/
def State.pagesOf (s : State) (tab : List PEnt) (ctx a n : Nat) : List (HomeLoc × Nat) :=
  match findRegion tab a 0 with
  | none => []
  | some (r, e) =>
    let tiers := (s.pages.filter fun x => ctxOfKey x.1 == ctx && regionOfKey x.1 == r).map fun x => pageSize (tierOfKey x.1)
    let step := tiers.foldl min (min (2 ^ e.glog) (pageSize e.tier))
    let first := (a - e.base) / step
    let last := (a + n - 1 - e.base) / step
    let pieces := (List.range (last + 1 - first)).filterMap fun i =>
      let x := max a (e.base + (first + i) * step)
      (homeIn tab x).map fun h => (s.inPage h ctx, x)
    pieces.foldl (fun l p => if l.any fun q => q.1.key ctx == p.1.key ctx && q.1.chip == p.1.chip then l else l ++ [p]) []

/-- Whether a range lies within one valid region (R249). -/
def inRegion (tab : List PEnt) (a n : Nat) : Bool :=
  match findRegion tab a 0 with
  | none => false
  | some (_, e) => decide (a + n ≤ e.base + e.len)

/-- One lane's SEAL or UNSEAL (R250, R251): a message to every home concerned, for SEAL after the release conditions at DEVICE scope. -/
def State.sealLane (s : State) (un : Bool) (l : LaneRef) (a n d : Nat) : State :=
  let core := s.iss.core
  let ctx := s.iss.ctx
  let s := if un then s else s.writeBack l.tk
  let s := (s.pagesOf (s.tabOf core ctx) ctx a n).foldl (fun s p =>
    let id := s.ids
    let q : SealQ := { ctx := ctx, key := p.1.key ctx, home := p.1.core, hchip := p.1.chip, un := un, tk := l.tk, id := id, addr := p.2
                       chip := s.chip, core := core }
    let s := s.fresh
    let o := s.ids
    let s := s.newOut { wait := [l.tk], chip := p.1.chip, core := p.1.core, src := core
                        ev := ⟨if un then .unsealAtHome else .sealAtHome, .seal q⟩ }
    s.startAcc l.tk { id := id, kind := .seal, line := none, pkind := 3, acq := false, rel := !un, scope := 4, held := [], out := o
                      pc := s.iss.pc, d := d, ea := p.2, heldAt := none, recd := false }) s
  s.block l.tk .pages

/-- SEAL or UNSEAL in every active lane (R249). -/
def State.sealWord (s : State) (f : DapF) (un : Bool) : State :=
  s.eachLane fun s' l =>
    if s.active (f.p == 1) l then
      let t := s.rT l.tk
      let a := t.gr f.a.toNat
      let n := (t.gr f.d.toNat).toNat
      if bits a 63 56 ≠ 0 ∨ inRegion (s.tabOf s.iss.core s.iss.ctx) a.toNat n = false then s'.fail l .permission a 0
      else if n = 0 then s' else s'.sealLane un l a.toNat n f.d.toNat
    else s'

/-- SEAL (R249, R250). -/
def execSeal (f : DapF) (s : State) : Host.Outcome State Fault Refusal := word (.seal f) s fun s => s.sealWord f false
/-- UNSEAL (R249, R251). -/
def execUnseal (f : DapF) (s : State) : Host.Outcome State Fault Refusal := word (.unseal f) s fun s => s.sealWord f true

/-- The cause kept with a refused page. -/
def sealCause (d : Nat) : Cause := if d = 64 + Cause.notPresent.num then .notPresent else .permission

/-- A lane whose every page has answered goes on, or traps at the lowest address of a refused page (R250-R252). -/
def State.sealTest (s : State) (tk : Nat) : State :=
  let t := s.T tk
  let mine := t.pend.filter (·.kind == .seal)
  if t.st ≠ .blocked ∨ t.wait ≠ .pages ∨ (mine.any fun a => decide (a.d < 64)) = true then s else
  let s := s.modT tk fun t => { t with pend := t.pend.filter (·.kind != .seal) }
  match mine with
  | [] => s.wake tk
  | a :: r =>
    let m := r.foldl (fun m x => if x.ea < m.ea then x else m) a
    s.takeTrap tk { cause := sealCause m.d, pc := m.pc, addr := W m.ea, info := 0, word := 0 }

/-- A home's answer for one page (R250-R253): after UNSEAL the core drops the page's replicas of its die and its mark in the permission
cache. -/
def State.sealAnswer (s : State) (q : SealQ) (o : ROut) : State :=
  match o with
  | .refused c _ =>
    (s.modT q.tk fun t => { t with pend := t.pend.map fun a => if a.id = q.id then { a with d := 64 + c.num, heldAt := none } else a }).sealTest
      q.tk
  | .heldAt key =>
    let s := s.modT q.tk fun t => { t with pend := t.pend.map fun a => if a.id = q.id then { a with heldAt := some key, recd := false } else a }
    s.heldRecords q.tk q.id
  | _ =>
    let s := if q.un then
        let d := dieOf q.core
        let at_ (a : Nat) : Option Nat := (homeIn (s.tabOf q.core q.ctx) a).bind fun h => if h.chip = q.hchip then some ((s.inPage h q.ctx).key q.ctx) else none
        let mine (r : Rep) (x : RHalf) : Bool := r.ctx == q.ctx && holderDie r.holder == d
          && at_ (r.line * 128 + (if r.lo == some x then 0 else 64)) == some q.key
        let s := { s with epochs := s.epochs.set d (s.epoch d + 1) }.dropReps mine
        match homeIn (s.tabOf q.core q.ctx) q.addr with
        | some h => s.unmark q.core q.ctx q.hchip (h.key q.ctx)
        | none => s
      else s
    (s.complete q.tk q.id).sealTest q.tk

/-- SEAL_ANSWER (R250, R251). -/
def execSealAnswer (s : State) : Host.Outcome State Fault Refusal :=
  .next (match s.ev with
    | .sealAns q o => s.sealAnswer q o
    | _ => s)

/-! ### SEAL and UNSEAL: the home -/

/-- A home's answer sent. -/
def State.answerSeal (s : State) (q : SealQ) (o : ROut) : State := s.send q.home q.chip q.core .sealAnswer (.sealAns q o)

/-- Whether an entry maps a frame of a tier, as its own or as the destination of its move. -/
def State.maps (s : State) (p : Page) (tier frame : Nat) : Bool :=
  p.st != .unmapped && p.st != .retired && ((p.tier == tier && p.frame == frame)
    || (p.st == .moving && p.ntier == tier
        && (if pageSize p.ntier < pageSize p.tier then ((s.moves.get? p.nframe).getD []).contains frame else p.nframe == frame)))

/-- Whether another entry of the context maps the frame of a page (R254). -/
def State.frameShared (s : State) (key : Nat) (p : Page) : Bool :=
  p.st != .unmapped && s.pages.any fun x => x.1 != key && ctxOfKey x.1 == ctxOfKey key && s.maps x.2 p.tier p.frame
    && (p.tier == 2 || coreOfKey x.1 == coreOfKey key)

/-- A page message at the home that its address has now: the page there, or none and the message goes on (R77, R257). -/
def State.sealHere (s : State) (q : SealQ) (i : Instr) (go : SealQ → State) : State :=
  match s.homeOf q.ctx q.addr with
  | none => s.answerSeal q (.refused .permission 0)
  | some h =>
    if h.chip ≠ s.chip ∨ h.core ≠ q.home then s.forward q.home h.chip h.core q.ctx i (.seal { q with home := h.core, hchip := h.chip, key := h.key q.ctx })
    else go { q with key := h.key q.ctx }

/-- SEAL at one home (R250). -/
def State.sealAt (s : State) (q : SealQ) : State := s.sealHere q .sealAtHome fun q =>
  match s.pages.get? q.key with
  | none => s.answerSeal q (.refused .permission 0)
  | some p =>
    if !p.wr || p.st = .retired then s.answerSeal q (.refused .permission 0)
    else if s.frameShared q.key p then s.answerSeal q (.refused .permission 0)
    else match p.st with
      | .unmapped => (s.holdAt q.key ⟨.sealAtHome, .seal q⟩).answerSeal q (.heldAt q.key)
      | .unsealing | .rehoming => s.holdAt q.key ⟨.sealAtHome, .seal q⟩
      | _ => (s.modPage q.key fun p => { p with s := true, st := if p.st = .mapped then .sealed else p.st }).answerSeal q .ack

/-- SEAL_AT_HOME (R250). -/
def execSealAtHome (s : State) : Host.Outcome State Fault Refusal :=
  .next (match s.ev with
    | .seal q => s.sealAt q
    | _ => s)

/-- The last token of an UNSEALING page has come back (R251): the page is MAPPED, the waiting UNSEALs are answered and what waited goes on. -/
def State.drained (s : State) (key : Nat) : State :=
  match s.pages.get? key with
  | none => s
  | some p =>
    if p.st = .unsealing ∧ p.tokens = 0 then
      let es := (s.heldP.get? key).getD []
      let waits (e : Ev) : Bool := match e.a with
        | .seal _ => true
        | _ => false
      let s := { s with heldP := s.heldP.set key (es.filter fun e => !waits e) }.modPage key fun p => { p with s := false, st := .mapped }
      (es.filter waits).foldl (fun s e => match e.i, e.a with
        | .unsealAtHome, .seal q => s.answerSeal q .ack
        | _, _ => s.post e.i e.a) s
    else s

/-- The recall of a page sent to every L1 and L2 slice of the home's die (R253). -/
def State.sendRecall (s : State) (key : Nat) : State :=
  let home := coreOfKey key
  let d := dieOf home
  let s := (List.range 96).foldl (fun s i => s.send home s.chip (d * 96 + i) .recall (.n2 key (d * 96 + i))) s
  (List.range 24).foldl (fun s i => s.send home s.chip (d * 96 + 4 * i) .recall (.n2 key (1000 + d * 24 + i))) s

/-- UNSEAL at one home (R251). -/
def State.unsealAt (s : State) (q : SealQ) : State := s.sealHere q .unsealAtHome fun q =>
  match s.pages.get? q.key with
  | none => s.answerSeal q (.refused .permission 0)
  | some p =>
    if !p.wr || p.st = .retired then s.answerSeal q (.refused .permission 0)
    else match p.st with
      | .unmapped => (s.holdAt q.key ⟨.unsealAtHome, .seal q⟩).answerSeal q (.heldAt q.key)
      | .unsealing => s.holdAt q.key ⟨.unsealAtHome, .seal q⟩
      | .moving | .rehoming => if p.s then s.holdAt q.key ⟨.unsealAtHome, .seal q⟩ else s.answerSeal q .ack
      | .sealed => (((s.modPage q.key fun p => { p with st := .unsealing }).holdAt q.key ⟨.unsealAtHome, .seal q⟩).sendRecall q.key).drained
          q.key
      | _ => s.answerSeal q .ack

/-- UNSEAL_AT_HOME (R251). -/
def execUnsealAtHome (s : State) : Host.Outcome State Fault Refusal :=
  .next (match s.ev with
    | .seal q => s.unsealAt q
    | _ => s)

/-- RECALL (R253): a holder drops the page's lines at once and returns their tokens. -/
def execRecall (s : State) : Host.Outcome State Fault Refusal :=
  .next (match s.ev with
    | .n2 key holder => s.dropReps fun r h => r.holder == holder && h.key == key && h.chip == s.chip
    | _ => s)

/-- Tokens come back to a home (R253). -/
def State.returnTokens (s : State) (key n : Nat) : State := (s.modPage key fun p => { p with tokens := p.tokens - n }).drained key

/-- TOKEN_RETURN (R253). -/
def execTokenReturn (s : State) : Host.Outcome State Fault Refusal :=
  .next (match s.ev with
    | .n2 key n => s.returnTokens key n
    | _ => s)

/-! ### Line fills (R253) -/

/-- A fill answered to the core that asked. -/
def State.answerFill (s : State) (f : Fill) (o : ROut) (data : Nat) (tok : Bool) (key : Nat) : State :=
  s.send f.home f.chip f.core .readDataResponse (.fillData f o data tok key)

/-- A line fill at its home (R253): the bytes of the line that the home holds, with a token for a cache of the home's own die; without allocation while
the page is UNSEALING or MOVING; from a page that is not sealed the home's current value, or a refusal where the word requires a sealed page. A fill of
code needs the execute right and a page that is present and sealed (R58). -/
def State.fillAt (s : State) (f : Fill) : State :=
  match s.homeOf f.ctx f.lane.ea with
  | none => s.answerFill f (.refused .permission 0) 0 false 0
  | some h =>
    if h.chip ≠ s.chip ∨ h.core ≠ f.home then s.forward f.home h.chip h.core f.ctx .lineFill (.fill { f with home := h.core }) else
    let key := h.key f.ctx
    let unit := if h.glog = 6 then 64 else 128
    match s.verdict key (!f.code) false with
    | .refuse c => s.answerFill f (.refused c 0) 0 false key
    | .rehoming => s.holdAt key ⟨.lineFill, .fill f⟩
    | .absent p =>
      if f.code && !p.ex then s.answerFill f (.refused .permission 0) 0 false key
      else if f.lane.agent then s.answerFill f (.refused .notPresent 0) 0 false key
      else (s.holdAt key ⟨.lineFill, .fill f⟩).answerFill f (.heldAt key) 0 false key
    | .ok p =>
      let k := s.byteKey key p (h.pofs / unit * unit)
      if f.code && !p.ex then s.answerFill f (.refused .permission 0) 0 false key
      else if s.poisoned k unit then s.answerFill f (.refused .uncorrectable 0) 0 false key
      else if p.s then
        let data := memRdN s.mem k unit * 2 ^ (8 * (f.lane.ea / unit * unit % 128))
        let o : ROut := .data (loadVal f.sx f.lane.size (data / 2 ^ (8 * (f.lane.ea % 128)) % 2 ^ (8 * f.lane.size))) 0
        if p.st ≠ .sealed then s.answerFill { f with holder := none } o data false key
        else if f.holder.isSome && f.chip == s.chip && dieOf f.core == dieOf h.core then
          (s.modPage key fun p => { p with tokens := p.tokens + 1 }).answerFill f o data true key
        else s.answerFill f o data false key
      else if f.strict then s.answerFill f (.refused .permission (if f.code then 4 else 0)) 0 false key
      else s.answerFill f (.unsealed (loadVal f.sx f.lane.size (memRdN s.mem (s.byteKey key p h.pofs) f.lane.size))) 0 false key

/-- LINE_FILL (R253). -/
def execLineFill (s : State) : Host.Outcome State Fault Refusal :=
  .next (match s.ev with
    | .fill f => s.fillAt f
    | _ => s)

/-- The token of a fill that is not allocated goes back (R253). -/
def State.giveBack (s : State) (f : Fill) (tok : Bool) (key : Nat) : State :=
  if tok then s.send f.core s.chip (coreOfKey key) .tokenReturn (.n2 key 1) else s

/-- What a waiting thread gets from a fill's answer: its own word, or the refusal. -/
def gotOf (k : Nat) (o : ROut) (data : Nat) : Option Got :=
  match o with
  | .data _ _ => some (.word (data / 2 ^ (8 * (k / 2 % 128)) % 2 ^ (if k % 2 = 0 then 32 else 64)))
  | .refused c i => some (.fault c i)
  | _ => none

/-- Whether a thread waits for a word in the half line that a fill brings. -/
def Thr.waitsLine (t : Thr) (f : Fill) : Option Nat :=
  match t.st, t.wait with
  | .blocked, .line k => if t.ctx = f.ctx ∧ k % 2 = b2n (!f.code) ∧ k / 2 / 64 = f.lane.ea / 64 then some k else none
  | _, _ => none

/-- A thread that waited for a word of code or a launch constant has it and tries its chain again. -/
def State.lineCame (s : State) (tk k : Nat) (g : Got) : State := (s.modT tk fun t => { t with got := t.got ++ [(k, g)] }).wake tk

/-- The threads of a core, in its banks and in the context's save area, that waited for a line (R171, R366). -/
def State.lineWake (s : State) (f : Fill) (o : ROut) (data : Nat) : State :=
  let s := s.thr.foldl (fun s x => if coreOfTk x.1 ≠ f.core then s else
    match x.2.waitsLine f with
    | some k => (match gotOf k o data with | some g => s.lineCame x.1 k g | none => s)
    | none => s) s
  match s.saves.get? (f.core * 64 + f.ctx) with
  | some a =>
    let new := a.thr.filterMap fun x => (x.2.waitsLine f).bind fun k => (gotOf k o data).map fun g => LogE.line x.1 k g
    if new = [] then s else { s with saves := s.saves.set (f.core * 64 + f.ctx) { a with log := a.log ++ new } }
  | none => s

/-- A fill's data at the core that asked (R190, R253): allocated in the cache that asked, except where the page was recalled, or the die has dropped its
replicas of other homes, while the data travelled; an unsealed page clears the mark in the permission cache. -/
def State.fillArrived (s : State) (f : Fill) (o : ROut) (data : Nat) (tok : Bool) (key hchip : Nat) : State :=
  let recalled := match s.pages.get? key with
    | some p => p.st != .sealed
    | none => true
  match o with
  | .data _ _ =>
    let s := match f.holder with
      | none => s.giveBack f tok key
      | some hd =>
        if (tok && recalled) || (!tok && s.epoch (dieOf f.core) != f.epoch) then s.giveBack f tok key
        else
          let glog6 := match s.homeAt f.core f.ctx f.lane.ea with
            | some h => h.glog == 6
            | none => false
          let half : RHalf := { key := key, chip := hchip, token := tok }
          let low := decide (f.lane.ea % 128 < 64)
          s.addRep { ctx := f.ctx, line := f.lane.ea / 128, holder := hd, way := 0, data := data
                     lo := if low || !glog6 then some half else none
                     hi := if glog6 then (if low then none else some half) else some { half with token := false } }
    if f.strict && f.lane.agent then s.lineWake f o data else s
  | .refused _ _ => if f.strict && f.lane.agent then s.lineWake f o data else s
  | .unsealed _ => match s.homeAt f.core f.ctx f.lane.ea with
    | some h => s.unmark f.core f.ctx h.chip (h.key f.ctx)
    | none => s
  | _ => s

/-! ### Permission probes (R184, R240, R241) -/

/-- The rights of a page as a probe finds them at its home (R240). -/
def State.probeEntry (s : State) (p : Probe) : PermE :=
  let none_ : PermE := { ctx := p.ctx, chip := p.chip, key := tagOfKey p.key, rd := false, wr := false, ex := false, ord := 0, s := false }
  match s.entryOf p.key with
  | some e => if e.st = .retired then none_ else { none_ with rd := e.rd, wr := e.wr, ex := e.ex, ord := e.ord, s := e.s }
  | none => none_

/-- PERMISSION_PROBE (R240). -/
def execPermissionProbe (s : State) : Host.Outcome State Fault Refusal :=
  .next (match s.ev with
    | .probe p => s.send p.home p.schip p.src .permissionProbeReply (.probeReply p (s.probeEntry p))
    | _ => s)

/-- A permission cache with an entry filled (R240): 512 entries; which one leaves a full cache the spec does not say. -/
def State.fillPerm (s : State) (core : Nat) (e : PermE) : State :=
  let l := (s.core core).perm.filter fun x => !(x.ctx == e.ctx && x.chip == e.chip && x.key == e.key)
  if l.length < 512 then s.modCore core fun c => { c with perm := l ++ [e] }
  else { s with tick := s.tick + 1 }.modCore core fun c => { c with perm := l.eraseIdx (Config.choice s.tick % l.length) ++ [e] }

/-- A thread that waited for an entry tries its chain again with it. -/
def State.probed (s : State) (tk mark : Nat) : State := (s.modT tk fun t => { t with fresh := some mark }).wake tk

/-- Whether a thread waits for the reply to a probe: any that missed the entry, and the one of the slot whose entry refused it (R184, R241). -/
def Thr.waitsProbe (t : Thr) (p : Probe) (mine : Bool) : Bool :=
  t.st == .blocked && t.ctx == p.ctx && (t.wait == .probe p.chip p.key false || (mine && t.wait == .probe p.chip p.key true))

/-- PERMISSION_PROBE_REPLY (R184, R241): the entry is filled, and every lane of the core that waits for it becomes READY; one in the save area when its
context returns (R366). -/
def execPermissionProbeReply (s : State) : Host.Outcome State Fault Refusal :=
  .next (match s.ev with
    | .probeReply p e =>
      let s := s.fillPerm p.src e
      let mark := freshKey p.chip p.key
      let s := (s.thr.filter fun x => coreOfTk x.1 == p.src && x.2.waitsProbe p (x.1 == p.tk)).foldl (fun s x => s.probed x.1 mark) s
      match s.saves.get? (p.src * 64 + p.ctx) with
      | some a =>
        let new := (a.thr.filter fun x => x.2.waitsProbe p (x.1 == slotOfTk p.tk)).map fun x => LogE.probed x.1 x.2.wait mark
        if new = [] then s else { s with saves := s.saves.set (p.src * 64 + p.ctx) { a with log := a.log ++ new } }
      | none => s
    | _ => s)

/-! ### The deferred directory's messages (R244, R245, R378) -/

/-- SIDE_LOG_REGISTRATION (R244). -/
def execSideLogRegistration (s : State) : Host.Outcome State Fault Refusal :=
  .next (match s.ev with
    | .dirMsg ctx m => s.dirTake ctx m
    | _ => s)

/-- A LOGPEND notice applied when it is newer than the last one (R245). -/
def State.logpendTo (s : State) (core ctx seq : Nat) (b : Bool) : State :=
  let old := ((s.core core).logpend.find? (·.1 == ctx)).map (·.2.1)
  if old.getD 0 < seq then s.modCore core fun c => { c with logpend := (ctx, seq, b) :: c.logpend.filter (·.1 != ctx) } else s

/-- LOGPEND_SET (R244): applied and acknowledged. -/
def execLogpendSet (s : State) : Host.Outcome State Fault Refusal :=
  .next (match s.ev with
    | .logpend core ctx seq chip home => (s.logpendTo core ctx seq true).send core chip home .ackResponse (.dirAck ctx)
    | _ => s)

/-- LOGPEND_CLEAR (R245). -/
def execLogpendClear (s : State) : Host.Outcome State Fault Refusal :=
  .next (match s.ev with
    | .logpend core ctx seq _ _ => s.logpendTo core ctx seq false
    | _ => s)

/-- A core acknowledges a set (R244). -/
def State.dirAcked (s : State) (ctx : Nat) : State :=
  let d := s.dir ctx
  ((s.setDir ctx { d with round := d.round - 1 }).dirConfirm ctx).dirNotice ctx

/-- DIRECTORY_QUERY (R245). -/
def execDirectoryQuery (s : State) : Host.Outcome State Fault Refusal :=
  .next (match s.ev with
    | .dirQ ctx q =>
      let d := s.dir ctx
      ((s.setDir ctx { d with waiting := d.waiting ++ [q] }).answerQueries ctx).dirNotice ctx
    | _ => s)

/-- The trap of a deferred record (R378). -/
def deferredTrap (pc : BitVec 56) (r : DRec) : TrapInfo :=
  { cause := .deferredStore, pc := pc, addr := W r.addr, info := W (r.pcw * 2 ^ 36 + r.info * 2 ^ 8 + r.cause.num), word := 0 }

/-- A directory's reply (R245, R378): a record is delivered; without one TRAPF goes on with the flags, and EXIT
retires; a thread that TRET retires discards its records (R385). -/
def State.dirReplied (s : State) (tk : Nat) (r : Option DRec) : State :=
  match (s.T tk).wait, r with
  | .dirTrapf pc, some x => (s.modT tk fun t => { t with ptrap := t.ptrap.filter (·.cause != .arith) }).takeTrap tk (deferredTrap pc x)
  | .dirTrapf _, none => s.wake tk
  | .exitDir pc, some x => if (s.T tk).dying then s.dirQuery tk true else s.takeTrap tk (deferredTrap pc x)
  | .exitDir _, none => s.post .exitDrainComplete (.thread tk)
  | _, _ => s

/-- DIRECTORY_QUERY_REPLY (R245). -/
def execDirectoryQueryReply (s : State) : Host.Outcome State Fault Refusal :=
  .next (match s.ev with
    | .dirReply tk r => s.dirReplied tk r
    | _ => s)

end Sys2Proof.Machine
end

