-- ==== Sys2Proof/Machine/Queue.lean ====
section
/-! DEFINITION. Queues (12 R281-R286), packets and kernel descriptors (R287-R289, 14 R315, R316, 15 R332), the task graph (R290, R291) and
completion rings (R292, R293). -/

namespace Sys2Proof.Machine
open Sys2Proof

/-! ### Completion records (R292, R293) -/

/-- The cause with a number. -/
def Cause.ofNum (n : Nat) : Cause :=
  ([.software, .illegalInstr, .illegalChain, .lookaheadViolation, .illegalConvergence, .predOverflow, .predUnderflow, .misaligned, .permission,
    .notPresent, .deferredStore, .sealedWrite, .crewOnly, .roamOnly, .uniformWrite, .windowDeparted, .messageOverflow, .arith, .uncorrectable,
    .privileged, .trapStackOverflow] : List Cause).getD n .software

/-- The lap bit of a cursor (R293, R381). -/
def lapBit (log2n c : Nat) : Nat := 1 - c / 2 ^ log2n % 2

/-- A record on its way to its ring. -/
def State.putRecord (s : State) (r : CRec) : State := { s with crecs := s.crecs ++ [r] }.post .completionRecordWrite (.crec r)

/-- A record that cannot be written to its ring goes to the fault queue (R293, R382). -/
def State.recordToFq (s : State) (r : CRec) (kind : Nat) : State :=
  s.post .faultRecordWrite (.frec r.ctx
    { kind := kind, cause := Cause.ofNum (fld r.w0 58 54), core := r.core, slot := 0x1ff, kern := r.kern, tkind := r.tkind, ring := r.ring
      number := r.num, lmask := 0, addr := W r.w2, pc := 0, info := W r.w3, page := 0, aux0 := W r.w0, aux1 := W r.w1 })

/-- The reader of a distributor (R382). -/
def distReader (die kern info : Nat) : Reader := { core := 0x1f8 + die, code := 4, kern := kern, tkind := 0, number := 0, info := info }

/-- The STATE field of a queue's descriptor written: the byte that holds it is otherwise reserved (R281, R283). -/
def State.putQState (s : State) (ctx desc st : Nat) : State := s.wrA (distCore 0) ctx (desc + 31) 1 (st * 2 ^ 5)

/-- A queue. -/
def State.queue (s : State) (ctx qid : Nat) : Option Queue := s.queues.get? (ctx * 64 + qid)
/-- A queue replaced. -/
def State.setQueue (s : State) (ctx qid : Nat) (q : Queue) : State := { s with queues := s.queues.set (ctx * 64 + qid) q }

/-- Whether a hook belongs to a queue. -/
def hookOf (ctx qid : Nat) (h : Hook) : Bool :=
  h.ctx == ctx && (match h.ev.i, h.ev.a with
    | .packetConsume, .n3 _ q _ => q == qid
    | _, _ => false)

/-- A DRAINING queue whose nodes have completed and whose records are written is DESTROYED (R283). -/
def State.drainTest (s : State) (ctx qid : Nat) : State :=
  match s.queue ctx qid with
  | none => s
  | some q =>
    if q.st = .draining ∧ (s.nodes.any fun n => n.ctx == ctx && n.qid == qid && n.st != .complete) = false
        ∧ (s.crecs.any fun r => r.ctx == ctx && fld r.w0 53 48 == qid && r.tkind == 0) = false then
      { s with queues := s.queues.del (ctx * 64 + qid), hooks := s.hooks.filter fun h => !hookOf ctx qid h }.putQState ctx q.desc 5
    else s

/-- The oldest record of a ring that is not written: records of one ring are written one after another. -/
def State.firstRec (s : State) (ctx ring : Nat) : Option CRec := s.crecs.find? fun r => r.ctx == ctx && r.ring == ring

/-- A record leaves the list of those not written, and the ring's next one follows. -/
def State.recordDone (s : State) (r : CRec) : State :=
  let s := ({ s with crecs := s.crecs.erase r }).drainTest r.ctx (fld r.w0 53 48)
  match s.firstRec r.ctx r.ring with
  | some x => s.post .completionRecordWrite (.crec x)
  | none => s

/-- A record goes on to its next stage. -/
def State.setRec (s : State) (r x : CRec) : State := { s with crecs := s.crecs.map fun y => if y = r then x else y }

/-- The reader of a record's fault (R382). -/
def CRec.reader (r : CRec) : Reader := { core := r.core, code := 4, kern := r.kern, tkind := r.tkind, number := r.num, info := 0 }

/-- Where the record of a cursor lies (R293). -/
def recPlace (hd c : Nat) : Nat := hd / 32 * 32 + 32 * (c % 2 ^ (hd % 32))

/-- The last word of a record's write (R293): WCUR + 1, once word 0 has been performed. -/
def State.recordCursor (s : State) (r : CRec) (caddr : Nat) : State :=
  (s.wrA (distCore 0) r.ctx caddr 8 ((r.cur + 1) % 2 ^ 64)).recordDone r

/-- Word 0 of a record (R293): a release, so words 1 to 3 have been performed, and in the host tier a read of them has come back (R230, R197). -/
def State.recordHead (s : State) (r : CRec) (hd caddr : Nat) : State :=
  let at_ := recPlace hd r.cur
  let host := match homeIn (s.ctx r.ctx).ptab at_ with
    | some h => h.tier == 2
    | none => false
  match (if host then s.rdA r.ctx 0 false (at_ + 24) 8 else .ok 0) with
  | .error e => s.agentErr (distCore 0) r.ctx r.reader ⟨.completionRecordWrite, .crec r⟩ (fun _ _ => (s.recordToFq r 4).recordDone r) e
  | .ok _ =>
    let x := { r with stage := 2 }
    ((s.setRec r x).wrA (distCore 0) r.ctx at_ 8 (lapBit (hd % 32) r.cur * 2 ^ 63 + r.w0 % 2 ^ 63)).thenDo s.ids (some r.reader)
      ⟨.completionRecordWrite, .crec x⟩ fun s => s.recordCursor x caddr

/-- Words 1 to 3 of a record at the ring's cursor (R293). -/
def State.recordBody (s : State) (r : CRec) (hd caddr wcur : Nat) : State :=
  let x := { r with stage := 1, cur := wcur }
  ((s.setRec r x).wrWords (distCore 0) r.ctx (recPlace hd wcur + 8) [r.w1, r.w2, r.w3]).thenDo s.ids (some r.reader)
    ⟨.completionRecordWrite, .crec x⟩ fun s => s.recordHead x hd caddr

/-- What stands before a record's write: the cursors, and whether its place can be written. -/
def State.recordPlace (s : State) (ctx hd caddr : Nat) : Except AErr (Nat × Nat) := do
  let wcur ← s.rdA ctx 0 false caddr 8
  let rcur ← s.rdA ctx 0 false (caddr + 8) 8
  let _ ← s.wrChk ctx 0 (recPlace hd wcur)
  let _ ← s.wrChk ctx 0 caddr
  .ok (wcur, rcur)

/-- COMPLETION_RECORD_WRITE (R293): a full ring holds the record until RCUR is written. -/
def execCompletionRecordWrite (s : State) : Host.Outcome State Fault Refusal :=
  .next (match s.ev with
    | .crec r0 =>
      let r := { r0 with toFq := false }
      if s.ctxGone r.ctx then { s with crecs := s.crecs.erase r } else
      match s.rings.get? (r.ctx * 64 + r.ring), r0.toFq with
      | some (hd, caddr), false =>
        if s.firstRec r.ctx r.ring ≠ some r then s
        else if r.stage = 1 then s.recordHead r hd caddr
        else if r.stage = 2 then s.recordCursor r caddr
        else match s.recordPlace r.ctx hd caddr with
        | .ok (wcur, rcur) =>
          if (wcur + 2 ^ 64 - rcur) % 2 ^ 64 < 2 ^ (hd % 32) then s.recordBody r hd caddr wcur
          else s.watchWord r.ctx (caddr + 8) ⟨.completionRecordWrite, .crec r⟩
        | .error e => s.agentErr (distCore 0) r.ctx r.reader ⟨.completionRecordWrite, .crec r⟩ (fun _ _ => (s.recordToFq r 4).recordDone r) e
      | _, _ => (s.recordToFq r 4).recordDone r
    | _ => s)

/-- Whether a ring's handle and cursor block keep R292. -/
def State.ringOk (s : State) (ctx hd caddr : Nat) : Bool :=
  decide (hd < 2 ^ 56) && decide (2 ≤ hd % 32 ∧ hd % 32 ≤ 20) && decide (caddr < 2 ^ 56 ∧ caddr % 32 = 0)
    && s.writable ctx caddr && covered (s.ctx ctx).ptab 64 caddr 32

/-- A ring registered, its cursors written. -/
def State.ringSet (s : State) (ctx n hd caddr : Nat) : State := { s with rings := s.rings.set (ctx * 64 + n) (hd, caddr) }.answerHost .ok 0

/-- RING_REGISTER (R292); the cursors of a block on another chip have been acknowledged (0) or refused (1) when the event comes again. -/
def execRingRegister (s : State) : Host.Outcome State Fault Refusal :=
  .next (match s.ev with
    | .n4 ctx n hd caddr =>
      if (s.ctx ctx).st = .free then s.answerHost .noContext 0
      else if 64 ≤ n || !s.ringOk ctx hd caddr then s.answerHost .badRing 0
      else
        match s.wrChk ctx 0 caddr with
        | .error e => s.nyendErr ctx ⟨.ringRegister, s.ev⟩ (fun _ _ => s.answerHost .badRing 0) e
        | .ok _ => (s.wrWords Config.mgmtCore ctx caddr [0, 0]).thenDo s.ids none ⟨.ringRegister, .n6 ctx n hd caddr 0 0⟩ fun s => s.ringSet ctx n hd caddr
    | .n6 ctx n hd caddr bad _ => if bad = 0 then s.ringSet ctx n hd caddr else s.answerHost .badRing 0
    | _ => s)

/-! ### Packets (R287-R289) -/

/-- A packet: its header fields, its five words, and its footprint block. -/
structure Pkt where
  typ : Nat
  unchk : Bool
  after : Bool
  tag : Nat
  cr : Bool
  ring : Nat
  w : List Nat
  fp : Nat
  deriving DecidableEq, Repr

/-- Word n of a packet, 1 to 5. -/
def Pkt.word (p : Pkt) (n : Nat) : Nat := p.w.getD (n - 1) 0

/-- The packet in eight words. -/
def pktOf (ws : List Nat) : Pkt :=
  let w0 := ws.getD 0 0
  let w6 := ws.getD 6 0
  { typ := fld w0 62 60, unchk := bit w0 59, after := bit w0 58, tag := fld w0 47 32, cr := bit w6 63, ring := fld w6 5 0
    w := (ws.drop 1).take 5, fp := ws.getD 7 0 }

/-- Whether an address is not one of R4 or not a multiple of n. -/
def badAddr (a n : Nat) : Bool := decide (2 ^ 56 ≤ a) || decide (a % n ≠ 0)

/-- Whether the words of a packet break R287 (R289). -/
def pktBad (ws : List Nat) : Bool :=
  let w (n : Nat) : Nat := ws.getD n 0
  let typ := fld (w 0) 62 60
  decide (6 ≤ typ) || fld (w 0) 57 48 != 0 || fld (w 0) 31 0 != 0 || fld (w 6) 62 6 != 0 || badAddr (w 7) 64
    || (if typ = 0 ∨ typ = 5 then w 1 != 0 || w 2 != 0 || w 3 != 0 || w 4 != 0 || w 5 != 0
        else if typ = 1 then badAddr (w 1) 64 || badAddr (w 4) 8
        else badAddr (w 1) 64 || w 2 != 0 || w 3 != 0 || w 4 != 0 || w 5 != 0)

/-- Whether a footprint entry breaks R288. -/
def footBad (w0 w1 : Nat) : Bool := fld w0 61 56 != 0 || (fld w0 63 62 != 0 && w1 == 0)

/-- The used entries of a footprint block: mode, base, length. -/
def footOf : List Nat → List (Nat × Nat × Nat)
  | w0 :: w1 :: r => if fld w0 63 62 = 0 then footOf r else (fld w0 63 62, fld w0 55 0, w1) :: footOf r
  | _ => []

/-- Whether some entry of a footprint block breaks R288. -/
def footsBad : List Nat → Bool
  | w0 :: w1 :: r => footBad w0 w1 || footsBad r
  | _ => false

/-- The whole virtual space as read-write (R288). -/
def wholeSpace : List (Nat × Nat × Nat) := [(3, 0, 2 ^ 56)]

/-! ### Kernel descriptors (R315, R316) -/

/-- Whether the four words of a binding break R315, for a share of `spad` bytes. -/
def bindBad (spad : Nat) (ws : List Nat) : Bool :=
  let w0 := ws.getD 0 0
  fld w0 60 40 != 0 || decide (2 ^ 56 ≤ ws.getD 1 0) || ws.getD 3 0 != 0
    || (bit w0 63 && (fld w0 39 20 % 256 != 0 || fld w0 19 0 % 256 != 0 || decide (spad < fld w0 39 20 + fld w0 19 0)))

/-- A binding that is present. -/
def bindOf (ws : List Nat) : List KBind :=
  let w0 := ws.getD 0 0
  if bit w0 63 then [{ fill := bit w0 62, wb := bit w0 61, blen := fld w0 39 20, spoff := fld w0 19 0, va := ws.getD 1 0, stride := ws.getD 2 0 }]
  else []

/-- Whether the words of a kernel descriptor break R315. -/
def kdBad (ws : List Nat) : Bool :=
  let w (n : Nat) : Nat := ws.getD n 0
  let spad := fld (w 2) 51 32
  badAddr (w 0) 192 || fld (w 1) 61 58 != 0 || decide (16 < fld (w 1) 57 53) || decide (160 < fld (w 1) 52 45) || fld (w 1) 44 8 != 0
    || fld (w 2) 63 52 != 0 || spad % 8 != 0 || decide (524288 < spad) || fld (w 2) 31 13 != 0 || fld (w 2) 12 0 % 8 != 0
    || decide (4096 < fld (w 2) 12 0) || fld (w 3) 63 32 != 0 || decide (2 ^ 56 ≤ w 4) || fld (w 5) 62 56 != 0
    || fld (w 7) 63 11 != 0 || fld (w 7) 10 8 == 0 || fld (w 7) 10 8 == 7 || bit (w 7) 7
    || bindBad spad ((ws.drop 8).take 4) || bindBad spad ((ws.drop 12).take 4) || footsBad ((ws.drop 16).take 8)
    || (ws.drop 25).any (· != 0)

/-- The group indices that a descriptor names (R315). -/
def kdGroups (ws : List Nat) : List Nat :=
  (((List.range 8).filter fun b => bit (ws.getD 1 0) b).map fun b => ws.getD 24 0 / 2 ^ (8 * b) % 256).eraseDups

/-- Whether a LAUNCH breaks R316 with its descriptor's words. -/
def launchBad (p : Pkt) (ws : List Nat) : Bool :=
  let w (n : Nat) : Nat := ws.getD n 0
  let trapv := w 4
  let gx := fld (p.word 2) 31 0
  let gy := fld (p.word 2) 63 32
  let gz := fld (p.word 3) 31 0
  (trapv != 0 && (trapv % 4 != 0 || decide (trapv < fld (w 0) 55 0) || decide (fld (w 0) 55 0 + 2 ^ 30 ≤ trapv)))
    || (if bit (w 1) 63 then
          fld (w 2) 51 32 != 0 || fld (w 2) 12 0 != 0 || fld (w 1) 57 53 != 0 || bit (w 5) 63 || bit (w 8) 63 || bit (w 12) 63
            || p.word 2 == 0 || decide (2 ^ 32 ≤ p.word 2) || badAddr (p.word 3) 8 || fld (w 1) 7 0 != 0
        else gx == 0 || gy == 0 || gz == 0 || decide (2 ^ 27 < gx * gy * gz) || fld (p.word 3) 63 32 != 0 || fld (w 3) 31 0 != 0)

/-- The kernel that a LAUNCH and its descriptor's words give (R315, R287). -/
def kdOf (p : Pkt) (ws : List Nat) (mems : List (Nat × Nat × Nat × Nat)) : KDesc :=
  let w (n : Nat) : Nat := ws.getD n 0
  let roam := bit (w 1) 63
  { code := fld (w 0) 55 0, roam := roam, fuse := bit (w 1) 62, acct := fld (w 1) 57 53, nscal := fld (w 1) 52 45, spad := fld (w 2) 51 32
    priv := fld (w 2) 12 0, carry := BitVec.ofNat 32 (w 3), trapv := BitVec.ofNat 56 (w 4)
    anchor := if bit (w 5) 63 then some (fld (w 5) 55 0) else none, astep := w 6, round := BitVec.ofNat 3 (fld (w 7) 10 8)
    trapen := BitVec.ofNat 7 (w 7), binds := bindOf ((ws.drop 8).take 4) ++ bindOf ((ws.drop 12).take 4), foot := footOf ((ws.drop 16).take 8)
    groups := kdGroups ws, mems := mems, gx := if roam then 0 else fld (p.word 2) 31 0, gy := if roam then 0 else fld (p.word 2) 63 32
    gz := if roam then 0 else fld (p.word 3) 31 0, n := if roam then p.word 2 else 0, seeds := if roam then p.word 3 else 0
    lconst := p.word 4, seed := W (p.word 5) }

/-- How many units a kernel has. -/
def KDesc.total (k : KDesc) : Nat := if k.roam then k.n else k.gx * k.gy * k.gz

/-- The check that code begins in a sealed page with the execute right (R315). -/
def State.codeChk (s : State) (ctx fail a : Nat) : Except AErr Unit :=
  match s.homeOf ctx a with
  | none => .error (.bad .permission a)
  | some h =>
    if h.chip ≠ s.chip then
      match (s.asked s.ev ctx a 4).bind (·.res) with
      | some (.data _ _) => .ok ()
      | some (.refused c _) => .error (.bad c a)
      | _ => .error (.away a 4 2)
    else
    match s.pages.get? (h.key ctx) with
    | none => .error (.bad .permission a)
    | some p =>
      if !p.ex || p.st = .retired then .error (.bad .permission a)
      else if p.st = .unmapped then .error (if failKey fail (h.key ctx) then .bad .notPresent a else .wait (h.key ctx) a)
      else if !p.s then .error (.bad .permission a) else .ok ()

/-- The member lists of the named groups (R330, R332): group, member, chip, crew index. -/
def State.readMembers (s : State) (ctx fail : Nat) : List Nat → Except AErr (List (Nat × Nat × Nat × Nat))
  | [] => .ok []
  | g :: r => match s.groups.get? (ctx * 256 + g) with
    | none => .error (.bad .permission 0)
    | some e =>
      if !e.v then .error (.bad .permission 0) else
      match s.rdWords ctx fail true e.mlist e.nmem with
      | .error x => .error x
      | .ok ws => match s.readMembers ctx fail r with
        | .error x => .error x
        | .ok t => .ok ((ws.mapIdx fun m w => (g, m, fld w 63 48, fld w 31 0)) ++ t)

/-- Whether a group is a gang. -/
def State.isGang (s : State) (ctx g : Nat) : Bool := ((s.groups.get? (ctx * 256 + g)).map (·.gang)).getD false

/-- Whether memberships break R332 for a kernel of `total` crews on this chip. -/
def State.membersBad (s : State) (ctx total : Nat) (ms : List (Nat × Nat × Nat × Nat)) : Bool :=
  let here := ms.filter fun m => m.2.2.1 == s.chip
  let gang := here.filter fun m => s.isGang ctx m.1
  (here.any fun m => decide (4 < here.countP fun x => x.2.2.2 == m.2.2.2))
    || (gang.any fun m => decide (1 < gang.countP fun x => x.2.2.2 == m.2.2.2) || decide (total ≤ m.2.2.2))

/-- A LAUNCH's descriptor read and checked (R289, R315, R316, R332). -/
def State.readKd (s : State) (ctx fail : Nat) (p : Pkt) : Except AErr KDesc := do
  let ws ← s.rdWords ctx fail true (p.word 1) 32
  let no : AErr := .bad .illegalInstr (p.word 1)
  if kdBad ws || launchBad p ws then .error no
  else
    let _ ← s.codeChk ctx fail (fld (ws.getD 0 0) 55 0)
    let _ ← s.rdWords ctx fail true (p.word 4) (fld (ws.getD 1 0) 52 45)
    let ms ← s.readMembers ctx fail (kdGroups ws)
    let k := kdOf p ws ms
    if s.membersBad ctx k.total ms then .error no else .ok k

/-- A packet's footprint (R288). -/
def State.readFoot (s : State) (ctx fail : Nat) (p : Pkt) (kd : Option KDesc) : Except AErr (List (Nat × Nat × Nat)) :=
  if p.fp = 0 then .ok (match kd with
    | some k => if k.foot = [] then wholeSpace else k.foot
    | none => wholeSpace)
  else match s.rdWords ctx fail false p.fp 8 with
    | .error e => .error e
    | .ok ws => if footsBad ws then .error (.bad .illegalInstr p.fp) else .ok (footOf ws)

/-- What the distributor takes from a slot (R286). -/
inductive Taken where
  | empty
  | bad (p : Option Pkt)
  | err (e : AErr)
  | took (p : Pkt) (kd : Option KDesc) (foot : List (Nat × Nat × Nat))
  deriving DecidableEq, Repr

/-- An agent's error as what was taken. -/
def takenErr (p : Option Pkt) : AErr → Taken
  | .bad _ _ => .bad p
  | e => .err e

/-- The packet at a slot (R286, R289). -/
def State.takePkt (s : State) (ctx fail slot : Nat) : Taken :=
  match s.rdA ctx fail false slot 8 with
  | .error e => takenErr none e
  | .ok w0 =>
    if !bit w0 63 then .empty else
    match s.rdWords ctx fail false slot 8 with
    | .error e => takenErr none e
    | .ok ws =>
      let p := pktOf ws
      if pktBad ws then .bad (some p) else
      let kd : Except AErr (Option KDesc) := if p.typ = 1 then (s.readKd ctx fail p).map some else .ok none
      match kd with
      | .error e => takenErr (some p) e
      | .ok kd => match s.readFoot ctx fail p kd with
        | .error e => takenErr (some p) e
        | .ok f => .took p kd f

/-! ### Nodes (R290, R291) -/

/-- Whether two regions intersect with a writer among them (R290). -/
def regionsMeet (a b : List (Nat × Nat × Nat)) : Bool :=
  a.any fun x => b.any fun y => decide (x.2.1 < y.2.1 + y.2.2 ∧ y.2.1 < x.2.1 + x.2.2) && (decide (2 ≤ x.1) || decide (2 ≤ y.1))

/-- Whether a node depends on an earlier node of its queue (R290). -/
def Node.dependsOn (b a : Node) : Bool :=
  b.after || b.typ == 5 || (!a.unchk && !b.unchk && regionsMeet a.foot b.foot)

/-- A node whose dependences have completed enters the ready pool (R290). -/
def State.nodeReady (s : State) (ctx qid idx : Nat) : State :=
  match s.nodes.find? fun n => n.ctx == ctx && n.qid == qid && n.idx == idx with
  | none => s
  | some n =>
    if n.st ≠ .waiting ∨ n.deps ≠ [] then s else
    let s := s.modNode ctx qid idx fun n => { n with st := .ready, readyAt := s.tick }
    s.post (if n.typ = 0 ∨ n.typ = 5 then .nodeComplete else if n.typ = 1 then .distributionStart else .engineJobAccept) (.n3 ctx qid idx)

/-- The queue's nodes that are not complete. -/
def State.openNodes (s : State) (ctx qid : Nat) : List Node := s.nodes.filter fun n => n.ctx == ctx && n.qid == qid && n.st != .complete

/-- The lowest free kernel index of a queue's block (R318). -/
def State.freeKern (s : State) (ctx qid : Nat) : Option Nat :=
  ((List.range 64).map (qid * 64 + ·)).find? fun k => !(s.nodes.any fun n => n.ctx == ctx && n.typ == 1 && n.kern == k)

/-- Whether the distributor takes another packet of a queue (R283, R286, R324). -/
def State.mayConsume (s : State) (ctx qid : Nat) (q : Queue) : Bool :=
  q.st == .active && (s.ctx ctx).st == .live && !s.dev.stopped && q.ridx != q.widx && decide ((q.widx + 2 ^ 64 - q.ridx) % 2 ^ 64 < 2 ^ 63)
    && decide ((s.openNodes ctx qid).length < 64) && (s.freeKern ctx qid).isSome

/-- The distributor looks at a queue. -/
def State.kickQueue (s : State) (ctx qid : Nat) : State :=
  match s.queue ctx qid with
  | some q => if s.mayConsume ctx qid q && !q.watching && !q.held then s.post .packetConsume (.n3 ctx qid 0) else s
  | none => s

/-- Every queue of a context looked at. -/
def State.kickQueues (s : State) (ctx : Nat) : State :=
  s.queues.foldl (fun s q => if q.1 / 64 = ctx then s.kickQueue ctx (q.1 % 64) else s) s

/-- The completion record of a node (R293). -/
def nodeRecord (n : Node) : CRec :=
  let f := match n.fault with
    | some f => if n.status = 1 then (f.cause, f.addr.toNat, f.info.toNat) else (0, 0, f.info.toNat)
    | none => (0, 0, 0)
  { ctx := n.ctx, ring := n.ring, w0 := n.status * 2 ^ 59 + f.1 * 2 ^ 54 + n.qid * 2 ^ 48 + n.tag * 2 ^ 32 + n.idx % 2 ^ 32, w1 := n.count
    w2 := f.2.1, w3 := f.2.2, core := 0x1f8 + n.die, kern := n.kern, tkind := 0, num := 0, toFq := false, stage := 0, cur := 0 }

/-- A node is complete (R291): its record leaves, its dependents lose a dependence. -/
def State.finishNode (s : State) (n : Node) : State :=
  let s := s.modNode n.ctx n.qid n.idx fun m => { m with st := .complete }
  let s := if n.cr then s.putRecord (nodeRecord n) else s
  let s : State := { s with nodes := s.nodes.map fun m =>
    if m.ctx = n.ctx ∧ m.qid = n.qid then { m with deps := m.deps.filter (· != n.idx) } else m }
  let s := (s.openNodes n.ctx n.qid).foldl (fun s m => s.nodeReady n.ctx n.qid m.idx) s
  s

/-- Kernels that are READY look again whether their group entries are free (R331). -/
def State.kickReady (s : State) (ctx : Nat) : State :=
  (s.nodes.filter fun n => n.ctx == ctx && n.typ == 1 && n.st == .ready).foldl
    (fun s n => s.post .distributionStart (.n3 ctx n.qid n.idx)) s

/-- A node that was never distributed leaves the table. -/
def State.dropNode (s : State) (ctx qid idx : Nat) : State :=
  { s with nodes := s.nodes.filter fun n => !(n.ctx == ctx && n.qid == qid && n.idx == idx) }

/-- NODE_COMPLETE (R291, R328). -/
def execNodeComplete (s : State) : Host.Outcome State Fault Refusal :=
  .next (match s.ev with
    | .n3 ctx qid idx =>
      match s.nodes.find? fun n => n.ctx == ctx && n.qid == qid && n.idx == idx with
      | none => s
      | some n =>
        if n.st = .complete ∨ (n.typ = 1 ∧ (n.st ≠ .running ∨ n.units ≠ 0)) then s else
        let n := if n.typ = 1 then { n with count := n.created, status := if n.fault.isSome then 1 else 0 } else n
        let s := s.finishNode n
        let s := if n.typ = 1 then (s.post .kernelEntryClear (.n3 ctx qid idx)).kickReady ctx else s.dropNode ctx qid idx
        (s.kickQueue ctx qid).drainTest ctx qid
    | _ => s)

/-- A packet becomes a node (R290, R318). -/
def State.addNode (s : State) (ctx qid : Nat) (q : Queue) (p : Pkt) (kd : Option KDesc) (foot : List (Nat × Nat × Nat)) : State :=
  let n : Node := { ctx := ctx, qid := qid, idx := q.ridx, typ := p.typ, unchk := p.unchk, after := p.after, tag := p.tag, cr := p.cr
                    ring := p.ring, jdesc := p.word 1, foot := foot, deps := [], st := .waiting, die := q.die
                    kern := if p.typ = 1 then (s.freeKern ctx qid).getD 0 else 0, kd := kd, shares := [], gangIdx := [], refused := []
                    steals := [], acks := 0, created := 0, units := 0, count := 0, failed := [], fault := none, status := 0, readyAt := 0 }
  let n := { n with deps := ((s.openNodes ctx qid).filter fun a => n.dependsOn a).map (·.idx) }
  ({ s with nodes := s.nodes ++ [n] }).nodeReady ctx qid q.ridx

/-- RIDX advances past a slot whose word 0 is cleared (R286). -/
def State.advance (s : State) (ctx qid : Nat) : State :=
  match s.queue ctx qid with
  | none => s
  | some q =>
    let i := (q.ridx + 1) % 2 ^ 64
    ((s.wrA (distCore q.die) ctx (q.desc + 8) 8 i).setQueue ctx qid { q with ridx := i, held := false }).kickQueue ctx qid

/-- A malformed packet whose slot is cleared (R289): the queue is in ERROR, and a record with status MALFORMED leaves. -/
def State.malformed (s : State) (ctx qid ring tag : Nat) : State :=
  match s.queue ctx qid with
  | none => s
  | some q =>
    let s := ((s.wrA (distCore q.die) ctx (q.desc + 32) 8 q.ridx).putQState ctx q.desc 3).setQueue ctx qid { q with st := .error, held := false }
    s.putRecord { ctx := ctx, ring := ring, w0 := 2 * 2 ^ 59 + qid * 2 ^ 48 + tag * 2 ^ 32 + q.ridx % 2 ^ 32, w1 := 0, w2 := 0, w3 := 0
                  core := 0x1f8 + q.die, kern := 0, tkind := 0, num := 0, toFq := false, stage := 0, cur := 0 }

/-- Word 0 of a slot cleared (R286, R289); what follows waits for the acknowledgement. -/
def State.clearSlot (s : State) (ctx qid slot : Nat) (q : Queue) (e : Arg) (go : State → State) : State :=
  ((s.setQueue ctx qid { q with held := true }).wrA (distCore q.die) ctx slot 8 0).thenDo s.ids (some (distReader q.die 0 q.ridx)) ⟨.packetConsume, e⟩ go

/-- The acquire of a job's start (R230): of a kernel's, for its units on every die (R327). -/
def State.startAcquire (s : State) (typ die : Nat) : State :=
  if typ = 1 then (List.range 4).foldl (fun s d => s.dropAway d) s else s.dropAway die

/-- PACKET_CONSUME (R286): word 0 is read as an acquire (R197, R230); a slot on another chip is cleared before RIDX or STATE is stored. -/
def execPacketConsume (s : State) : Host.Outcome State Fault Refusal :=
  .next (match s.ev with
    | .n3 ctx qid fail =>
      match s.queue ctx qid with
      | none => s
      | some q0 =>
        let q := { q0 with watching := false, held := false }
        let s := s.setQueue ctx qid q
        if s.mayConsume ctx qid q then
          let slot := q.ring + 64 * (q.ridx % 2 ^ q.log2n)
          match s.takePkt ctx fail slot with
          | .empty => (s.setQueue ctx qid { q with watching := true }).watchWord ctx slot ⟨.packetConsume, .n3 ctx qid 0⟩
          | .err e => (s.setQueue ctx qid { q with held := true }).agentErr (distCore q.die) ctx (distReader q.die 0 q.ridx) ⟨.packetConsume, s.ev⟩
              (fun _ _ => s) e
          | .bad p =>
            let ring := (p.map (·.ring)).getD 0
            let tag := (p.map (·.tag)).getD 0
            s.clearSlot ctx qid slot q (.n6 ctx qid 1 ring tag 0) fun s => s.malformed ctx qid ring tag
          | .took p kd foot =>
            ((s.startAcquire p.typ q.die).addNode ctx qid q p kd foot).clearSlot ctx qid slot q (.n6 ctx qid 0 0 0 0) fun s => s.advance ctx qid
        else s
    | .n6 ctx qid bad ring tag _ => if bad = 0 then s.advance ctx qid else s.malformed ctx qid ring tag
    | _ => s)

/-- QUEUE_NOTICE (R285): the distributor acts on the largest value it has received. -/
def execQueueNotice (s : State) : Host.Outcome State Fault Refusal :=
  .next (match s.ev with
    | .n3 ctx qid v =>
      match s.queue ctx qid with
      | some q => (if (v + 2 ^ 64 - q.widx) % 2 ^ 64 < 2 ^ 63 then s.setQueue ctx qid { q with widx := v } else s).kickQueue ctx qid
      | none => s
    | _ => s)

/-! ### Requests on queues (R282, R283) -/

/-- Whether a queue descriptor breaks R281. -/
def qdescBad (ws : List Nat) : Bool :=
  let w2 := ws.getD 2 0
  let w3 := ws.getD 3 0
  badAddr w2 64 || fld w3 60 18 != 0 || fld w3 9 5 != 0 || decide (fld w3 4 0 < 4) || decide (20 < fld w3 4 0)
    || ws.getD 5 0 != 0 || ws.getD 6 0 != 0 || ws.getD 7 0 != 0

/-- The index words that a home watches (R282). -/
def State.watchedWidx (s : State) (ctx desc : Nat) : Nat :=
  match homeIn (s.ctx ctx).ptab desc with
  | none => 0
  | some h => s.queues.countP fun q => match homeIn (s.ctx (q.1 / 64)).ptab q.2.desc with
    | some x => x.chip == h.chip && x.core == h.core
    | none => false

/-- The first page of a range on this chip that is not mapped. -/
def State.firstAbsent (s : State) (ctx a n : Nat) : Option Nat :=
  (s.pagesOf (s.ctx ctx).ptab ctx a n).findSome? fun p => if p.1.chip = s.chip then (match s.pages.get? (p.1.key ctx) with
    | some e => if e.st = .unmapped ∨ e.st = .rehoming then some (p.1.key ctx) else none
    | none => none) else none

/-- The answer to a request that another chip's Nyend (`back` its number plus 1) or this chip's host driver made. -/
def State.answerTo (s : State) (back st v : Nat) : State :=
  if back = 0 then s.replyHost st v else s.send Config.mgmtCore (back - 1) Config.mgmtCore .queueCreate (.n4 0 st v 0)

/-- A queue created from its descriptor's words (R282). -/
def State.createQueue (s : State) (back ctx desc : Nat) (ws : List Nat) : State :=
  match (List.range 64).find? fun n => (s.queue ctx n).isNone with
  | none => s.answerTo back Status.badQueue.num 0
  | some qid =>
    let w3 := ws.getD 3 0
    let ring := fld (ws.getD 2 0) 55 0
    let log2n := fld w3 4 0
    let q : Queue := { desc := desc, st := .active, ring := ring, die := fld w3 17 16, log2n := log2n, widx := 0, ridx := 0, watching := false
                       held := false }
    let s := s.setQueue ctx qid q
    let id0 := s.ids
    let s := s.wrWords Config.mgmtCore ctx desc [0, 0, ws.getD 2 0, 2 ^ 61 + fld w3 17 16 * 2 ^ 16 + qid * 2 ^ 10 + log2n, 0]
    let s := (List.range (2 ^ log2n)).foldl (fun s i => s.wrA Config.mgmtCore ctx (ring + 64 * i) 8 0) s
    s.thenDo id0 none ⟨.queueCreate, .n4 back 0 qid 0⟩ fun s => s.answerTo back 0 qid

/-- A request to create a queue, taken on the chip of its WIDX's home (R282, R285); a page that is not present holds it. -/
def State.createReq (s : State) (back ctx desc : Nat) : State :=
  let no := s.answerTo back Status.badQueue.num 0
  if (s.ctx ctx).st = .free then s.answerTo back Status.noContext.num 0
  else if badAddr desc 64 || !s.writable ctx desc then no
  else match homeIn (s.ctx ctx).ptab desc with
    | none => no
    | some h =>
      if h.chip ≠ s.chip then s.send Config.mgmtCore h.chip Config.mgmtCore .queueCreate (.n3 ctx desc (s.chip + 1)) else
      match s.rdWords ctx 0 false desc 8 with
      | .error e => s.nyendErr ctx ⟨.queueCreate, s.ev⟩ (fun _ _ => no) e
      | .ok ws =>
        let ring := fld (ws.getD 2 0) 55 0
        let size := 64 * 2 ^ fld (ws.getD 3 0) 4 0
        if qdescBad ws || !covered (s.ctx ctx).ptab 64 ring size || decide (64 ≤ s.watchedWidx ctx desc) then no
        else match s.firstAbsent ctx ring size with
          | some key => s.holdAt key ⟨.queueCreate, s.ev⟩
          | none => s.createQueue back ctx desc ws

/-- QUEUE_CREATE (R282): the host driver's request, another chip's, or its answer. -/
def execQueueCreate (s : State) : Host.Outcome State Fault Refusal :=
  .next (match s.ev with
    | .n2 ctx desc => s.createReq 0 ctx desc
    | .n3 ctx desc back => s.createReq back ctx desc
    | .n4 back st v _ => s.answerTo back st v
    | _ => s)

/-- A request on a queue that exists. -/
def State.queueReq (s : State) (k : Nat → Nat → Queue → State) : State :=
  match s.ev with
  | .n2 ctx qid =>
    if (s.ctx ctx).st = .free then s.answerHost .noContext 0
    else match s.queue ctx qid with
      | some q => k ctx qid q
      | none => s.answerHost .badQueue 0
  | _ => s

/-- A queue's state changed, in its record and its descriptor. -/
def State.moveQueue (s : State) (ctx qid : Nat) (q : Queue) (st : QuSt) (n : Nat) : State :=
  (s.setQueue ctx qid { q with st := st }).putQState ctx q.desc n

/-- QUEUE_PAUSE (R283). -/
def execQueuePause (s : State) : Host.Outcome State Fault Refusal :=
  .next (s.queueReq fun ctx qid q =>
    if q.st = .active then (s.moveQueue ctx qid q .paused 2).answerHost .ok 0 else s.answerHost .badState 0)

/-- QUEUE_RESUME (R283). -/
def execQueueResume (s : State) : Host.Outcome State Fault Refusal :=
  .next (s.queueReq fun ctx qid q =>
    if q.st = .paused then ((s.moveQueue ctx qid q .active 1).kickQueue ctx qid).answerHost .ok 0 else s.answerHost .badState 0)

/-- QUEUE_RESET (R283). -/
def execQueueReset (s : State) : Host.Outcome State Fault Refusal :=
  .next (s.queueReq fun ctx qid q =>
    if q.st = .error then
      let i := (q.ridx + 1) % 2 ^ 64
      let s := s.wrA Config.mgmtCore ctx (q.desc + 8) 8 i
      ((s.moveQueue ctx qid { q with ridx := i } .active 1).kickQueue ctx qid).answerHost .ok 0
    else s.answerHost .badState 0)

/-- A node cancelled by a destroy request (R283, R293, R317). -/
def State.cancelNode (s : State) (n : Node) : State :=
  let s := if n.cr then s.putRecord (nodeRecord { n with status := 3, fault := none }) else s
  s.dropNode n.ctx n.qid n.idx

/-- QUEUE_DESTROY (R283): the nodes that still wait are cancelled. -/
def execQueueDestroy (s : State) : Host.Outcome State Fault Refusal :=
  .next (s.queueReq fun ctx qid q =>
    if q.st = .active ∨ q.st = .paused ∨ q.st = .error then
      let s := s.moveQueue ctx qid q .draining 4
      let waits := (s.openNodes ctx qid).filter fun n => n.st == .waiting || (n.st == .ready && n.typ == 1)
      let s := waits.foldl (fun s n => s.cancelNode n) s
      let s : State := { s with nodes := s.nodes.map fun m =>
        if m.ctx = ctx ∧ m.qid = qid then { m with deps := [] } else m }
      (s.drainTest ctx qid).answerHost .ok 0
    else s.answerHost .badState 0)

end Sys2Proof.Machine
end

