-- ==== Sys2Proof/Machine/Post.lean ====
section
/-! DEFINITION. POST (12 R294), and the consumers of completion rings, CPOLL and CWAIT (R295, R296). -/

namespace Sys2Proof.Machine
open Sys2Proof

/-! ### Words that execute once for their chain -/

/-- The checks of R183 on the lowest issuing lane of a word that executes once; where its page must be probed, all lanes wait for that probe. -/
def State.lowCheck (s : State) (ea : Word) (size : Nat) (n : Need) (k : HomeLoc → PermE → State) : State :=
  match s.check s.lowLane ea size n (fun _ => true) with
  | .fault c => s.failAll c ea 0
  | .probe p => s.eachLane fun s l => s.drop l (.probe { p with tk := l.tk })
  | .ok h e => k h e

/-- A lock on g[G] in every issuing lane until the word's answer (R56). -/
def State.lockG (s : State) (id g la : Nat) : State := s.lockLanes id g (gbit g) la fun _ => true

/-- The answer of a word that executes once: g[G] of its lanes, and their locks go. -/
def State.giveG (s : State) (id : Nat) (lanes : List Nat) (v : Option Word) : State :=
  lanes.foldl (fun s tk => s.deliver tk id v 0) s

/-! ### POST (R294) -/

/-- The eight words of a block. -/
def State.blockOf (s : State) (sb n : Nat) : List Nat := (List.range n).map fun i => (s.sreg (sb + i)).toNat

/-- POST: the claim leaves as an access of the lowest issuing lane. -/
def State.postWord (s : State) (f : XlgF) (a : Word) (ws : List Nat) : State :=
  s.lowCheck a 64 ⟨true, true, false⟩ fun h e =>
    if 6 ≤ fld (ws.getD 0 0) 62 60 then s.failAll .illegalInstr 0 0x100
    else
      let tk := s.lowLane.tk
      let id := s.ids
      let j : PostJ := { id := id, tk := tk, ctx := s.iss.ctx, lanes := s.iss.lanes.map (·.tk), qd := a.toNat, words := ws, claim := 0, need := [] }
      let s := s.fresh.lockG id f.g.toNat f.l.toNat
      let s : State := { s with posts := s.posts ++ [j] }
      let o := s.ids
      let s := s.newOut { wait := [tk], chip := h.chip, core := h.core, src := s.iss.core, ev := ⟨.atomicRequest, .n6 s.chip tk s.iss.ctx a.toNat id 0⟩ }
      s.startAcc tk { id := id, kind := .atom, line := some (a.toNat / 128), pkind := e.ord, acq := false, rel := false, scope := 0, held := []
                      out := o, pc := s.iss.pc, d := f.g.toNat, ea := a.toNat, heldAt := none, recd := false }

/-- POST (R294). -/
def execPost (f : XlgF) (s : State) : Host.Outcome State Fault Refusal :=
  word (.post f) s fun s =>
    let a := (s.rT s.lowLane.tk).gr f.g.toNat
    if a.toNat % 64 ≠ 0 then s.failAll .misaligned a 0 else s.postWord f a (s.blockOf f.s.toNat 8)

/-- A POST ends: its result reaches its lanes. -/
def State.postDone (s : State) (j : PostJ) (v : Nat) : State :=
  ({ s with posts := s.posts.filter (·.id != j.id) }).giveG j.id j.lanes (some (W v))

/-- A POST whose access was refused (R377): a late fault of its lane; the other lanes' locks go. -/
def State.postFails (s : State) (j : PostJ) (c : Cause) : State :=
  let s : State := { s with posts := s.posts.filter (·.id != j.id) }
  (s.lateFault j.tk j.id c 0).giveG j.id (j.lanes.filter (· != j.tk)) none

/-- An access of a POST that is not performed: at a page not present the lane is held (R186, R377). -/
def State.postErr (s : State) (j : PostJ) (ev : Arg) : AErr → State
  | .bad c _ => s.postFails j c
  | .wait key _ => (s.holdAt key ⟨.postPublish, ev⟩).answer j.tk j.id (.heldAt key)
  | .busy => s.post .postPublish ev
  | .away ea n mode => s.askAway (coreOfTk j.tk) none ⟨.postPublish, ev⟩ j.ctx ea n mode

/-- A POST record changed. -/
def State.modPost (s : State) (id : Nat) (f : PostJ → PostJ) : State := { s with posts := s.posts.map fun x => if x.id = id then f x else x }

/-- The claim has its index (R294): the access it was is over, and the lane's accesses that R194 held behind it leave; the POST's stores remain outstanding. -/
def State.postClaimed (s : State) (j : PostJ) (v : Nat) : State :=
  match (s.T j.tk).pend.find? (·.id == j.id) with
  | none => s
  | some a =>
    let s := ((s.complete j.tk j.id).modPost j.id fun x => { x with claim := v }).modT j.tk fun t =>
      { t with pend := t.pend ++ [{ a with line := none, pkind := 1, held := [], heldAt := none }] }
    s.post .postPublish (.n3 j.id 2 0)

/-- The fields of a queue's descriptor that a POST reads: RIDX, RING, LOG2N. -/
def State.postRead (s : State) (j : PostJ) : Except AErr (Nat × Nat × Nat) := do
  let ws ← s.rdWords j.ctx 0 false (j.qd + 8) 3
  let ring := fld (ws.getD 1 0) 55 0
  let n := fld (ws.getD 2 0) 4 0
  let _ ← s.wrChk j.ctx 0 (ring + 64 * (j.claim % 2 ^ n))
  .ok (ws.headD 0, ring, n)

/-- The header of a posted packet once the release conditions hold (R294): it is awaited like any store. -/
def State.postHead (s : State) (j : PostJ) (ev : Arg) (slot : Nat) : State :=
  if s.needDone j.need then
    (s.wrA (coreOfTk j.tk) j.ctx slot 8 (2 ^ 63 + j.words.headD 0 % 2 ^ 63)).thenDo s.ids none ⟨.postPublish, .n3 j.id 4 0⟩ fun s => s.postDone j j.claim
  else s.post .postPublish ev

/-- The claimed slot once it has room (R294): words 1 to 7, then what a release waits for: the lane's accesses from before the POST, its crew's write-back,
and for a host-tier ring the flushing reads (R197). -/
def State.postFill (s : State) (j : PostJ) (ev : Arg) : State :=
  match s.postRead j with
  | .error e => s.postErr j ev e
  | .ok (r, ring, n) =>
    if (j.claim + 2 ^ 64 - r) % 2 ^ 64 < 2 ^ n then
      let slot := ring + 64 * (j.claim % 2 ^ n)
      let id0 := s.ids
      let s := (s.wrWords (coreOfTk j.tk) j.ctx (slot + 8) (j.words.drop 1)).writeBack j.tk
      let s := match homeIn (s.ctx j.ctx).ptab slot with
        | some h => if h.tier = 2 then (s.modT j.tk fun t => { t with posted := (t.posted ++ [homeNum h.chip h.core]).eraseDups }).flushReads j.tk else s
        | none => s
      let need := (s.needOf [j.tk]).filter fun x => decide (x.2 < j.id ∨ id0 ≤ x.2)
      (s.modPost j.id fun x => { x with need := need }).thenDo id0 none ⟨.postPublish, .n3 j.id 3 slot⟩ fun s => s.post .postPublish (.n3 j.id 3 slot)
    else s.watchWord j.ctx (j.qd + 8) ⟨.postPublish, .n3 j.id 2 0⟩

/-- POST_PUBLISH (R294): 1 the claim's answer, 2 room in the slot, 3 the header after the release conditions, 4 the header acknowledged, 9 an access refused. -/
def execPostPublish (s : State) : Host.Outcome State Fault Refusal :=
  .next (match s.ev with
    | .n3 id stage v =>
      match s.posts.find? (·.id == id) with
      | none => s
      | some j =>
        match stage with
        | 1 => if v = 2 ^ 64 - 1 then s.postDone j v else s.postClaimed j v
        | 2 => s.postFill j s.ev
        | 3 => s.postHead j s.ev v
        | 4 => s.postDone j j.claim
        | _ => s.postFails j (Cause.ofNum v)
    | _ => s)

/-! ### CPOLL and CWAIT (R295, R296) -/

/-- The address of the record for a cursor (R293). -/
def recordAt (hd c : Nat) : Nat := fld hd 55 5 * 32 + 32 * (c % 2 ^ (hd % 32))

/-- One read of a record's word 0 by a lane: a remote read or a local access (R296), which carries the number of its word. -/
def State.pollRead (s : State) (tk id : Nat) (w : CWait) (pc : BitVec 56) : State :=
  let t := s.T tk
  let core := coreOfTk tk
  let ea := recordAt w.handle.toNat (w.cur.toNat % 2 ^ 63)
  match s.homeAt core t.ctx ea with
  | none => s
  | some h =>
    let l : MLane := { tk := tk, id := id, tid := t.tid, pcw := (pc.toNat - s.codeBase t) / 4 % 2 ^ 28, ea := ea, size := 8, data := 0, cmp := 0, mode := 0 }
    let r : MemReq := { op := .load false, ctx := t.ctx, home := h.core, chip := s.chip, core := core, lanes := [l], sum := 0, fl := 0 }
    let s := s.modT tk fun t => { t with cq := some { w with id := id } }
    let o := s.ids
    let s := s.newOut { wait := [tk], chip := h.chip, core := h.core, src := core, ev := ⟨.remoteRead, .req r⟩ }
    let ord := match s.permEntry core t.ctx h.chip (h.key t.ctx) with
      | some e => e.ord
      | none => 0
    s.startAcc tk { id := id, kind := .load, line := some (ea / 128), pkind := ord, acq := false, rel := false, scope := 0, held := []
                    out := o, pc := pc, d := w.g, ea := ea, heldAt := none, recd := false }

/-- One lane of CPOLL or CWAIT (R295). -/
def State.pollLane (s : State) (f : XgF) (wait : Bool) (id : Nat) (l : LaneRef) : State :=
  let hd := s.code f.s l.tk
  let lim := if wait then s.code (f.s + 1) l.tk else 0
  let c := (s.rT l.tk).gr f.g.toNat
  let ea := W (recordAt hd.toNat (c.toNat % 2 ^ 63))
  if bits hd 63 56 ≠ 0 then s.fail l .permission hd 0
  else if hd.toNat % 32 < 2 ∨ 20 < hd.toNat % 32 then s.fail l .illegalInstr 0 0x100
  else if bits lim 63 32 ≠ 0 then s.fail l .illegalInstr 0 0x101
  else match s.check l ea 8 ⟨true, false, false⟩ (fun _ => true) with
    | .fault x => s.fail l x ea 0
    | .probe p => s.drop l (.probe p)
    | .ok _ _ =>
      let w : CWait := { wait := wait, g := f.g.toNat, handle := hd, cur := c, limit := 1024 * lim.toNat, start := none, id := 0 }
      (s.block l.tk .cwait).pollRead l.tk id w s.iss.pc

/-- CPOLL (R295, R296). -/
def execCpoll (f : XgF) (s : State) : Host.Outcome State Fault Refusal := word (.cpoll f) s fun s => s.fresh.eachLane fun s' l => s'.pollLane f false s.ids l
/-- CWAIT (R295, R296). -/
def execCwait (f : XgF) (s : State) : Host.Outcome State Fault Refusal := word (.cwait f) s fun s => s.fresh.eachLane fun s' l => s'.pollLane f true s.ids l

/-- A watch set on the record's word (R218): it wakes the lane when the word differs from the value read. -/
def State.pollWatch (s : State) (tk : Nat) (w : CWait) (pc : BitVec 56) (v : Word) : State :=
  let t := s.T tk
  let core := coreOfTk tk
  let ea := recordAt w.handle.toNat (w.cur.toNat % 2 ^ 63)
  match s.homeAt core t.ctx ea with
  | none => s
  | some h =>
    let id := s.ids
    let l : MLane := { tk := tk, id := id, tid := t.tid, pcw := 0, ea := ea, size := 8, data := v.toNat, cmp := 0, mode := 0 }
    let r : MemReq := { op := .watch, ctx := t.ctx, home := h.core, chip := s.chip, core := core, lanes := [l], sum := 0, fl := 0 }
    let start := w.start.getD (s.clockOf core)
    let s := s.fresh.modT tk fun t => { t with cq := some { w with id := id, start := some start } }
    let o := s.ids
    let s := s.newOut { wait := [tk], chip := h.chip, core := h.core, src := core, ev := ⟨.watchRequest, .req r⟩ }
    s.startAcc tk { id := id, kind := .watch, line := none, pkind := 3, acq := false, rel := false, scope := 0, held := [], out := o, pc := pc
                    d := w.g, ea := ea, heldAt := none, recd := false }

/-- A record's word reaches the lane that polls it (R296): present, it is written and acquired; absent, CPOLL keeps c and CWAIT watches. -/
def State.pollAnswer (s : State) (tk : Nat) (w : CWait) (v : Word) : State :=
  let hd := w.handle.toNat
  let pc := ((s.T tk).pend.find? (·.id == w.id)).map (·.pc) |>.getD (s.T tk).pc
  let s := (s.complete tk w.id).heldRecords tk w.id
  if b2n (bit v.toNat 63) = lapBit (hd % 32) (w.cur.toNat % 2 ^ 63) then
    let s := s.modT tk fun t => { t.setG w.g (W (2 ^ 63 + v.toNat % 2 ^ 63)) with cq := none }
    (s.dropAway (dieOf (coreOfTk tk))).wake tk
  else if w.wait then s.pollWatch tk w pc v
  else (s.modT tk fun t => { t with cq := none }).wake tk

/-- A woken watch: the lane reads again (R296). -/
def State.pollAgain (s : State) (tk : Nat) (w : CWait) : State :=
  let pc := ((s.T tk).pend.find? (·.id == w.id)).map (·.pc) |>.getD (s.T tk).pc
  (s.fresh.complete tk w.id).pollRead tk s.ids w pc

/-- CWAIT_TIMEOUT (R296): the time limit has run out; g[G] keeps the cursor. -/
def State.pollTimeout (s : State) (tk : Nat) : State :=
  let t := s.T tk
  match t.cq with
  | some w => match w.start with
    | some x =>
      if t.st = .blocked ∧ t.wait = .cwait ∧ w.limit ≠ 0 ∧ x + w.limit ≤ s.clockOf (coreOfTk tk) then
        ((s.complete tk w.id).modT tk fun t => { t with cq := none }).wake tk
      else s
    | none => s
  | none => s

/-- CWAIT_TIMEOUT (R296). -/
def execCwaitTimeout (s : State) : Host.Outcome State Fault Refusal :=
  .next (match s.ev with
    | .thread tk => s.pollTimeout tk
    | _ => s)

end Sys2Proof.Machine
end

