-- ==== Sys2Proof/Machine/Engines.lean ====
section
/-! DEFINITION. Copy and layout engines (13): job descriptors (R298-R303), the walk (R302), faults (R304), dependences (R305), barriers (R306),
multicast (R307), issue (R308-R310), staging grants (R311), streams with QPOP and QFREE (R312-R314). -/

namespace Sys2Proof.Machine
open Sys2Proof

/-! ### Descriptors (R298, R299, R303) -/

/-- Dimension record d of four words (R299). -/
def dimOf (ws : List Nat) : JDim :=
  let w (n : Nat) : Nat := ws.getD n 0
  { mul := sgn 16 (fld (w 0) 63 48), ax := fld (w 0) 35 32, count := fld (w 0) 31 0, extent := fld (w 1) 63 32, start := sgn 32 (fld (w 1) 31 0)
    sstride := sgn 64 (w 2), dstride := sgn 64 (w 3) }

/-- Dimension records of a list of words. -/
def dimsOf : Nat → List Nat → List JDim
  | 0, _ => []
  | n + 1, ws => dimOf (ws.take 4) :: dimsOf n (ws.drop 4)

/-- A job descriptor with the added bases of the block (R298, R308). -/
def descOf (ws : List Nat) (addS addD : Nat) : JDesc :=
  let w (n : Nat) : Nat := ws.getD n 0
  let w2 := w 2
  { srcb := (w 0 + addS) % 2 ^ 56, dstb := (w 1 + addD) % 2 ^ 56, tag := fld w2 47 32, ring := fld w2 21 16, cr := bit w2 15, unchk := bit w2 14
    fill := fld w2 13 12, dspace := fld w2 11 10, sspace := fld w2 9 8, esz := fld w2 6 4, fillv := w 3, bv := bit (w 4) 63
    bar := fld (w 4) 18 0, cmask := w 5 + fld (w 6) 31 0 * 2 ^ 64, grp := fld (w 6) 39 32, nt := fld (w 7) 54 48, tileb := fld (w 7) 18 0
    dims := dimsOf (fld w2 3 0) (ws.drop 8) }

/-- The reserved fields and values of a descriptor's words (R298, R299, R303). -/
def descRaz (ws : List Nat) : Bool :=
  let w (n : Nat) : Nat := ws.getD n 0
  let w2 := w 2
  let n := fld w2 3 0
  decide (2 ^ 56 ≤ w 0) || decide (2 ^ 56 ≤ w 1) || fld w2 63 48 != 0 || fld w2 31 22 != 0 || bit w2 7 || decide (2 ≤ fld w2 13 12)
    || fld w2 11 10 == 3 || fld w2 9 8 == 3 || bit w2 6 || n == 0 || decide (10 ≤ n) || fld (w 4) 62 19 != 0
    || fld (w 6) 63 40 != 0 || fld (w 7) 63 55 != 0 || fld (w 7) 47 19 != 0
    || (List.range n).any fun d =>
      let x := w (8 + 4 * d)
      fld x 47 36 != 0 || fld x 63 48 == 0 || decide (n ≤ fld x 35 32) || fld x 31 0 == 0 || fld (w (9 + 4 * d)) 63 32 == 0

/-- Whether a job's spaces and mappings are permitted (R301). -/
def comboOk (kind : Nat) (crew : Bool) (d : JDesc) : Bool :=
  let plain := (d.dims.mapIdx fun i x => x.ax == i && x.mul == 1).all id
  match kind, crew with
  | 1, true => plain && decide (d.dspace ≤ 1)
  | 1, false => plain && d.sspace != 1 && d.dspace == 0
  | 2, true => decide (d.sspace ≤ 1) && d.dspace == 2
  | 2, false => d.sspace == 0 && d.dspace == 2
  | _, true => plain && d.dspace == 1
  | _, false => plain && d.sspace != 1 && d.dspace == 1

/-- Element size. -/
def JDesc.esize (d : JDesc) : Nat := 2 ^ d.esz
/-- How many elements a walk has. -/
def JDesc.count (d : JDesc) : Nat := d.dims.foldl (fun n x => n * x.count) 1

/-- Lowest and highest offset that counts and strides reach from a base. -/
def reach : List (Nat × Int) → Int × Int
  | [] => (0, 0)
  | (n, s) :: r =>
    let (lo, hi) := reach r
    let x : Int := (n - 1 : Int) * s
    (lo + min 0 x, hi + max 0 x)

/-- The index vectors of a walk, index 0 varying fastest (R302). -/
def vecs : List JDim → List (List Nat)
  | [] => [[]]
  | d :: r => (vecs r).flatMap fun v => (List.range d.count).map fun i => i :: v

/-- Source coordinate a of an index vector (R302). -/
def coordOf (dims : List JDim) (v : List Nat) (a : Nat) : Int :=
  (dims.zip v).foldl (fun x p => if p.1.ax = a then x + p.2 * p.1.mul else x) ((dims[a]?.map (·.start)).getD 0)

/-- The values that source coordinate a takes inside its extent. -/
def coordsIn (dims : List JDim) (a : Nat) : List Int :=
  let feed := dims.filter fun d => d.ax == a
  ((vecs feed).map fun v => (feed.zip v).foldl (fun (x : Int) (p : JDim × Nat) => x + p.2 * p.1.mul) ((dims[a]?.map (·.start)).getD 0)).filter fun x =>
    decide (0 ≤ x ∧ x < ((dims[a]?.map (·.extent)).getD 0 : Nat))

/-- Lowest and highest source offset of the unclipped coordinates; `none` when every element is clipped (R303). -/
def srcReach (dims : List JDim) : List Nat → Option (Int × Int)
  | [] => some (0, 0)
  | a :: r => match srcReach dims r, coordsIn dims a with
    | some (lo, hi), x :: xs =>
      let s := (dims[a]?.map (·.sstride)).getD 0
      some (lo + xs.foldl (fun m y => min m (y * s)) (x * s), hi + xs.foldl (fun m y => max m (y * s)) (x * s))
    | _, _ => none

/-- Whether the bytes from address `lo` to `hi + e - 1` lie in a space (R300, R303): global, a share of `sps` bytes, or a staging grant. -/
def State.spanOk (s : State) (ctx space sps e : Nat) (lo hi : Int) : Bool :=
  match space with
  | 0 => decide (0 ≤ lo ∧ hi + e ≤ 2 ^ 56)
  | 1 => decide (0 ≤ lo ∧ hi + e ≤ sps)
  | _ =>
    let r := (lo / 2 ^ 22).toNat
    decide (0 ≤ lo) && (match s.sgrants.get? (ctx * 16 + r) with
      | some g => decide (r < 16) && decide (hi + e ≤ (r * 2 ^ 22 + g.2.2 * 2 ^ 19 : Nat))
      | none => false)

/-- Destination span of a job: lowest and highest byte address less one element (R303, R312). -/
def JDesc.dstSpan (d : JDesc) (stream : Bool) : Int × Int :=
  if stream then
    let (lo, hi) := reach ((d.dims.dropLast).map fun x => (x.count, x.dstride))
    (lo, hi)
  else
    let (lo, hi) := reach (d.dims.map fun x => (x.count, x.dstride))
    (d.dstb + lo, d.dstb + hi)

/-- Whether a stream breaks R312. -/
def streamBad (d : JDesc) (sps : Nat) : Bool :=
  let (lo, hi) := d.dstSpan true
  d.dspace != 1 || d.bv || d.nt == 0 || decide (64 < d.nt) || d.tileb % 256 != 0 || decide (lo < 0)
    || decide ((d.tileb : Int) < hi + d.esize) || decide (sps < d.dstb + d.nt * d.tileb)

/-- Whether a destination and its barrier word lie in a share (R303, R307). -/
def State.shareOk (s : State) (d : JDesc) (sps : Nat) : Bool :=
  let (lo, hi) := d.dstSpan false
  s.spanOk 0 1 sps d.esize lo hi && (!d.bv || decide (d.bar + 8 ≤ sps))

/-- Whether a descriptor that keeps its reserved fields is malformed (R303); a multicast's receivers are checked when it starts (R307). -/
def State.descBad (s : State) (j : Job) (d : JDesc) : Bool :=
  let e := d.esize
  let (lo, hi) := d.dstSpan false
  let crew := j.crew.isSome
  !comboOk j.kind crew d || d.srcb % e != 0 || d.dstb % e != 0 || (d.dims.any fun x => x.sstride % e != 0 || x.dstride % e != 0)
    || decide (2 ^ 40 < d.count) || (d.bv && d.bar % 8 != 0)
    || (match srcReach d.dims (List.range d.dims.length) with
      | some (a, b) => !s.spanOk j.ctx d.sspace j.sps e (d.srcb + a) (d.srcb + b)
      | none => false)
    || (if j.stream.isSome then streamBad d j.sps
        else if j.kind = 3 then false
        else !s.spanOk j.ctx d.dspace j.sps e lo hi || (d.bv && (!crew || decide (j.sps < d.bar + 8))))

/-- The lowest and the highest destination element of a job; those of a stream lie in the slots that its tiles use (R303, R312). -/
def JDesc.dstReach (d : JDesc) (stream : Bool) : Int × Int :=
  if stream then
    let (lo, hi) := d.dstSpan true
    (d.dstb + lo, d.dstb + hi + (((min d.nt ((d.dims.getLast?.map JDim.count).getD 1) - 1) * d.tileb : Nat) : Int))
  else d.dstSpan false

/-- The footprint derived from a descriptor (R303): space, mode, first byte, length; `shares` are the spaces of its destination, a multicast's one for
each receiver. -/
def jobFoot (d : JDesc) (stream : Bool) (shares : List Nat) : List (Nat × Nat × Nat × Nat) :=
  let e := d.esize
  let (lo, hi) := d.dstReach stream
  (match srcReach d.dims (List.range d.dims.length) with
    | some (a, b) => [(d.sspace, 1, (d.srcb + a).toNat, (b - a).toNat + e)]
    | none => []) ++ shares.map fun x => (x, 2, lo.toNat, (hi - lo).toNat + e)

/-- Whether two jobs' footprints meet with a writer among them (R305). -/
def feetMeet (a b : List (Nat × Nat × Nat × Nat)) : Bool :=
  a.any fun x => b.any fun y => x.1 == y.1 && decide (x.2.2.1 < y.2.2.1 + y.2.2.2 ∧ y.2.2.1 < x.2.2.1 + x.2.2.2)
    && (x.2.1 == 2 || y.2.1 == 2)

/-! ### The walk (R302) -/

/-- One element: its stream tile, destination address, and source address unless it is clipped. -/
structure Elem where
  tile : Nat
  dst : Nat
  src : Option Nat
  deriving DecidableEq, Repr

/-- The element of an index vector (R302, R312). -/
def elemOf (d : JDesc) (stream : Bool) (v : List Nat) : Elem :=
  let n := d.dims.length
  let xs := (List.range n).map fun a => (a, coordOf d.dims v a)
  let clip := xs.any fun x => decide (x.2 < 0 ∨ ((d.dims[x.1]?.map (·.extent)).getD 0 : Nat) ≤ x.2)
  let src : Int := xs.foldl (fun s x => s + x.2 * (d.dims[x.1]?.map (·.sstride)).getD 0) d.srcb
  let inner := if stream then d.dims.dropLast else d.dims
  let off : Int := (inner.zip v).foldl (fun s p => s + p.2 * p.1.dstride) 0
  let t := v.getD (n - 1) 0
  let base : Int := if stream then d.dstb + (t % d.nt) * d.tileb else d.dstb
  { tile := if stream then t else 0, dst := (base + off).toNat, src := if clip then none else some src.toNat }

/-- The elements of a walk in its order. -/
def JDesc.elems (d : JDesc) (stream : Bool) : List Elem := (vecs d.dims).map (elemOf d stream)

/-- The aligned 8-byte granules that a walk writes, each with its tile. -/
def JDesc.granules (d : JDesc) (stream : Bool) : List (Nat × Nat) := ((d.elems stream).map fun e => (e.tile, e.dst / 8)).eraseDups

/-- The physical key of a staging byte (R311). -/
def State.stagingKey (s : State) (ctx a : Nat) : Nat :=
  let g := (s.sgrants.get? (ctx * 16 + a / 2 ^ 22)).getD (0, 0, 0)
  2 ^ 63 + 2 ^ 62 + g.1 * 2 ^ 23 + g.2.1 * 2 ^ 19 + a % 2 ^ 22

/-- The core of the share that a crew's job reads. A crew that is spilled has its key raised by a multiple of 2^20. -/
def Job.shareCore (j : Job) : Nat :=
  match j.crew with
  | some ck => coreOfCk (ck % 2 ^ 20)
  | none => 0

/-- A source element read (R302). -/
def State.readElem (s : State) (j : Job) (space fail a e : Nat) : Except AErr Nat :=
  match space with
  | 0 => s.rdA j.ctx fail false a e
  | 1 => if s.poisoned (spadKey j.shareCore (j.spb + a)) e then .error (.bad .uncorrectable a)
    else .ok (memRdN s.mem (spadKey j.shareCore (j.spb + a)) e)
  | _ => if s.poisoned (s.stagingKey j.ctx a) e then .error (.bad .uncorrectable a) else .ok (memRdN s.mem (s.stagingKey j.ctx a) e)

/-- The bytes of a granule with one element put in. -/
def putElem (data mask dst e v : Nat) : Nat × Nat :=
  let o := dst % 8
  let lo := data % 2 ^ (8 * o)
  let hi := data / 2 ^ (8 * (o + e))
  (lo + v % 2 ^ (8 * e) * 2 ^ (8 * o) + hi * 2 ^ (8 * (o + e)), mask ||| ((2 ^ e - 1) * 2 ^ o))

/-- The elements of a granule read in their order; the later of two that write one byte stands (R302). -/
def State.gather (s : State) (j : Job) (d : JDesc) (fail : Nat) : List Elem → Nat → Nat → Except AErr (Nat × Nat)
  | [], data, mask => .ok (data, mask)
  | x :: r, data, mask =>
    match x.src with
    | none => if d.fill = 0 then
        let (a, m) := putElem data mask x.dst d.esize d.fillv
        s.gather j d fail r a m
      else s.gather j d fail r data mask
    | some a => match s.readElem j d.sspace fail a d.esize with
      | .error e => .error e
      | .ok v =>
        let (a, m) := putElem data mask x.dst d.esize v
        s.gather j d fail r a m

/-- How many bytes of a mask are set. -/
def maskLen (m : Nat) : Nat := (List.range 8).countP fun b => bit m b

/-- The masked bytes of a granule written at a physical key. -/
def State.wrMasked (s : State) (k data mask : Nat) : State :=
  (List.range 8).foldl (fun s b => if bit mask b then s.wrMem (k + b) 1 (data / 2 ^ (8 * b)) else s) (if mask = 255 then s.cleanse k 8 else s)

/-- A granule written in a crew's share (R175, R178, R306): FULL where complete, marked, and counted in the same step. -/
def State.wrShareG (s : State) (ck o data mask cnt : Nat) (bar : Option Nat) : State :=
  let k := spadKey (coreOfCk ck) ((s.C ck).spBase + o)
  let s := if mask = 0 then s else (s.wrMasked k data mask).modC ck (·.mark o)
  let s := if mask = 255 then s.setFull k true else s
  match bar with
  | some b => s.countAt ck b cnt
  | none => s

/-! ### Jobs -/

/-- A job. -/
def State.job (s : State) (id : Nat) : Option Job := s.jobs.find? (·.id == id)
/-- A job changed. -/
def State.modJob (s : State) (id : Nat) (f : Job → Job) : State := { s with jobs := s.jobs.map fun j => if j.id = id then f j else j }

/-- Jobs that wait are tried again, and jobs that have not started. -/
def State.kickJobs (s : State) : State :=
  s.jobs.foldl (fun s j => match j.st with
    | .waiting => s.post .engineJobAccept (.n1 j.id)
    | _ => s) s

/-- The words of a descriptor where it lies (R298): in global memory, or in the crew's share. -/
def State.descWords (s : State) (j : Job) (fail from_ n : Nat) : Except AErr (List Nat) :=
  if bit j.loc 63 then
    let o := fld j.loc 18 0 + 8 * from_
    if j.sps < o + 8 * n then .error (.bad .illegalInstr 0)
    else .ok ((List.range n).map fun i => memRdN s.mem (spadKey j.shareCore (j.spb + o + 8 * i)) 8)
  else s.rdWords j.ctx fail false (j.loc + 8 * from_) n

/-- The engine of a LAYOUT with a descriptor (R297): that of the cluster whose slice holds the destination's staging region. DESIGN CHOICE (log 39): a
destination in no grant leaves it the issuing cluster's, where the job ends MALFORMED. -/
def State.layoutEng (s : State) (j : Job) (d : Option JDesc) : Nat :=
  let dflt := 1000 + (j.eng - 2000)
  match d with
  | none => dflt
  | some d => match s.sgrants.get? (j.ctx * 16 + d.dstb / 2 ^ 22) with
    | some g => if d.dstb < 2 ^ 26 then 1000 + g.1 else dflt
    | none => dflt

/-- The core at which a job's engine stands: for a layout engine core-in-cluster 0 (R382). -/
def Job.core (j : Job) : Nat := if j.eng < 1000 then j.eng else j.eng % 1000 * 4

/-- A job issued by a crew (R308); it waits for the crew's stores and the lowest lane's acquires (R310, R197). A LAYOUT's engine is not known before its
descriptor is read (R297, R310). -/
def State.engineJob (s : State) (kind : Nat) (f : XlgF) (loc addS addD w3 : Nat) : State :=
  let ck := s.ck
  let c := s.C ck
  let id := s.ids
  let stream := if bit w3 63 then some (fld w3 58 56) else none
  let lanes := s.iss.lanes.map (·.tk)
  let waits (x : Nat × Nat) : Bool := (s.T x.1).pend.any fun a => a.id == x.2 && (a.kind == .store || a.kind == .atom || a.kind == .wb
    || (a.acq && x.1 == s.lowLane.tk))
  let need := (s.needOf (s.liveLanes ck)).filter waits
  let j : Job := { id := id, kind := kind, eng := if kind = 2 then 2000 + s.iss.core / 4 else s.iss.core, ctx := c.ctx, crew := some ck, spb := c.spBase, sps := c.spSize
                   kern := c.ktab.toNat, index := c.index.toNat, qid := 0, idx := 0, loc := loc, addS := addS, addD := addD, stream := stream
                   lanes := lanes, need := need, seq := c.eseq.toNat, entry := 0, st := .waiting, desc := none, foot := [], recvs := []
                   chips := [], skipped := 0, begun := [], buf := [], bytes := 0, tile := 0, fault := none, how := 0 }
  let s := (s.fresh.lockG id f.g.toNat f.l.toNat).modC ck fun c =>
    { c with eseq := c.eseq + 1, q := match stream with
      | some q => c.q.set q { QReg.blank with st := .bound, job := id }
      | none => c.q }
  ({ s with jobs := s.jobs ++ [j] }.post .engineJobAccept (.n1 id)).post .engineJobStart (.n2 id 0)

/-- The checks at issue of an ENG word and its job (R308). -/
def State.engWord (s : State) (kind : Nat) (f : XlgF) : State :=
  let w (n : Nat) : Word := s.sreg (f.s.toNat + n)
  let loc := w 0
  let share := loc.getLsbD 63
  let c := s.C s.ck
  let sv := (w 3).getLsbD 63
  let busy := sv && (match c.q[bits (w 3) 58 56]? with
    | some q => q.st != .unbound
    | none => true)
  let rest (s : State) : State :=
    if share && bits loc 62 19 != 0 then s.failAll .illegalInstr 0 0x100
    else if bits (w 3) 62 59 ≠ 0 ∨ bits (w 3) 55 0 ≠ 0 ∨ (sv = true ∧ kind ≠ 1) ∨ busy = true then s.failAll .illegalInstr 0 0x103
    else s.engineJob kind f loc.toNat (w 1).toNat (w 2).toNat (w 3).toNat
  if loc.toNat % 64 ≠ 0 then s.failAll .misaligned loc 0
  else if share then
    if c.spSize < bits loc 18 0 + 64 then s.failAll .permission loc 0 else rest s
  else s.lowCheck loc 64 ⟨true, false, false⟩ fun _ _ => rest s

/-- TCOPY (R308). -/
def execTcopy (f : XlgF) (s : State) : Host.Outcome State Fault Refusal := word (.tcopy f) s fun s => s.engWord 1 f
/-- LAYOUT (R308). -/
def execLayout (f : XlgF) (s : State) : Host.Outcome State Fault Refusal := word (.layout f) s fun s => s.engWord 2 f
/-- MCAST (R308). -/
def execMcast (f : XlgF) (s : State) : Host.Outcome State Fault Refusal := word (.mcast f) s fun s => s.engWord 3 f

/-- A queue's job (R297): COPY and MCAST on the copy engine of a core of the queue's die. -/
def State.queueJob (s : State) (n : Node) : State :=
  let id := s.ids
  let core := n.die * 96 + s.pickOf 96
  let j : Job := { id := id, kind := n.typ - 1, eng := if n.typ = 3 then 2000 + n.die * 24 else core, ctx := n.ctx, crew := none, spb := 0, sps := 0, kern := 0, index := 0, qid := n.qid
                   idx := n.idx, loc := n.jdesc, addS := 0, addD := 0, stream := none, lanes := [], need := [], seq := 0, entry := 0
                   st := .waiting, desc := none, foot := [], recvs := [], chips := [], skipped := 0, begun := [], buf := [], bytes := 0
                   tile := 0, fault := none, how := 0 }
  let s := s.fresh.modNode n.ctx n.qid n.idx fun n => { n with st := .running }
  ({ s with jobs := s.jobs ++ [j], tick := s.tick + 1 }.post .engineJobAccept (.n1 id)).post .engineJobStart (.n2 id 0)

/-- The lowest free entry of an engine's table (R297, R309). -/
def State.freeEntry (s : State) (eng : Nat) : Option Nat :=
  (List.range (if eng < 1000 then 32 else 16)).find? fun e => !(s.jobs.any fun j => j.eng == eng && j.entry == e && j.st != .waiting)

/-- Whether a job's descriptor has been read (R303). -/
def Job.known (j : Job) : Bool := j.desc.isSome || j.fault.isSome

/-- Whether a job may be accepted (R309): in issue order at its engine, and its crew holds fewer than 8 entries. -/
def State.jobMay (s : State) (j : Job) : Bool :=
  let earlier := (s.jobs.takeWhile (·.id != j.id)).any fun x => x.st == .waiting && (x.eng == j.eng || decide (2000 ≤ x.eng ∧ 1000 ≤ j.eng))
  decide (j.eng < 2000) && !earlier && (match j.crew with
    | some ck => decide ((s.jobs.countP fun x => x.crew == some ck && x.st != .waiting) < 8)
    | none => true)

/-- ENGINE_JOB_ACCEPT (R309): a node of a queue becomes a job, or a job takes an entry and writes its ticket. -/
def execEngineJobAccept (s : State) : Host.Outcome State Fault Refusal :=
  .next (match s.ev with
    | .n3 ctx qid idx =>
      match s.nodes.find? fun n => n.ctx == ctx && n.qid == qid && n.idx == idx && n.st == .ready with
      | some n => s.queueJob n
      | none => s
    | .n1 id =>
      match s.job id with
      | some j => match s.freeEntry j.eng with
        | some e =>
          if j.st = .waiting ∧ s.jobMay j = true then
            let s := s.modJob id fun j => { j with st := .accepted, entry := e }
            let s := s.giveG id j.lanes (some (W (j.seq * 2 ^ 8 + e)))
            (if j.known then s.post .engineJobStart (.n2 id 0) else s).kickJobs
          else s
        | none => s
      | none => s
    | _ => s)

/-! ### Start (R303, R305, R307, R310) -/

/-- The reader of an engine (R382). -/
def Job.reader (j : Job) : Reader :=
  match j.crew with
  | some _ => { core := j.shareCore, code := 3, kern := j.kern, tkind := 2, number := j.index * 32, info := j.seq }
  | none => { core := j.core, code := 3, kern := 0, tkind := 0, number := 0, info := j.idx }

/-- The member crews of a group on this chip with their numbers, in either bank or in a save area (R307, R364). -/
def State.membersHere (s : State) (ctx g : Nat) : List (Nat × Nat) :=
  let saved := s.saves.flatMap fun a => if a.1 % 64 = ctx then a.2.crews.map fun c => (savedCk (a.1 / 64) ctx c.1, c.2) else []
  (s.crews ++ saved).filterMap fun x => if x.2.ctx = ctx then (x.2.memb.find? (·.g == g)).map fun b => (x.1, b.m) else none

/-- The receivers of a multicast on this chip (R307): members PLACED, RUNNING, SUSPENDED or DRAINING whose cluster is selected. -/
def State.receivers (s : State) (ctx g cmask : Nat) : List (Nat × Nat) :=
  (s.membersHere ctx g).filter fun x => bit cmask (coreOfCk (x.1 % 2 ^ 20) / 4) && (match s.crewAny x.1 with
    | some c => c.st == .placed || c.st == .running || c.st == .suspended || c.st == .draining
    | none => false)

/-- The spaces of a job's destination in its footprint (R303, R305): 0 global, 1 the crew's own share, 2 staging, and for a multicast each receiver's
share; on other chips, where the receivers are not known before the start, each selected cluster. -/
def State.destSpaces (s : State) (j : Job) (d : JDesc) : List Nat :=
  if j.kind ≠ 3 then [d.dspace]
  else
    let here := (s.receivers j.ctx d.grp d.cmask).map fun x => if j.crew = some x.1 then 1 else 2 ^ 10 + x.1
    let only := match s.groupList j.ctx 0 d.grp with
      | .ok ws => (chipsOf ws).all (· == s.chip)
      | .error _ => false
    here ++ if only then [] else ((List.range 96).filter fun c => bit d.cmask c).map (2 ^ 50 + ·)

/-- A job ends early: malformed, or with a fault. -/
def State.jobEnds (s : State) (id how : Nat) (f : Option NFault) : State :=
  (s.modJob id fun j => { j with st := .ending, how := how, fault := f }).post .engineJobEnd (.n1 id)

/-- An earlier job of the crew's sequence on which a job depends, or whose descriptor is still to be read (R305). -/
def State.jobWaits (s : State) (j : Job) (d : JDesc) (foot : List (Nat × Nat × Nat × Nat)) : Bool :=
  j.crew.isSome && !d.unchk && (s.jobs.takeWhile (·.id != j.id)).any fun x => x.crew == j.crew && (match x.desc with
    | none => x.fault.isNone
    | some e => !e.unchk && feetMeet x.foot foot)

/-- A job whose dependences are met starts (R305): its stream's ring is fixed. -/
def State.jobRuns (s : State) (j : Job) (d : JDesc) : State :=
  let s := s.modJob j.id fun j => { j with st := .running }
  let s := match j.crew, j.stream with
    | some ck, some q => s.modC ck fun c => { c with q := c.q.modify q fun r =>
        { r with tileb := d.tileb, base := d.dstb, slots := List.replicate d.nt .empty, total := (d.dims.getLast?.map JDim.count).getD 0 } }
    | _, _ => s
  s.post .engineGranule (.n2 j.id 0)

/-- Whether a job cannot start while its crew is in the save area (R314): its descriptor lies in a saved share, or it writes the share. -/
def State.jobAway (s : State) (j : Job) (d : Option JDesc) : Bool :=
  match j.crew with
  | none => false
  | some ck => decide (2 ^ 20 ≤ ck ∧ ck < 2 ^ 40) && (match d with
    | none => bit j.loc 63 && (s.partOf j.ctx).spsave == 1
    | some d => (d.dspace == 1 && j.kind != 3) || d.bv || (d.sspace == 1 && (s.partOf j.ctx).spsave == 1))

/-- The descriptor read whole: its header gives its length. A dimension record outside the share reads as zeros, which break R299. -/
def State.readDesc (s : State) (j : Job) (fail : Nat) : Except AErr (List Nat) := do
  let h ← s.descWords j fail 0 8
  let n := fld (h.getD 2 0) 3 0
  if 10 ≤ n then .ok h else
    match s.descWords j fail 8 (4 * n) with
    | .ok r => .ok (h ++ r)
    | .error (.bad .illegalInstr _) => .ok h
    | .error e => .error e

/-- What a job does once its descriptor is read or can no more be (R303): it may be accepted, and one accepted goes on. -/
def State.jobKnown (s : State) (j : Job) (f : Job → Job) : State :=
  let s := (s.modJob j.id f).kickJobs
  if j.st = .accepted then s.post .engineJobStart (.n2 j.id 0) else s

/-- The descriptor read, once the crew's earlier writes are acknowledged (R310), and checked (R303). -/
def State.jobReads (s : State) (j : Job) (fail : Nat) : State :=
  if !s.needDone j.need || s.jobAway j none then s.post .engineJobStart (.n2 j.id 0) else
  let bad (c : Cause) (ea : Nat) : State := s.jobKnown j fun j =>
    { j with fault := some ⟨c.num, W ea, 0⟩, eng := if 2000 ≤ j.eng then s.layoutEng j none else j.eng }
  match s.readDesc j fail with
  | .error e => s.agentErr j.core j.ctx j.reader ⟨.engineJobStart, .n2 j.id 0⟩ bad e
  | .ok ws =>
    let d := descOf ws j.addS j.addD
    let broken := descRaz ws || s.descBad j d
    s.jobKnown j fun j =>
      { j with desc := some d, how := if broken then 2 else 0, foot := if broken then [] else jobFoot d j.stream.isSome (s.destSpaces j d)
               eng := if 2000 ≤ j.eng then s.layoutEng j (some d) else j.eng }

/-- The bytes of a share that a multicast needs at each receiver: none will do for a destination below the share (R307). -/
def JDesc.needsShare (d : JDesc) : Nat :=
  let (lo, hi) := d.dstSpan false
  if lo < 0 then 2 ^ 60 else max (hi + d.esize).toNat (if d.bv then d.bar + 8 else 0)

/-- A multicast starts (R307): its receivers here are fixed and checked, and every other chip of the group is asked for its own. -/
def State.multicast (s : State) (j : Job) (d : JDesc) (fail : Nat) : State :=
  match s.groupList j.ctx fail d.grp with
  | .error e => s.agentErr j.core j.ctx j.reader ⟨.engineJobStart, .n2 j.id 0⟩ (fun c ea => s.jobEnds j.id 1 (some ⟨c.num, W ea, 0⟩)) e
  | .ok ws =>
    let rs := (s.receivers j.ctx d.grp d.cmask).map (·.1)
    if rs.any fun ck => decide (((s.crewAny ck).map (·.spSize)).getD 0 < d.needsShare) then s.jobEnds j.id 2 none else
    let chips := (chipsOf ws).filter (· != s.chip)
    let s := s.modJob j.id fun j => { j with recvs := rs, chips := chips, skipped := ws.length - rs.length }
    if chips = [] then s.jobRuns j d
    else chips.foldl (fun s c => s.send j.core c (distCore 0) .engineJobStart
      (.nats [0, j.ctx, d.grp, d.cmask, d.needsShare, s.chip, j.core, j.id])) s

/-- A job whose descriptor is known, in its table entry: it ends, waits for what it depends on (R305), or starts. -/
def State.jobReady (s : State) (j : Job) (fail : Nat) : State :=
  match j.desc with
  | none => s.jobEnds j.id 1 j.fault
  | some d =>
    if j.how = 2 then s.jobEnds j.id 2 none
    else if s.jobAway j (some d) then s.post .engineJobStart (.n2 j.id 0)
    else
      let foot := jobFoot d j.stream.isSome (s.destSpaces j d)
      if s.jobWaits j d foot then s.post .engineJobStart (.n2 j.id 0)
      else
        let s := s.modJob j.id fun j => { j with foot := foot }
        if j.kind = 3 then s.multicast j d fail else s.jobRuns j d

/-- Another chip's receivers of a multicast (R307): 1, the job, the chip, whether their shares will do, and their member numbers. -/
def State.askedReceivers (s : State) (ctx g cmask need chip core id : Nat) : State :=
  let rs := s.receivers ctx g cmask
  let ok := rs.all fun x => decide (need ≤ ((s.crewAny x.1).map (·.spSize)).getD 0)
  s.send (distCore 0) chip core .engineJobStart (.nats ([1, id, s.chip, b2n ok] ++ rs.map (·.2)))

/-- A chip's answer: with the last one the job starts, or ends MALFORMED. -/
def State.gotReceivers (s : State) (j : Job) (d : JDesc) (chip ok : Nat) (ms : List Nat) : State :=
  let s := s.modJob j.id fun j => { j with chips := j.chips.filter (· != chip), how := if ok = 0 then 2 else j.how, skipped := j.skipped - ms.length
                                           recvs := j.recvs ++ ms.map fun m => 2 ^ 50 + chip * 2 ^ 16 + m }
  match s.job j.id with
  | some j => if j.chips ≠ [] then s else if j.how = 2 then s.jobEnds j.id 2 none else s.jobRuns j d
  | none => s

/-- ENGINE_JOB_START (R303, R305): a job's descriptor is read and checked; it starts when no dependence is left. -/
def execEngineJobStart (s : State) : Host.Outcome State Fault Refusal :=
  .next (match s.ev with
    | .n2 id fail =>
      match s.job id with
      | none => s
      | some j =>
        if j.st ≠ .accepted ∧ j.st ≠ .waiting then s
        else if !j.known then s.jobReads j fail
        else if j.st = .accepted then s.jobReady j fail else s
    | .nats [0, ctx, g, cmask, need, chip, core, id] => s.askedReceivers ctx g cmask need chip core id
    | .nats (1 :: id :: chip :: ok :: ms) =>
      match s.job id with
      | some j => (match j.desc with
        | some d => if j.st = .accepted then s.gotReceivers j d chip ok ms else s
        | none => s)
      | none => s
    | _ => s)

/-! ### Streams (R312, R313) -/

/-- A stream register changed. -/
def State.modQ (s : State) (ck q : Nat) (f : QReg → QReg) : State := s.modC ck fun c => { c with q := c.q.modify q f }

/-- A stream register of a crew. -/
def State.qreg (s : State) (ck q : Nat) : QReg := ((s.C ck).q[q]?).getD QReg.blank

/-- The states of a register that an event may end (R312). -/
def QReg.settle (r : QReg) (running : Bool) : QReg :=
  let r := if r.st = .bound ∧ running = false ∧ r.next = r.total then { r with st := .ended } else r
  if (r.st = .ended ∨ r.st = .failed) ∧ (r.slots.any fun x => x == .popped || x == .filling) = false then QReg.blank else r

/-- A register's states tested. -/
def State.settleQ (s : State) (ck q : Nat) : State :=
  let r := s.qreg ck q
  let running := s.jobs.any fun j => j.id == r.job && j.crew == some ck
  s.modQ ck q fun r => r.settle running

/-- What QPOP finds (R313): a value, or nothing yet. -/
def QReg.pop (r : QReg) : Option (Word × QReg) :=
  match r.st with
  | .ended | .unbound => some (W (2 ^ 63), r)
  | .failed => some (W (3 * 2 ^ 62), r)
  | .bound =>
    let n := r.next % r.slots.length
    if r.slots.getD n .empty = .full then
      some (W (r.base + n * r.tileb), { r with slots := r.slots.set n .popped, next := r.next + 1, popped := r.popped ++ [n] })
    else none

/-- Waiting QPOPs of a register answered in their order; the number bounds how many. -/
def State.servePops (s : State) (ck q : Nat) : Nat → State
  | 0 => s
  | k + 1 =>
    match (s.C ck).qpops.find? fun x => x.1 == q, (s.qreg ck q).pop with
    | some w, some (v, r) =>
      let s := (s.modC ck fun c => { c with qpops := c.qpops.erase w }).modQ ck q fun _ => r
      let s := w.2.2.foldl (fun s l => (s.wrG (laneTk ck l) w.2.1 v).wake (laneTk ck l)) s
      (s.settleQ ck q).servePops ck q k
    | _, _ => s

/-- QPOP (R313). -/
def execQpop (f : QpopF) (s : State) : Host.Outcome State Fault Refusal :=
  word (.qpop f) s fun s =>
    let ck := s.ck
    let q := f.q.toNat
    let g := f.g.toNat
    let waits := (s.C ck).qpops.any fun x => x.1 == q
    match (if waits then none else (s.qreg ck q).pop) with
    | some (v, r) => ((s.modQ ck q fun _ => r).eachLane fun s l => s.wrG l.tk g v).settleQ ck q
    | none => (s.eachLane fun s l => s.block l.tk (.qpop q)).modC ck fun c => { c with qpops := c.qpops ++ [(q, g, s.iss.lanes.map (·.pos))] }

/-- QFREE (R313): the oldest POPPED slot becomes EMPTY. -/
def execQfree (f : QfreeF) (s : State) : Host.Outcome State Fault Refusal :=
  word (.qfree f) s fun s =>
    (s.modQ s.ck f.q.toNat fun r => match r.popped with
      | [] => r
      | n :: t => { r with slots := r.slots.set n .empty, popped := t }).settleQ s.ck f.q.toNat

/-! ### Granules -/

/-- Whether a crew to whose share a job writes is SUSPENDED, in its bank or in its save area (R314). -/
def State.destStopped (s : State) (j : Job) (d : JDesc) : Bool :=
  let stops (ck : Nat) : Bool := decide (ck < 2 ^ 50) && ((s.crews.get? ck).isNone || (s.C ck).st == .suspended)
  d.dspace == 1 && (if j.kind = 3 then j.recvs.any stops else j.crew.any stops)

/-- Whether every lane of a stream's crew has retired (R314). -/
def State.streamOver (s : State) (j : Job) : Bool :=
  j.stream.isSome && (match j.crew with
    | some ck => match s.crews.get? ck with
      | some c => c.st == .draining
      | none => decide (ck < 2 ^ 20)
    | none => false)

/-- A stream starts its next tile when its slot is EMPTY (R312). -/
def State.startTile (s : State) (j : Job) : State :=
  match j.crew, j.stream with
  | some ck, some q =>
    let r := s.qreg ck q
    let n := j.tile % r.slots.length
    if j.tile < r.total ∧ r.slots.getD n .full = .empty ∧ s.streamOver j = false then
      (s.modQ ck q fun r => { r with slots := r.slots.set n .filling }).modJob j.id fun j => { j with tile := j.tile + 1 }
    else s
  | _, _ => s

/-- The granules of a job that may be read for now: their numbers. -/
def Job.open_ (j : Job) (d : JDesc) : List Nat :=
  ((d.granules j.stream.isSome).zipIdx.filter fun x => !j.begun.contains x.2 && (j.stream.isNone || decide (x.1.1 < j.tile))).map (·.2)

/-- The elements of a granule. -/
def JDesc.elemsAt (d : JDesc) (stream : Bool) (g : Nat) : List Elem :=
  match (d.granules stream)[g]? with
  | some k => (d.elems stream).filter fun e => e.tile == k.1 && e.dst / 8 == k.2
  | none => []

/-- A tile whose every byte has been performed or counted is FULL (R312). -/
def State.tileDone (s : State) (j : Job) (d : JDesc) (tile : Nat) : State :=
  match j.crew, j.stream with
  | some ck, some q =>
    let mine := ((d.granules true).zipIdx.filter fun x => x.1.1 == tile).map (·.2)
    match s.job j.id with
    | some j =>
      if (mine.all fun g => j.begun.contains g && !(j.buf.any (·.g == g))) then
        let s := s.modQ ck q fun r => { r with slots := r.slots.set (tile % r.slots.length) .full }
        s.servePops ck q ((s.C ck).qpops.length)
      else s
    | none => s
  | _, _ => s

/-- The barrier word of a job. -/
def JDesc.barOf (d : JDesc) : Option Nat := if d.bv then some d.bar else none

/-- The crews to which a job's granules go: a multicast's receivers, the issuing crew, or none. -/
def Job.dests (j : Job) : List Nat := if j.kind = 3 then j.recvs else [j.crew.getD (2 ^ 60)]

/-- A granule read for (R302): one entry for each destination. -/
def State.beginGranule (s : State) (j : Job) (g data mask cnt : Nat) : State :=
  s.modJob j.id fun j => { j with begun := j.begun ++ [g], buf := j.buf ++ j.dests.map fun ck => ⟨g, ck, data, mask, cnt⟩ }

/-- A count at a crew's barrier word, where the job names one (R306). -/
def State.countFor (s : State) (d : JDesc) (ck cnt : Nat) : State :=
  match d.barOf with
  | some o => if (s.crews.get? ck).isSome then s.countAt ck o cnt else s
  | none => s

/-- A granule written at its destination (R302, R306). A write to a home on another chip, and a granule for a receiver on another chip, is counted when
its acknowledgement comes. -/
def State.writeGranule (s : State) (j : Job) (d : JDesc) (b : GBuf) : State :=
  let k := ((d.granules j.stream.isSome)[b.g]?).getD (0, 0)
  let a := 8 * k.2
  let sent (s : State) (id0 cnt : Nat) : State := s.owedBy id0 (some j.id) (maskLen b.mask + 16 * cnt) (some j.reader) none
  let done (s : State) : State := s.modJob j.id fun j => { j with bytes := j.bytes + maskLen b.mask }
  let s := s.modJob j.id fun j => { j with buf := j.buf.erase b }
  let s := match d.dspace with
    | 1 =>
      if 2 ^ 50 ≤ b.ck ∧ b.ck < 2 ^ 60 then
        let id0 := s.ids
        let c := (b.ck - 2 ^ 50) / 2 ^ 16
        let s : State := { s with owed := s.owed ++ [⟨id0, j.ctx, a, none, 0, none, none, none⟩] }
        sent (s.fresh.send j.core c (distCore 0) .engineGranule
          (.nats [j.ctx, d.grp, b.ck % 2 ^ 16, a, b.data, b.mask, b.cnt, if d.bv then d.bar + 1 else 0, s.chip, j.core, id0])) id0 0
      else if (s.crews.get? b.ck).isSome then done (s.wrShareG b.ck a b.data b.mask b.cnt d.barOf) else s
    | 0 =>
      let id0 := s.ids
      let s := if b.mask = 0 then s else s.wrMaskA j.core j.ctx a 8 b.mask b.data
      if s.owed.any fun w => decide (id0 ≤ w.id) then sent s id0 b.cnt else (done s).countFor d b.ck b.cnt
    | _ => (done (s.wrMasked (s.stagingKey j.ctx a) b.data b.mask)).countFor d b.ck b.cnt
  if j.stream.isSome then s.tileDone j d k.1 else s

/-- A granule from another chip for a member here (R307): it waits while the crew is SUSPENDED (R314), and is then acknowledged. -/
def State.granuleHere (s : State) (ctx g m a data mask cnt bar chip core id : Nat) : State :=
  let ack (s : State) : State := s.send (distCore 0) chip core .ackResponse (.resp agentTk id .ack)
  match (s.membersHere ctx g).find? (·.2 == m) with
  | none => ack s
  | some (ck, _) =>
    if (s.crews.get? ck).isNone || (s.C ck).st == .suspended then s.post .engineGranule s.ev
    else ack (s.wrShareG ck a data mask cnt (if bar = 0 then none else some (bar - 1)))

/-- The bytes that a stopped job has not counted, for each crew in whose share it counts (R304). -/
def Job.leftBytes (j : Job) (d : JDesc) : List (Nat × Nat) :=
  let unread := ((d.granules j.stream.isSome).zipIdx.filter fun x => !j.begun.contains x.2).foldl
    (fun n x => n + (d.elemsAt j.stream.isSome x.2).length * d.esize) 0
  j.dests.map fun ck => (ck, unread + j.buf.foldl (fun n b => if b.ck = ck then n + b.cnt else n) 0)

/-- A job stopped by a refused or unmappable page (R304): every remaining destination byte counts as arrived, so a stream's FILLING slots are FULL. It
ends once the writes that have left are acknowledged. -/
def State.jobFaults (s : State) (j : Job) (d : JDesc) (c : Cause) (ea : Nat) : State :=
  if j.fault.isSome then s else
  let s := match j.crew, j.stream with
    | some ck, some q => s.modQ ck q fun r => { r with slots := r.slots.map fun x => if x = SlotSt.filling then .full else x }
    | _, _ => s
  let left := if d.bv then (j.leftBytes d).map fun x => (⟨2 ^ 60, x.1, 0, 0, x.2⟩ : GBuf) else []
  (s.modJob j.id fun j => { j with buf := left, fault := some ⟨c.num, W ea, 0⟩ }).post .engineGranule (.n2 j.id 0)

/-- Poison written into the destination granule of elements that were read as poison (R431). -/
def State.poisonDest (s : State) (j : Job) (d : JDesc) (g : Nat) : State :=
  match d.dspace with
  | 0 => match homeIn (s.ctx j.ctx).ptab (8 * g) with
    | some h => if h.chip ≠ s.chip then s else match s.pages.get? (h.key j.ctx) with
      | some p => s.poisonAt (s.byteKey (h.key j.ctx) p h.pofs / 32 * 32) 32
      | none => s
    | none => s
  | 1 => (if j.kind = 3 then j.recvs else j.crew.toList).foldl (fun s ck =>
      if (s.crews.get? ck).isSome then s.poisonAt (spadKey (coreOfCk ck) ((s.C ck).spBase + 8 * g)) 8 else s) s
  | _ => s.poisonAt (s.stagingKey j.ctx (8 * g)) 8

/-- Whether a write of a job has left for another chip and is not acknowledged. -/
def State.jobOwed (s : State) (j : Job) : Bool := s.owed.any fun w => w.job == some j.id

/-- A granule's elements read (R302). -/
def State.readGranule (s : State) (j : Job) (d : JDesc) (g fail : Nat) : State :=
  let es := d.elemsAt j.stream.isSome g
  let bad (c : Cause) (ea : Nat) : State :=
    (if c = .uncorrectable then s.poisonDest j d ((d.granules j.stream.isSome)[g]?.map (·.2) |>.getD 0) else s).jobFaults j d c ea
  match s.gather j d fail es 0 0 with
  | .error e => s.agentErr j.core j.ctx j.reader ⟨.engineGranule, .n4 j.id 0 g 0⟩ bad e
  | .ok (data, mask) => (s.beginGranule j g data mask (es.length * d.esize)).post .engineGranule (.n2 j.id 0)

/-- One step of a running job: a granule written, or one read for; any order (R302). -/
def State.jobStep (s : State) (j : Job) (d : JDesc) : State :=
  let ready := j.buf.filter fun b => decide (b.ck < 2 ^ 20 ∨ 2 ^ 40 ≤ b.ck) || d.dspace != 1
  let opens := if s.destStopped j d || j.fault.isSome then [] else j.open_ d
  let n := ready.length + opens.length
  if n = 0 then
    let all := j.begun.length == (d.granules j.stream.isSome).length
    if !j.buf.isEmpty || s.jobOwed j then s.post .engineGranule (.n2 j.id 0)
    else if j.fault.isSome then s.jobEnds j.id 1 j.fault
    else if all then s.jobEnds j.id 0 (some ⟨0, 0, W j.skipped⟩)
    else if s.streamOver j then s.jobEnds j.id 3 none
    else s.post .engineGranule (.n2 j.id 0)
  else
    let i := s.pickOf n
    let s : State := { s with tick := s.tick + 1 }
    match ready[i]? with
    | some b =>
      let a := 8 * (((d.granules j.stream.isSome)[b.g]?).getD (0, 0)).2
      (match (if d.dspace = 0 && b.mask != 0 then s.wrChk j.ctx 0 a else .ok ()) with
        | .error e => s.agentErr j.core j.ctx j.reader ⟨.engineGranule, .n4 j.id 0 a 1⟩ (fun c ea => s.jobFaults j d c ea) e
        | .ok _ => (s.writeGranule j d b).post .engineGranule (.n2 j.id 0))
    | none => s.readGranule j d (opens.getD (i - ready.length) 0) 0

/-- A write on another chip acknowledged or refused (R304, R306): its elements count. -/
def State.jobAcked (s : State) (j : Job) (d : JDesc) (pos : Nat) (o : ROut) : State :=
  let cnt := pos / 2 ^ 60
  let s := match j.crew with
    | some ck => if d.dspace = 0 ∧ cnt ≠ 0 then s.countFor d ck cnt else s
    | none => s
  match o with
  | .refused c _ => s.jobFaults j d c (pos % 2 ^ 56)
  | _ => s.modJob j.id fun j => { j with bytes := j.bytes + pos / 2 ^ 56 % 16 }

/-- ENGINE_GRANULE (R302): a step of a job, the answer to a write on another chip, or a multicast's granule from another chip. -/
def execEngineGranule (s : State) : Host.Outcome State Fault Refusal :=
  let at_ (id : Nat) (k : State → Job → JDesc → State) : State :=
    match s.job id with
    | some j => (match j.desc with
      | some d => if j.st = .running then k s j d else s
      | none => s)
    | none => s
  .next (match s.ev with
    | .n2 id _ => at_ id fun s j d =>
      let s := s.startTile j
      s.jobStep ((s.job id).getD j) d
    | .n4 id fail a w => at_ id fun s j d =>
      if w = 1 ∧ fail ≠ 0 then s.jobFaults j d .notPresent a
      else if w = 0 ∧ j.fault.isNone ∧ j.begun.contains a = false then s.readGranule j d a fail
      else s.post .engineGranule (.n2 id 0)
    | .job id pos o => at_ id fun s j d => s.jobAcked j d pos o
    | .nats [ctx, g, m, a, data, mask, cnt, bar, chip, core, id] => s.granuleHere ctx g m a data mask cnt bar chip core id
    | _ => s)

/-! ### The end of a job (R304, R309) -/

/-- The words of a crew-issued job's record (R304). -/
def jobRecord (j : Job) : CRec :=
  let f := j.fault.getD ⟨0, 0, 0⟩
  let d := j.desc
  { ctx := j.ctx, ring := (d.map (·.ring)).getD 0
    w0 := j.how * 2 ^ 59 + (if j.how = 1 then f.cause else 0) * 2 ^ 54 + ((d.map (·.tag)).getD 0) * 2 ^ 32 + j.seq
    w1 := j.bytes, w2 := if j.how = 1 then f.addr.toNat else 0, w3 := f.info.toNat, core := j.reader.core, kern := j.kern, tkind := 2
    num := j.index * 32, toFq := false, stage := 0, cur := 0 }

/-- The record of a crew-issued job: to its ring, or for one that faulted or was malformed without CR to the fault queue (R304). -/
def State.jobReport (s : State) (j : Job) : State :=
  match j.crew with
  | some _ =>
    if (j.desc.map (·.cr)).getD false then s.putRecord (jobRecord j)
    else if j.how = 1 ∨ j.how = 2 then s.recordToFq (jobRecord j) 3 else s
  | none => (s.modNode j.ctx j.qid j.idx fun n => { n with count := j.bytes, status := j.how, fault := j.fault }).post .nodeComplete
      (.n3 j.ctx j.qid j.idx)

/-- A stream's register once its job has ended (R312). -/
def State.streamEnd (s : State) (j : Job) : State :=
  match j.crew, j.stream with
  | some ck, some q =>
    if (s.crews.get? ck).isNone then s else
    let s := s.modQ ck q fun r => if j.how ≠ 0 then { r with st := .failed } else if r.next = r.total then { r with st := .ended } else r
    (s.servePops ck q ((s.C ck).qpops.length)).settleQ ck q
  | _, _ => s

/-- ENGINE_JOB_END (R309): the entry is free, the record leaves, and what waited for the job goes on. -/
def execEngineJobEnd (s : State) : Host.Outcome State Fault Refusal :=
  .next (match s.ev with
    | .n1 id =>
      match s.job id with
      | none => s
      | some j =>
        let saved : Bool := j.stream.isSome && j.crew.any fun ck => decide (2 ^ 20 ≤ ck ∧ ck < 2 ^ 40)
        if j.st ≠ .ending then s else if saved then s.post .engineJobEnd s.ev else
        let s := ({ s with jobs := s.jobs.filter (·.id != id) }).jobReport j
        let s := (s.streamEnd j).kickJobs
        (j.crew.toList ++ j.recvs.filter (· < 2 ^ 20)).foldl (fun s ck => if (s.C ck).st = .draining then s.post .crewRetire (.n1 ck) else s) s
    | _ => s)

/-- STAGING_GRANT_WITHDRAW (R311): it waits for the jobs that name the grant, those whose descriptor is not yet read included. -/
def execStagingGrantWithdraw (s : State) : Host.Outcome State Fault Refusal :=
  .next (match s.ev with
    | .n2 ctx n =>
      let names (j : Job) : Bool := j.ctx == ctx && (match j.desc with
        | some d => (d.sspace == 2 && d.srcb / 2 ^ 22 == n) || (d.dspace == 2 && d.dstb / 2 ^ 22 == n)
        | none => true)
      if s.jobs.any names then s.post .stagingGrantWithdraw s.ev
      else ({ s with sgrants := s.sgrants.del (ctx * 16 + n) }).answerHost .ok 0
    | _ => s)

end Sys2Proof.Machine
end

