-- ==== Sys2Proof/Machine/Kernel.lean ====
section
/-! DEFINITION. Kernels (14): their entries on every chip (R319), distribution and stealing (R324, R325), crews placed, filled and started
(R326, R321, 06 R134, R138, 07 R178), roaming threads created (R322), crews retired (R138), and gangs (15 R331-R333). -/

namespace Sys2Proof.Machine
open Sys2Proof

/-! ### Where a crew fits (R326) -/

/-- The bank of a core in which a context is ACTIVE or SHADOW (R362). -/
def State.bankOf (s : State) (core ctx : Nat) : Option Nat :=
  let c := s.core core
  let moving := match c.resid with
    | .filling x _ => x == ctx
    | .spilling x _ => x == ctx
    | _ => false
  if moving then none else [0, 1].find? fun b => c.bank.getD b none == some ctx

/-- The crews of a core whose shares stand: those in its banks, and saved ones whose partition does not save shares (R364). -/
def State.coreCrews (s : State) (core : Nat) : List Crew :=
  (s.crews.filter fun x => coreOfCk x.1 == core).map (·.2)
    ++ s.saves.flatMap fun x => if x.1 / 64 = core ∧ (s.partOf (x.1 % 64)).spsave = 0 then x.2.crews.map (·.2) else []

/-- The scratchpad shares and the private slices in use at a core, reservations included. -/
def State.usedAt (s : State) (core : Nat) (pv : Bool) : List (Nat × Nat) :=
  ((s.coreCrews core).map fun c => if pv then (c.pvBase, c.pvSize) else (c.spBase, c.spSize))
    ++ (s.resvs.filter (·.core == core)).map fun r =>
      let kd := (s.kernNode r.ctx r.kern).bind (·.kd)
      if pv then (r.pv, (kd.map (·.priv)).getD 0) else (r.sp, (kd.map (·.spad)).getD 0)

/-- The lowest free base of a size, at a multiple of `step` below `limit`. -/
def freeBase (used : List (Nat × Nat)) (size step limit : Nat) : Option Nat :=
  if size = 0 then some 0 else
  ((List.range (limit / step)).map (· * step)).find? fun b =>
    decide (b + size ≤ limit) && used.all fun u => decide (u.2 = 0 ∨ b + size ≤ u.1 ∨ u.1 + u.2 ≤ b)

/-- The accumulator tiles of a cluster in use. -/
def State.usedTiles (s : State) (cl : Nat) : List Nat :=
  (s.crews.flatMap fun x => if coreOfCk x.1 / 4 = cl then x.2.tiles else [])
    ++ (s.saves.flatMap fun x => if x.1 / 64 / 4 = cl then x.2.crews.flatMap fun c => c.2.tiles else [])
    ++ s.resvs.flatMap fun r => if r.core / 4 = cl then r.tiles else []

/-- Whether a slot block holds no crew, no reservation and no thread (R326). -/
def State.blockFree (s : State) (core bank block : Nat) : Bool :=
  (s.crews.get? (ckOf core bank block)).isNone && !(s.resvs.any fun r => r.core == core && r.block == block)
    && !(s.thr.any fun t => t.1 / 32 == tkOf core bank (block * 32) / 32)

/-- A place for a crew. -/
structure Spot where
  core : Nat
  bank : Nat
  block : Nat
  sp : Nat
  pv : Nat
  tiles : List Nat
  deriving DecidableEq, Repr

/-- The share, the private bytes and the tiles that a core of the partition has for a crew (R326). -/
def State.spaceAt (s : State) (ctx : Nat) (kd : KDesc) (core : Nat) : Option (Nat × Nat × List Nat) :=
  let free := (List.range 16).filter fun t => !(s.usedTiles (core / 4)).contains t
  if !bit (s.partOf ctx).clmask (core / 4) || (s.core core).retired || decide (free.length < kd.acct) then none else
  match freeBase (s.usedAt core false) kd.spad 256 (2 ^ 19), freeBase (s.usedAt core true) kd.priv 8 4096 with
  | some sp, some pv => some (sp, pv, free.take kd.acct)
  | _, _ => none

/-- Where a crew fits at a core once it has a slot block (R326). -/
def State.roomAt (s : State) (ctx : Nat) (kd : KDesc) (core : Nat) : Option (Nat × Nat × Nat × List Nat) :=
  match s.bankOf core ctx, s.spaceAt ctx kd core with
  | some b, some x => some (b, x)
  | _, _ => none

/-- Where a crew fits at a core (R326). -/
def State.fitAt (s : State) (ctx : Nat) (kd : KDesc) (core : Nat) : Option Spot :=
  match s.roomAt ctx kd core with
  | none => none
  | some (b, sp, pv, tiles) =>
    ((List.range 16).find? fun n => s.blockFree core b n).map fun n => ⟨core, b, n, sp, pv, tiles⟩

/-- The cores of a die in ascending order. -/
def dieCores (d : Nat) : List Nat := (List.range 96).map (d % 4 * 96 + ·)

/-- The order in which cores are tried for crew index i by distributor d (R326). -/
def State.coreOrder (s : State) (ctx : Nat) (kd : KDesc) (i d : Nat) : List Nat :=
  let home := match kd.anchor with
    | none => none
    | some a => match homeIn (s.ctx ctx).ptab ((a + i * kd.astep) % 2 ^ 56) with
      | some h => if h.chip = s.chip then some h.core else none
      | none => none
  match home with
  | some a =>
    let cl := (List.range 4).map (a / 4 * 4 + ·)
    ([a] ++ cl ++ dieCores (dieOf a) ++ dieCores (dieOf a + 1) ++ dieCores (dieOf a + 2) ++ dieCores (dieOf a + 3)).eraseDups
  | none => dieCores d ++ dieCores (d + 1) ++ dieCores (d + 2) ++ dieCores (d + 3)

/-- Whether a context without a bank at a core can come into one that is empty, or is being filled (R362, R363). -/
def State.bankOpen (s : State) (core ctx : Nat) : Bool :=
  let c := s.core core
  let held := c.bank.getD 0 none == some ctx || c.bank.getD 1 none == some ctx
  match c.resid with
  | .filling x _ => x == ctx
  | .spilling _ _ => false
  | _ => !held && ((c.bank.getD 0 none).isNone || (c.bank.getD 1 none).isNone)

/-- The first core that qualifies (R326): a place there, or, where only the bank is missing and one is empty, the core alone, at which the placement
is reserved (R363, log 13). -/
def State.chooseCore (s : State) (ctx : Nat) (kd : KDesc) (i d : Nat) : Option (Sum Spot Nat) :=
  (s.coreOrder ctx kd i d).findSome? fun c =>
    match s.fitAt ctx kd c with
    | some p => some (.inl p)
    | none => if s.bankOpen c ctx && (s.spaceAt ctx kd c).isSome then some (.inr c) else none

/-- The place of a crew, if the first core that qualifies has one now. -/
def State.findSpot (s : State) (ctx : Nat) (kd : KDesc) (i d : Nat) : Option Spot :=
  match s.chooseCore ctx kd i d with
  | some (.inl p) => some p
  | _ => none

/-! ### A crew's start (R134, R178, R321) -/

/-- The memberships of a crew index (R332). -/
def State.membsOf (s : State) (ctx : Nat) (kd : KDesc) (i : Nat) : List Memb :=
  (kd.mems.filter fun m => m.2.2.1 == s.chip && m.2.2.2 == i).map fun m =>
    let e := s.groups.get? (ctx * 256 + m.1)
    let agent := ((kd.mems.find? fun x => x.1 == m.1 && x.2.1 == 0).map (·.2.2.1)).getD s.chip
    { g := m.1, m := m.2.1, nmem := (e.map (·.nmem)).getD 0, gang := (e.map (·.gang)).getD false, win := (e.map (·.win)).getD false
      chip := agent, st := .none, joined := [], waitw := [], need := [], queue := [] }

/-- A crew placed (R138, R326): its resources are reserved and its lanes CREATED; the fill of bound ranges or the start follows. -/
def State.placeCrew (s : State) (n : Node) (kd : KDesc) (i : Nat) (p : Spot) : State :=
  let ck := ckOf p.core p.bank p.block
  let c : Crew := { Crew.blank with
    ctx := n.ctx, index := BitVec.ofNat 32 i, ktab := BitVec.ofNat 12 n.kern, spBase := p.sp, spSize := kd.spad, pvBase := p.pv
    pvSize := kd.priv
    bind := kd.binds.map fun b => { spoff := b.spoff, blen := b.blen, va := (b.va + i * b.stride) % 2 ^ 56, wb := b.wb, marks := [] }
    memb := s.membsOf n.ctx kd i, tiles := p.tiles }
  let s := s.setC ck c
  let s := (List.range 32).foldl (fun s l => s.setT (laneTk ck l) { Thr.blank with ctx := n.ctx, kind := 2, pc := BitVec.ofNat 56 kd.code }) s
  let s := s.modCore p.core fun c => { c with marked := c.marked.filter (· != p.block) }
  let s := s.modNode n.ctx n.qid n.idx fun n => { n with created := n.created + 1, units := n.units + 1 }
  if kd.binds.any (·.fill) then s.post .bindFill (.n4 ck 0 0 0) else s.post .crewStart (.n1 ck)

/-- A lane's starting state (R134, R321). -/
def State.startLane (s : State) (ck l : Nat) (c : Crew) (e : KEnt) : State :=
  let tk := laneTk ck l
  let num := c.index.toNat * 32 + l
  let t := s.T tk
  s.setT tk { t with
    g := (Vector.replicate 32 0).set 0 (W l), pc := e.code, trapen := e.trapen, rmode := e.round, srng := splitSeed e.seed (W num)
    handler := e.trapv, kind := 2, number := BitVec.ofNat 32 num, qid := BitVec.ofNat 6 e.qid, ktab := c.ktab, pkt := BitVec.ofNat 32 e.pkt }

/-- A crew's scalar registers (R134, R321): coordinates, then the launch constants of the same numbers. -/
def startScalars (c : Crew) (kd : KDesc) (consts : List Nat) : Vector Word 160 :=
  let i := c.index.toNat
  let v : Vector Word 160 := Vector.replicate 160 0
  let v := (v.setIfInBounds 0 (W (i % kd.gx))).setIfInBounds 1 (W (i / kd.gx % kd.gy)) |>.setIfInBounds 2 (W (i / (kd.gx * kd.gy)))
  consts.zipIdx.foldl (fun v x => v.setIfInBounds (x.2 + 3) (W x.1)) v

/-- Every lane of a crew begins with a trap pending at its first chain (R178). -/
def State.fillFails (s : State) (ck : Nat) (c : Cause) (ea : Nat) : State :=
  (List.range 32).foldl (fun s l => s.modT (laneTk ck l) fun t =>
    { t with ptrap := t.ptrap ++ [{ cause := c, pc := t.pc, addr := W ea, info := 0, word := 0 }] }) s

/-- A crew's initial state written with its launch constants (R138): RUNNING, or SUSPENDED where its context is not active. -/
def State.startsCrew (s : State) (ck : Nat) (c : Crew) (e : KEnt) (kd : KDesc) (consts : List Nat) : State :=
  let st : CSt := if s.ctxActive (coreOfCk ck) c.ctx then .running else .suspended
  let s := s.setC ck { c with st := st, s := startScalars c kd consts }
  let s := (List.range 32).foldl (fun s l => s.startLane ck l c e) s
  (List.range 32).foldl (fun s l => s.wake (laneTk ck l)) s

/-- A crew's start (R138): its distributor reads the launch constants from their sealed block (R321, R382). DESIGN CHOICE (log 57): where the block has
become unreadable the crew starts, and its lanes take that cause at their first chain, as for a range that cannot be filled. -/
def State.startCrew (s : State) (ck fail : Nat) : State :=
  let c := s.C ck
  match s.kent c.ctx c.ktab.toNat, s.kernNode c.ctx c.ktab.toNat with
  | some e, some n => match n.kd with
    | some kd =>
      if c.st ≠ .placed then s else
      (match s.rdWords c.ctx fail true (e.lconst + 24) (e.nscal - 3) with
        | .ok ws => s.startsCrew ck c e kd ws
        | .error x => s.agentErr (coreOfCk ck) c.ctx (distReader (c.index.toNat % 4) n.kern n.idx) ⟨.crewStart, .n1 ck⟩
            (fun k ea => (s.startsCrew ck c e kd []).fillFails ck k ea) x)
    | none => s
  | _, _ => s

/-- CREW_START (R138). -/
def execCrewStart (s : State) : Host.Outcome State Fault Refusal :=
  .next (match s.ev with
    | .n1 ck => if (s.crews.get? ck).isSome then s.startCrew ck 0 else s
    | .n2 ck fail => if (s.crews.get? ck).isSome then s.startCrew ck fail else s
    | _ => s)

/-- BIND_FILL (R178): one word of a bound range read through its home and written FULL, unmarked; the last one lets the crew start. -/
def execBindFill (s : State) : Host.Outcome State Fault Refusal :=
  .next (match s.ev with
    | .n4 ck b pos fail =>
      match s.crews.get? ck with
      | none => s
      | some c =>
        match c.bind[b]? with
        | none => s.post .crewStart (.n1 ck)
        | some x =>
          let fill := match (s.kernNode c.ctx c.ktab.toNat).bind (·.kd) with
            | some kd => (kd.binds[b]?.map (·.fill)).getD false
            | none => false
          if c.st ≠ .placed then s
          else if !fill || decide (x.blen ≤ pos) then s.post .bindFill (.n4 ck (b + 1) 0 0)
          else
            let core := coreOfCk ck
            match s.rdA c.ctx fail false ((x.va + pos) % 2 ^ 56) 8 with
            | .ok v =>
              let k := spadKey core (c.spBase + x.spoff + pos)
              ((s.wrMem k 8 v).setFull k true).post .bindFill (.n4 ck b (pos + 8) 0)
            | .error err => s.agentErr core c.ctx
                { core := core, code := 1, kern := c.ktab.toNat, tkind := 2, number := c.index.toNat * 32, info := 0 }
                ⟨.bindFill, .n4 ck b pos 0⟩
                (fun e ea => if e = .uncorrectable
                  then (s.poisonAt (spadKey core (c.spBase + x.spoff + pos)) 8).post .bindFill (.n4 ck b (pos + 8) 0)
                  else (s.fillFails ck e ea).post .crewStart (.n1 ck)) err
    | _ => s)

/-! ### Distribution (R324, R325) -/

/-- A kernel's share at a distributor. -/
def Node.share (n : Node) (d : Nat) : List Nat := n.shares.getD d []
/-- The node with a share replaced. -/
def Node.setShare (n : Node) (d : Nat) (l : List Nat) : Node := { n with shares := n.shares.set d l }

/-- LAUNCHING ends when every index is handed out and no steal reply is in flight (R317, R325). -/
def State.launchTest (s : State) (ctx qid idx : Nat) : State :=
  match s.nodes.find? fun n => n.ctx == ctx && n.qid == qid && n.idx == idx with
  | some n =>
    if n.st = .launching ∧ n.shares.all (·.isEmpty) = true ∧ n.gangIdx = [] ∧ n.steals = [] then
      (s.modNode ctx qid idx fun n => { n with st := .running }).kernTest ctx n.kern
    else s
  | none => s

/-- Whether a distributor waits for a page of a seed array (R322). -/
def State.distHeld (s : State) (d : Nat) : Bool :=
  s.heldP.any fun x => x.2.any fun e => match e.i, e.a with
    | .roamingThreadCreate, .n3 x _ _ => x == d
    | _, _ => false

/-- The kernels a distributor may serve, first the one it serves first (R324). -/
def State.served (s : State) (d : Nat) : List Node :=
  isort (fun (a b : Node) =>
    let pa := (s.partOf a.ctx).prio
    let pb := (s.partOf b.ctx).prio
    decide (pb < pa) || (pa == pb && decide (a.readyAt ≤ b.readyAt)))
    (s.nodes.filter fun n => n.st == .launching && (s.ctx n.ctx).st == .live && !s.dev.stopped && !(n.share d).isEmpty)

/-- What a distributor does next: the first kernel whose next unit can be placed, with the place of a crew. -/
def State.nextUnit (s : State) (d : Nat) : Option (Node × Option Spot) :=
  (s.served d).findSome? fun n => match n.kd with
    | none => none
    | some kd =>
      if kd.roam then (if s.distHeld d then none else some (n, none))
      else (s.findSpot n.ctx kd ((n.share d).headD 0) d).map fun p => (n, some p)

/-- A distributor that has run dry steals, one request at a time (R325). -/
def State.steal (s : State) (d : Nat) : State :=
  (s.nodes.filter fun n => n.st == .launching && (s.ctx n.ctx).st == .live).foldl (fun s n =>
    let r := n.refused.countP (· == d)
    let roam := (n.kd.map (·.roam)).getD false
    if (n.share d).isEmpty && decide (r < 3) && !(n.steals.any (·.1 == d)) && (roam || !n.failed.contains d) then
      let v := (d + 1 + r) % 4
      (s.modNode n.ctx n.qid n.idx fun n => { n with steals := n.steals ++ [(d, v)] }).send (distCore d) s.chip (distCore v) .stealRequest
        (.n6 n.ctx n.qid n.idx d v 0)
    else s) s

/-- Kernels whose next crew fits nowhere are marked for a distributor (R325, R326). -/
def State.markFailed (s : State) (d : Nat) : State :=
  (s.served d).foldl (fun s n => match n.kd with
    | some kd => if !kd.roam && !n.failed.contains d && (s.chooseCore n.ctx kd ((n.share d).headD 0) d).isNone then
        s.modNode n.ctx n.qid n.idx fun n => { n with failed := d :: n.failed }
      else s
    | none => s) s

/-- A block of roaming threads that a distributor may mark where nothing else is missing (R326). -/
def State.markBlock (s : State) (d : Nat) : State :=
  (s.served d).foldl (fun s n => match n.kd with
    | some kd =>
      if kd.roam then s else
      let cores := (s.coreOrder n.ctx kd ((n.share d).headD 0) d).filter fun c =>
        (s.roomAt n.ctx kd c).isSome && s.bankOf c n.ctx == some (s.core c).active && (s.core c).marked.isEmpty
      match cores with
      | [] => s
      | c :: _ =>
        match (List.range 16).find? fun b => (s.crews.get? (ckOf c (s.core c).active b)).isNone with
        | some b => if s.pickOf 2 = 0 then s.modCore c fun x => { x with marked := [b] } else s
        | none => s
    | none => s) s

/-- A placement reserved at the core that qualifies but for the bank; for a crew that fits nowhere, at the first core with space for it where its
context holds no bank: the context then has work there, and the core brings it in (R363, log 13). -/
def State.askBank (s : State) (ctx : Nat) (kd : KDesc) (i d : Nat) : State :=
  let ask (c : Nat) : State := if (s.core c).asks.contains ctx then s else s.modCore c fun x => { x with asks := x.asks ++ [ctx] }
  match s.chooseCore ctx kd i d with
  | some (.inl _) => s
  | some (.inr c) => ask c
  | none =>
    let away (c : Nat) : Bool := !((s.core c).bank.getD 0 none == some ctx || (s.core c).bank.getD 1 none == some ctx)
    if s.cores.any fun c => c.2.asks.contains ctx then s
    else match (s.coreOrder ctx kd i d).find? fun c => away c && (s.spaceAt ctx kd c).isSome with
      | some c => ask c
      | none => s

/-- Placements reserved for the crews that fit nowhere. -/
def State.askBanks (s : State) (d : Nat) : State :=
  (s.served d).foldl (fun s n => match n.kd with
    | some kd => if kd.roam then s else s.askBank n.ctx kd ((n.share d).headD 0) d
    | none => s) s

/-- A distributor looks for work. -/
def State.kickDist (s : State) (d : Nat) : State :=
  match s.nextUnit d with
  | some (_, some _) => s.post .crewPlacement (.n1 d)
  | some (_, none) => s.post .roamingThreadCreate (.n3 d 0 0)
  | none => (((s.markFailed d).askBanks d).markBlock d).steal d

/-- All four distributors look for work. -/
def State.kickAll (s : State) : State := (List.range 4).foldl (fun s d => s.kickDist d) s

/-- CREW_PLACEMENT (R326). -/
def execCrewPlacement (s : State) : Host.Outcome State Fault Refusal :=
  .next (match s.ev with
    | .n1 d =>
      match s.nextUnit d with
      | some (n, some p) =>
        match n.kd, n.share d with
        | some kd, i :: rest =>
          let s := s.modNode n.ctx n.qid n.idx fun n => n.setShare d rest
          ((s.placeCrew n kd i p).launchTest n.ctx n.qid n.idx).kickDist d
        | _, _ => s
      | _ => s.kickDist d
    | _ => s)

/-- A seed that creates no thread (R322): the failure is recorded and the kernel has one participant fewer. -/
def State.seedFails (s : State) (n : Node) (c : Cause) (ea i : Nat) : State :=
  let s := s.modNode n.ctx n.qid n.idx fun n => { n with fault := some (n.fault.getD ⟨c.num, W ea, W i⟩) }
  let a := s.tagent n.ctx n.kern
  (s.setTagent n.ctx n.kern { a with live := a.live - 1 }).tempoComplete n.ctx n.kern

/-- One roaming thread's creation record (R322). -/
def State.createRoaming (s : State) (n : Node) (kd : KDesc) (d i seed : Nat) (h : HomeLoc) : State :=
  let c : Spawn := { ctx := n.ctx, kern := n.kern, ln := true, g0 := W i, g1 := W seed, pcw := 0, srng := splitSeed kd.seed (W i)
                     number := BitVec.ofNat 32 i, addr := seed, chip := s.chip, core := distCore d, tid := ⟨n.kern, 0, i⟩ }
  let s := s.modNode n.ctx n.qid n.idx fun n => { n with created := n.created + 1, units := n.units + 1 }
  s.send (distCore d) h.chip h.core .spawnRecordArrival (.spawn h.chip h.core (2 ^ 30) 0 c)

/-- ROAMING_THREAD_CREATE (R322): the next seed of a distributor's share is read. -/
def execRoamingThreadCreate (s : State) : Host.Outcome State Fault Refusal :=
  .next (match s.ev with
    | .n3 d fail _ =>
      match s.nextUnit d with
      | some (n, none) =>
        match n.kd, n.share d with
        | some kd, i :: rest =>
          let ea := kd.seeds + 8 * i
          let t := s.modNode n.ctx n.qid n.idx fun n => n.setShare d rest
          match s.rdA n.ctx fail false ea 8 with
          | .error e => s.agentErr (distCore d) n.ctx (distReader d n.kern n.idx) ⟨.roamingThreadCreate, .n3 d 0 0⟩
              (fun c a => ((t.seedFails n c a i).launchTest n.ctx n.qid n.idx).kickDist d) e
          | .ok seed =>
            let t := match (if seed < 2 ^ 56 then homeIn (s.ctx n.ctx).ptab seed else none) with
              | some h => t.createRoaming n kd d i seed h
              | none => t.seedFails n .permission ea i
            (t.launchTest n.ctx n.qid n.idx).kickDist d
        | _, _ => s
      | _ => s.kickDist d
    | _ => s)

/-- STEAL_REQUEST (R325): a victim with two or more unassigned indices gives the upper half. -/
def execStealRequest (s : State) : Host.Outcome State Fault Refusal :=
  .next (match s.ev with
    | .n6 ctx qid idx thief victim _ =>
      match s.nodes.find? fun n => n.ctx == ctx && n.qid == qid && n.idx == idx with
      | none => s
      | some n =>
        let l := n.share victim
        let keep := l.length - l.length / 2
        (s.modNode ctx qid idx fun n => n.setShare victim (l.take keep)).send (distCore victim) s.chip (distCore thief) .stealReply
          (.steal ctx qid idx thief (l.drop keep))
    | _ => s)

/-- STEAL_REPLY (R325). -/
def execStealReply (s : State) : Host.Outcome State Fault Refusal :=
  .next (match s.ev with
    | .steal ctx qid idx thief got =>
      let s := s.modNode ctx qid idx fun n =>
        let n := { n with steals := n.steals.filter (·.1 != thief) }
        if got = [] then { n with refused := n.refused ++ [thief] }
        else n.setShare thief (isort (fun a b => decide (a ≤ b)) (n.share thief ++ got))
      (s.launchTest ctx qid idx).kickDist thief
    | _ => s)

/-! ### The kernel's entry on every chip (R319) -/

/-- The chips of a context (R319): those of its placement table and of the member lists of its groups. -/
def State.ctxChips (s : State) (ctx : Nat) : Except AErr (List Nat) :=
  s.groups.foldr (fun g r => if g.1 / 256 = ctx ∧ g.2.v = true then do
      let ws ← s.groupList ctx 0 (g.1 % 256)
      let t ← r
      .ok (chipsOf ws ++ t)
    else r) (.ok (s.ctx ctx).chips)

/-- The other chips among some. -/
def State.others (s : State) (l : List Nat) : List Nat := (l.filter (· != s.chip)).eraseDups

/-- The distribution shares of a kernel (R324): indices of gang members are set apart (R333). -/
def State.sharesOf (s : State) (ctx : Nat) (kd : KDesc) : List (List Nat) × List Nat :=
  let gang := ((kd.mems.filter fun m => m.2.2.1 == s.chip && s.isGang ctx m.1).map (·.2.2.2)).eraseDups
  ((List.range 4).map fun d => (List.range kd.total).filter fun i => i % 4 == d && !gang.contains i, gang)

/-- The groups of a kernel that are gangs. -/
def State.gangsOf (s : State) (n : Node) : List Nat :=
  match n.kd with
  | some kd => kd.groups.filter fun g => s.isGang n.ctx g
  | none => []

/-- The chip of a group's coordinator (R333): the one that record 0 names. -/
def KDesc.coordinator (kd : KDesc) (g : Nat) : Nat := ((kd.mems.find? fun x => x.1 == g && x.2.1 == 0).map (·.2.2.1)).getD 0

/-- A LAUNCHING kernel asks the coordinators of its gangs for admission (R333). -/
def State.askGangs (s : State) (n : Node) : State :=
  match n.kd with
  | some kd => (s.gangsOf n).foldl (fun s g =>
      if n.gangIdx = [] then s else
      s.send (distCore 0) (kd.coordinator g) (distCore 0) .gangReserveAnswer (.n3 n.ctx g s.chip)) s
  | none => s

/-- Distribution begins (R317, R324). -/
def State.launch (s : State) (n : Node) : State :=
  match n.kd with
  | none => s
  | some kd =>
    let (shares, gang) := s.sharesOf n.ctx kd
    let n := { n with st := NSt.launching, shares := shares, gangIdx := gang }
    let s := s.modNode n.ctx n.qid n.idx fun _ => n
    let s := s.setTagent n.ctx n.kern { live := kd.total, arr := [], orv := 0, known := [], gone := [] }
    ((s.askGangs n).launchTest n.ctx n.qid n.idx).kickAll

/-- Whether a kernel here, or one of another chip, holds a group entry (R331). -/
def State.groupHeld (s : State) (ctx g : Nat) : Bool :=
  (s.nodes.any fun m => m.ctx == ctx && (m.st == .entering || m.st == .launching || m.st == .running) && (match m.kd with
    | some k => k.groups.contains g
    | none => false))
    || s.kern.any fun x => x.1 / 4096 == ctx && x.2.chip != s.chip && x.2.groups.contains g

/-- The agents of groups that no kernel holds any longer begin anew (R335, R347); a coordinator keeps what it has been asked for. -/
def State.dropGroups (s : State) (ctx : Nat) (gs : List Nat) : State :=
  gs.foldl (fun s g =>
    if s.groupHeld ctx g then s
    else
      let a := s.gagent ctx g
      let s : State := { s with bagents := s.bagents.del (ctx * 256 + g), gagents := s.gagents.del (ctx * 256 + g) }
      if a.ready = [] then s else s.setGagent ctx g { s.gagent ctx g with ready := a.ready }) s

/-- A READY kernel leaves for LAUNCHING when no other kernel here holds its group entries (R319, R331): its entry is written on every chip. -/
def State.beginDist (s : State) (n : Node) (kd : KDesc) (fail : Nat) : State :=
  let held := s.nodes.any fun m => m.ctx == n.ctx && (m.st == .entering || m.st == .launching || m.st == .running)
    && (match m.kd with
      | some k => k.groups.any fun g => kd.groups.contains g
      | none => false)
  if n.st ≠ .ready ∨ (s.ctx n.ctx).st ≠ .live ∨ held = true then s else
  let e : KEnt := { code := BitVec.ofNat 56 kd.code, trapv := kd.trapv, round := kd.round, trapen := kd.trapen, carry := kd.carry
                    nscal := kd.nscal, lconst := kd.lconst, seed := kd.seed, roam := kd.roam, fuse := kd.fuse, chip := s.chip, qid := n.qid
                    pkt := n.idx % 2 ^ 32, groups := kd.groups }
  let go (l : List Nat) : State :=
    let chips := s.others l
    let e := { e with chips := chips }
    let s : State := { s with kern := s.kern.set (n.ctx * 4096 + n.kern) e }
    if chips = [] then s.launch n
    else chips.foldl (fun s c => s.send (distCore 0) c (distCore 0) .distributionStart (.kent n.ctx n.kern e))
      (s.modNode n.ctx n.qid n.idx fun n => { n with st := .entering, acks := chips.length })
  match (if fail = 0 then s.ctxChips n.ctx else .ok (s.ctx n.ctx).chips) with
  | .ok l => go l
  | .error x => s.agentErr (distCore 0) n.ctx (distReader 0 n.kern n.idx) ⟨.distributionStart, .n3 n.ctx n.qid n.idx⟩ (fun _ _ => go (s.ctx n.ctx).chips) x

/-- DISTRIBUTION_START (R319): a READY kernel, an entry that reaches a chip, where the acquire of R327 acts for the units to come, or a chip's
acknowledgement. -/
def execDistributionStart (s : State) : Host.Outcome State Fault Refusal :=
  .next (match s.ev with
    | .n3 ctx qid idx =>
      match s.nodes.find? fun n => n.ctx == ctx && n.qid == qid && n.idx == idx with
      | some n => match n.kd with
        | some kd => s.beginDist n kd 0
        | none => s
      | none => s
    | .n4 ctx qid idx fail =>
      match s.nodes.find? fun n => n.ctx == ctx && n.qid == qid && n.idx == idx with
      | some n => match n.kd with
        | some kd => s.beginDist n kd fail
        | none => s
      | none => s
    | .kent ctx kern e =>
      ((List.range 4).foldl (fun (s : State) d => s.dropAway d) { s with kern := s.kern.set (ctx * 4096 + kern) e }).send (distCore 0) e.chip (distCore 0) .distributionStart (.n2 ctx kern)
    | .n2 ctx kern =>
      match s.nodes.find? fun n => n.ctx == ctx && n.kern == kern && n.st == .entering with
      | some n => if n.acks ≤ 1 then s.launch n else s.modNode ctx n.qid n.idx fun n => { n with acks := n.acks - 1 }
      | none => s
    | _ => s)

/-- The pawn counts without a kernel's (R68). -/
def State.clearPawns (s : State) (ctx kern : Nat) : Tab Nat := s.pawns.filter fun x => !(x.1 % 4096 == kern && x.1 / 4096 % 64 == ctx)

/-- KERNEL_ENTRY_CLEAR (R319): the entry goes on every chip; the index is free once all have acknowledged. -/
def execKernelEntryClear (s : State) : Host.Outcome State Fault Refusal :=
  .next (match s.ev with
    | .n3 ctx qid idx =>
      match s.nodes.find? fun n => n.ctx == ctx && n.qid == qid && n.idx == idx with
      | some n =>
        let gs := match n.kd with
          | some kd => kd.groups
          | none => []
        let k := ctx * 4096 + n.kern
        let chips := s.others ((s.ctx ctx).chips ++ ((s.kent ctx n.kern).map (·.chips)).getD [])
        let s : State := { s with
          kern := s.kern.del k, tagents := s.tagents.del k, pawns := s.clearPawns ctx n.kern }
        let s := s.dropGroups ctx gs
        if chips = [] then (s.dropNode ctx qid idx).kickQueue ctx qid
        else chips.foldl (fun s c => s.send (distCore 0) c (distCore 0) .kernelEntryClear (.n4 ctx n.kern s.chip 0))
          (s.modNode ctx qid idx fun n => { n with acks := chips.length })
      | none => s
    | .n4 ctx kern chip _ =>
      let gs := ((s.kent ctx kern).map (·.groups)).getD []
      (({ s with kern := s.kern.del (ctx * 4096 + kern), pawns := s.clearPawns ctx kern } : State).dropGroups ctx gs).send (distCore 0) chip (distCore 0) .kernelEntryClear (.n2 ctx kern)
    | .n2 ctx kern =>
      match s.nodes.find? fun n => n.ctx == ctx && n.kern == kern && n.typ == 1 && n.st == .complete with
      | some n => if n.acks ≤ 1 then (s.dropNode ctx n.qid n.idx).kickQueue ctx n.qid
        else s.modNode ctx n.qid n.idx fun n => { n with acks := n.acks - 1 }
      | none => s
    | _ => s)

/-! ### Retirement of crews (R138) -/

/-- Whether matrix passes of a crew are outstanding, or a stream fill or copy job still writes its share (R138). -/
def State.crewBusy (s : State) (ck : Nat) : Bool :=
  (s.engines.any fun e => e.2.ops.any fun o => o.ck == ck)
    || ((s.core (coreOfCk ck)).recv.any fun e => e.ck == ck && e.st == .filling)
    || s.jobs.any fun j => j.st != .done && (j.recvs.contains ck || (j.crew == some ck && (match j.desc with
      | some d => d.dspace == 1 || d.bv
      | none => true)))

/-- The slot block, or the slot, that an entry of an event log concerns. -/
def LogE.blockOf : LogE → Option Nat
  | .wake n _ | .answer n _ _ | .tempo none n _ | .tret n _ _ | .probed n _ _ | .line n _ _ => some (n / 32)
  | .bar b _ | .tempo (some b) _ _ => some b
  | .mreply _ _ => none

/-- A save area without what it holds of a slot block. -/
def Save.without (a : Save) (b : Nat) : Save :=
  { thr := a.thr.filter (·.1 / 32 != b), crews := a.crews.filter (·.1 != b), fe := a.fe.filter (·.2.ck % 16 != b), spad := a.spad.filter (·.1 != b)
    empt := a.empt.filter (·.1 != b), priv := a.priv.filter (·.1 != b), recv := a.recv.filter (·.ck % 16 != b), log := a.log.filter (·.blockOf != some b) }

/-- What a save area or the FE lists hold of a crew dropped. -/
def State.forgetCrew (s : State) (ck : Nat) : State :=
  let k := ck % 2 ^ 20
  let s : State := { s with fe := s.fe.filterMap fun x => let l := x.2.filter fun w => w.ck != ck; if l = [] then none else some (x.1, l) }
  if ck < 2 ^ 20 then s
  else
    let area := coreOfCk k * 64 + (ck / 2 ^ 20 - 1)
    match s.saves.get? area with
    | some a => { s with saves := s.saves.set area (a.without (k % 16)) }
    | none => s

/-- A crew's resources released and its retirement reported (R138, R328). -/
def State.retireCrew (s : State) (ck : Nat) : State :=
  let c := (s.crewAny ck).getD Crew.blank
  let core := coreOfCk (ck % 2 ^ 20)
  let s := s.forgetCrew ck
  let gone (j : Job) : Job :=
    let j : Job := { j with recvs := j.recvs.filter (· != ck) }
    if j.crew = some ck then { j with crew := some (2 ^ 40 + ck % 2 ^ 20) } else j
  let s : State := { s with crews := s.crews.del ck, thr := s.thr.filter (fun t => !(ckOfTk t.1 == ck)), jobs := s.jobs.map gone }
  let s := s.modCore core fun x => { x with recv := x.recv.filter (·.ck != ck) }
  let s := s.reportUnit c.ctx c.ktab.toNat core ⟨c.ktab.toNat, 2, c.index.toNat * 32⟩ none
  let s : State := { s with nodes := s.nodes.map fun n => if n.ctx = c.ctx then { n with failed := [] } else n }
  let s := (s.nodes.filter fun n => n.ctx == c.ctx && n.st == .launching && !n.gangIdx.isEmpty).foldl (fun s n => s.askGangs n) s
  s.kickAll.slotFreed core

/-- A crew retired by containment (R433, R138): its operations and jobs go, its barriers and window lose a member, its kernel records the fault. -/
def State.killCrew (s : State) (ck : Nat) (addr : Nat) : State :=
  let c := (s.crewAny ck).getD Crew.blank
  let core := coreOfCk (ck % 2 ^ 20)
  let s := c.memb.foldl (fun s b => s.send core b.chip (distCore 0) .barrierMemberDeparture (.n3 c.ctx b.g b.m)) s
  let s := if c.att = .opening ∨ c.att = .attached then
      let b := c.memb.find? (·.g == c.winG)
      s.send core ((b.map (·.chip)).getD s.chip) (distCore 0) .windowDeparture (.n6 c.ctx c.winG ((b.map (·.m)).getD 0) s.chip core ck)
    else s
  let eng (x : Nat × Engine) : Nat × Engine := (x.1, { x.2 with ops := x.2.ops.filter (·.ck != ck) })
  let s : State := { s with engines := s.engines.map eng, jobs := s.jobs.filter fun j => j.crew != some ck }
  (s.unitFault c.ctx c.ktab.toNat (some ⟨18, W addr, 0⟩)).retireCrew ck

/-- Every member crew of a group on this chip retired, in a bank or in a save area, and its window CLOSED (R433). -/
def State.endGroupHere (s : State) (ctx g addr : Nat) : State :=
  let mine (c : Crew) : Bool := c.ctx == ctx && c.memb.any (·.g == g)
  let saved (x : Nat × Save) : List Nat :=
    if x.1 % 64 = ctx then (x.2.crews.filter fun y => mine y.2).map fun y => savedCk (x.1 / 64) ctx y.1 else []
  let cks := ((s.crews.filter fun x => mine x.2).map (·.1)) ++ s.saves.flatMap saved
  let s := cks.foldl (fun s ck => s.killCrew ck addr) s
  match s.gagents.get? (ctx * 256 + g) with
  | some a => s.setGagent ctx g { a with win := .closed, mem := a.mem.map fun m => { m with att := .departed } }
  | none => s

/-- CREW_RETIRE (R138): tested while the crew's context is active. -/
def execCrewRetire (s : State) : Host.Outcome State Fault Refusal :=
  .next (match s.ev with
    | .n1 ck =>
      match s.crews.get? ck with
      | none => s
      | some c =>
        if !s.ctxActive (coreOfCk ck) c.ctx || ck / 16 % 2 != (s.core (coreOfCk ck)).active then s
        else match c.st with
          | .draining => if s.crewBusy ck then s
            else if c.wmem = [] then s.retireCrew ck else s.modC ck fun c => { c with st := .detaching }
          | .detaching => if c.wmem = [] then s.retireCrew ck else s
          | _ => s
    | _ => s)

/-! ### Gangs (R331, R333) -/

/-- A coordinator starts a round of reservations when every chip's kernel is LAUNCHING, one gang at a time (R333). -/
def State.gangRound (s : State) (ctx g : Nat) (ev : Arg) : State :=
  let a := s.gagent ctx g
  let who := distReader 0 0 0
  match s.groupList ctx 0 g with
  | .error e => s.agentErr (distCore 0) ctx who ⟨.gangReserveAnswer, ev⟩ (fun _ _ => s) e
  | .ok ws =>
  let chips := chipsOf ws
  if !(chips.all fun c => a.ready.contains c) || !a.asking.isEmpty then s
  else if s.gagents.any fun x => !x.2.asking.isEmpty then s.post .gangReserveAnswer ev
  else chips.foldl (fun s c => s.send (distCore 0) c (distCore 0) .gangReserve (.n3 ctx g s.chip))
    (s.setGagent ctx g { a with asking := chips, yes := [], no := [] })

/-- GANG_RESERVE_ANSWER (R333): a chip asks for admission or asks again, once it has answered what it was asked, or answers a reservation; the last
answer commits or releases. -/
def execGangReserveAnswer (s : State) : Host.Outcome State Fault Refusal :=
  .next (match s.ev with
    | .n3 ctx g chip =>
      let a := s.gagent ctx g
      if a.asking.contains chip then s.post .gangReserveAnswer s.ev
      else if a.no = [] ∨ a.no.contains chip = true then
        (s.setGagent ctx g { a with ready := (a.ready ++ [chip]).eraseDups }).gangRound ctx g s.ev
      else s
    | .gang ctx g chip ok _ =>
      let a := s.gagent ctx g
      let a := { a with asking := a.asking.filter (· != chip), yes := if ok then a.yes ++ [chip] else a.yes
                        no := if ok then a.no else a.no ++ [chip] }
      if a.asking ≠ [] then s.setGagent ctx g a
      else if a.no = [] then
        a.yes.foldl (fun s c => s.send (distCore 0) c (distCore 0) .gangCommit (.n2 ctx g))
          ({ s with bagents := s.bagents.del (ctx * 256 + g) }.setGagent ctx g
            { a with admitted := true, ready := [], yes := [], win := .closed, opened := false, mem := [] })
      else a.yes.foldl (fun s c => s.send (distCore 0) c (distCore 0) .gangRelease (.n2 ctx g)) (s.setGagent ctx g { a with yes := [] })
    | _ => s)

/-- The LAUNCHING kernel of this chip that holds a group. -/
def State.holderOf (s : State) (ctx g : Nat) : Option (Node × KDesc) :=
  s.nodes.findSome? fun n => match n.kd with
    | some kd => if n.ctx == ctx && n.st == .launching && kd.groups.contains g then some (n, kd) else none
    | none => none

/-- A chip's members of a gang reserved one after another, in record order; `none` when one does not fit (R333). -/
def State.reserveAll (s : State) (n : Node) (kd : KDesc) (g : Nat) : List (Nat × Nat × Nat × Nat) → Option State
  | [] => some s
  | m :: r =>
    let i := m.2.2.2
    match s.findSpot n.ctx kd i (i % 4) with
    | none => none
    | some p =>
      let v : Resv := { ctx := n.ctx, g := g, m := m.2.1, kern := n.kern, index := i, core := p.core, block := p.block, sp := p.sp, pv := p.pv
                        tiles := p.tiles }
      ({ s with resvs := s.resvs ++ [v] }).reserveAll n kd g r

/-- GANG_RESERVE (R333). A chip whose members are placed or reserved already answers no. -/
def execGangReserve (s : State) : Host.Outcome State Fault Refusal :=
  .next (match s.ev with
    | .n3 ctx g coord =>
      let (ok, s) := match s.holderOf ctx g with
        | none => (false, s)
        | some (n, kd) =>
          let ms := kd.mems.filter fun (m : Nat × Nat × Nat × Nat) => m.1 == g && m.2.2.1 == s.chip
          if (s.ctx ctx).st ≠ CtxSt.live ∨ s.dev.stopped = true ∨ (s.resvs.any fun r => r.ctx == ctx && r.g == g) = true
            ∨ (ms.all fun m => n.gangIdx.contains m.2.2.2) = false then (false, s)
          else match s.reserveAll n kd g ms with
            | some t => (true, t)
            | none => (false, ms.foldl (fun (s : State) (m : Nat × Nat × Nat × Nat) => s.askBank ctx kd m.2.2.2 (m.2.2.2 % 4)) s)
      s.send (distCore 0) coord (distCore 0) .gangReserveAnswer (.gang ctx g s.chip ok [])
    | _ => s)

/-- A member placed from its reservation. -/
def State.placeResv (s : State) (n : Node) (kd : KDesc) (r : Resv) : State :=
  match s.bankOf r.core r.ctx with
  | some b => s.placeCrew n kd r.index ⟨r.core, b, r.block, r.sp, r.pv, r.tiles⟩
  | none => s

/-- GANG_COMMIT (R333): every member is placed from its reservation. -/
def execGangCommit (s : State) : Host.Outcome State Fault Refusal :=
  .next (match s.ev with
    | .n2 ctx g =>
      match s.holderOf ctx g with
      | none => s
      | some (n, kd) =>
        let rs := s.resvs.filter fun r => r.ctx == ctx && r.g == g
        let s := rs.foldl (fun s r => s.placeResv n kd r) { s with resvs := s.resvs.filter fun r => !(r.ctx == ctx && r.g == g) }
        let s := s.modNode ctx n.qid n.idx fun n => { n with gangIdx := n.gangIdx.filter fun i => !(rs.any (·.index == i)) }
        s.launchTest ctx n.qid n.idx
    | _ => s)

/-- GANG_RELEASE (R333). -/
def execGangRelease (s : State) : Host.Outcome State Fault Refusal :=
  .next (match s.ev with
    | .n2 ctx g =>
      let cores := (s.resvs.filter fun r => r.ctx == ctx && r.g == g).map (·.core)
      cores.foldl (fun s c => s.slotFreed c) { s with resvs := s.resvs.filter fun r => !(r.ctx == ctx && r.g == g) }
    | _ => s)

/-- Whether a group entry breaks R330. -/
def GEnt.bad (e : GEnt) : Bool := e.v && ((e.win && !e.gang) || e.nmem == 0 || decide (4096 < e.nmem) || badAddr e.mlist 8)

/-- Whether a member list breaks R330 or has equal records (R331). -/
def listBad (ws : List Nat) : Bool := ws.eraseDups.length != ws.length || ws.any fun w => fld w 47 32 != 0

/-- GROUP_ENTRY_WRITE (R331). -/
def execGroupEntryWrite (s : State) : Host.Outcome State Fault Refusal :=
  .next (match s.ev with
    | .gent ctx g e =>
      if (s.ctx ctx).st = .free then s.answerHost .noContext 0
      else if decide (256 ≤ g) || e.bad || s.groupHeld ctx g then s.answerHost .badGroup 0
      else match (if e.v then s.rdWords ctx 0 true e.mlist e.nmem else .ok []) with
        | .ok ws => if listBad ws then s.answerHost .badGroup 0 else ({ s with groups := s.groups.set (ctx * 256 + g) e }).answerHost .ok 0
        | .error (.wait _ _) => s.answerHost .badGroup 0
        | .error x => s.nyendErr ctx ⟨.groupEntryWrite, s.ev⟩ (fun _ _ => s.answerHost .badGroup 0) x
    | _ => s)

end Sys2Proof.Machine
end

