-- ==== Sys2Proof/Machine/Matrix.lean ====
section
/-! DEFINITION. The matrix engine (11 R261-R280): posted operations, passes and their sums (02 R39), weight images, trees, accumulator moves,
and MWAIT. -/

namespace Sys2Proof.Machine
open Sys2Proof

/-! ### What the engine holds (R261, R262) -/

/-- The cluster of a core (R9). -/
def clOf (core : Nat) : Nat := core / 4
/-- A cluster's engine. -/
def State.engine (s : State) (cl : Nat) : Engine := (s.engines.get? cl).getD Engine.blank
/-- The engine replaced. -/
def State.setEngine (s : State) (cl : Nat) (e : Engine) : State := { s with engines := s.engines.set cl e }
/-- One operation of an engine changed. -/
def State.modOp (s : State) (cl id : Nat) (f : MxOp → MxOp) : State :=
  let e := s.engine cl
  s.setEngine cl { e with ops := e.ops.map fun o => if o.id = id then f o else o }
/-- An event of an engine, waiting at most once. -/
def State.postOnce (s : State) (i : Instr) (a : Arg) : State := if s.agenda.contains ⟨i, a⟩ then s else s.post i a

/-- The crew key while the crew is in a bank; the key of a crew in a save area names its context above bit 20. -/
def inBank (ck : Nat) : Bool := decide (ck < 2 ^ 20)
/-- The core of an operation's crew. -/
def MxOp.core (o : MxOp) : Nat := coreOfCk (o.ck % 2 ^ 20)
/-- The first slot of a context's grant on a cluster, and the number of slots (R262). -/
def State.wgrant (s : State) (ctx cl : Nat) : Nat × Nat := (s.wgrants.get? (ctx * 128 + cl)).getD (0, 0)

/-- The key of byte o of the weight image that begins in a slot. -/
def wtKey (cl slot o : Nat) : Nat := 2 ^ 63 + cl * 2 ^ 23 + slot * 2 ^ 17 + o
/-- The key of element e of a crew's accumulator space. -/
def accKey (cl : Nat) (tiles : List Nat) (e : Nat) : Nat := 2 ^ 62 + cl * 2 ^ 21 + tiles.getD (e / 32768) 0 * 2 ^ 17 + e % 32768 * 4

/-! ### The pass block (R267-R269) -/

/-- The fields of a pass block (R267). -/
structure PBlk where
  m : Nat
  n : Nat
  k : Nat
  asoff : Nat
  aoff : Nat
  asstride : Nat
  astride : Nat
  apitch : Nat
  accoff : Nat
  bnoff : Nat
  bkoff : Nat
  slot : Nat
  col0 : Nat
  row0 : Nat
  rnd : Nat
  accum : Bool
  mfill : Nat
  ofmt : Nat
  afmt : Nat
  deriving DecidableEq, Repr

/-- The block read from its words. -/
def PBlk.ofWords (b : List Nat) : PBlk :=
  let w (i : Nat) : Nat := b.getD i 0
  { m := w 0, n := w 1, k := w 2, asoff := fld (w 3) 50 32, aoff := fld (w 3) 18 0, asstride := fld (w 4) 50 32, astride := fld (w 4) 18 0
    apitch := fld (w 5) 35 24, accoff := fld (w 5) 19 0, bnoff := fld (w 6) 47 32, bkoff := fld (w 6) 31 16, slot := fld (w 6) 5 0
    col0 := fld (w 7) 63 48, row0 := fld (w 7) 47 32, rnd := fld (w 7) 26 24, accum := bit (w 7) 16, mfill := fld (w 7) 13 12
    ofmt := fld (w 7) 10 8, afmt := fld (w 7) 2 0 }

/-- The words a pass-block operation reads (R270, R279). -/
def opWords (op : Nat) : List Nat := if op ≤ 2 then [0, 1, 2, 3, 4, 5, 6, 7] else if op = 3 then [0, 1, 5] else [0, 1, 3, 4, 5, 7]

/-- Bytes of n elements of a format of A, or of an array format (R267, R279). -/
def aBytes (f n : Nat) : Nat := if f = 2 then (n + 1) / 2 else if f = 3 ∨ f = 4 then 2 * n else n
/-- Bytes of n elements of an array format (R279). -/
def oBytes (f n : Nat) : Nat := if f = 0 ∨ f = 6 then 4 * n else if f = 1 ∨ f = 2 then 2 * n else if f = 5 then (n + 1) / 2 else n

/-- Whether a word of a block is outside its stated range (R269, first). -/
def PBlk.badWord (p : PBlk) (b : List Nat) (i : Nat) : Bool :=
  let w := b.getD i 0
  match i with
  | 0 | 1 => decide (w = 0 ∨ 4096 < w)
  | 2 => decide (w = 0 ∨ 65535 < w)
  | 3 | 4 => fld w 63 51 != 0 || fld w 31 19 != 0
  | 5 => fld w 63 36 != 0 || fld w 23 20 != 0 || p.apitch == 0 || decide (p.apitch * 64 < p.n)
  | 6 => fld w 63 48 != 0 || fld w 15 6 != 0
  | _ => fld w 31 27 != 0 || fld w 23 17 != 0 || fld w 15 14 != 0 || bit w 11 || fld w 7 3 != 0 || decide (5 < p.rnd) || decide (5 < p.afmt)

/-- Whether a region of a block leaves its space (R269, third). -/
def State.badRegion (s : State) (c : Crew) (op : Nat) (p : PBlk) : Bool :=
  let pass := decide (op ≤ 2)
  let cols := if pass then p.k else p.n
  let row := if pass then aBytes p.afmt cols else oBytes p.ofmt cols
  let mx := if pass then decide (p.afmt ≤ 2) else decide (3 ≤ p.ofmt ∧ p.ofmt ≤ 5)
  (op != 3 && decide (c.spSize < p.aoff + (p.m - 1) * p.astride + row))
    || (op != 3 && mx && decide (c.spSize < p.asoff + (p.m - 1) * p.asstride + (cols + 31) / 32))
    || decide (c.tiles.length * 32768 < p.accoff + (p.m - 1) * p.apitch * 64 + p.n)
    || (pass && decide ((s.wgrant c.ctx (clOf s.iss.core)).2 ≤ p.slot))

/-- The issue checks of a pass block (R269): the cause and its information value. -/
def State.blockFault (s : State) (c : Crew) (op : Nat) (b : List Nat) : Option (Cause × Nat) :=
  let p := PBlk.ofWords b
  match (opWords op).find? fun i => p.badWord b i with
  | some i => some (.illegalInstr, 0x100 + i)
  | none =>
    if (op != 3 && (p.aoff % 8 != 0 || p.astride % 8 != 0)) || p.accoff % 64 != 0 then some (.misaligned, 0)
    else if decide (op ≤ 2) && p.bkoff % 32 != 0 then some (.illegalInstr, 0x106)
    else if s.badRegion c op p then some (.permission, 0)
    else none

/-! ### Issue (R265, R266) -/

/-- An operation posted by a crew; its ticket's register is locked in every lane until it is accepted. -/
def State.mxPost (s : State) (op treg g la : Nat) (blk : List Nat) : State :=
  let ck := s.ck
  let c := s.C ck
  let cl := clOf s.iss.core
  let id := s.ids
  let need := if op = 6 then ((s.iss.lanes.map (·.tk)).flatMap fun tk =>
      ((s.T tk).pend.filter fun a => a.kind == .store || a.kind == .atom || a.kind == .wb).map fun a => (tk, a.id)) else []
  let o : MxOp :=
    { id := id, op := op, treg := treg, ck := ck, ctx := c.ctx, g := g, blk := blk, seq := c.mseq.toNat, entry := 0, st := .waiting
      issued := (s.engine cl).clock, order := 0, passed := 0, due := 0, need := need, reads := [], got := [], writes := [], ran := false
      cond := 0 }
  let s := (s.fresh.lockG id g la).modC ck fun c => { c with mseq := c.mseq + 1 }
  let e := s.engine cl
  s.setEngine cl { e with ops := e.ops ++ [o] }

/-- The word's chain must be issued by all 32 lanes as one bin (R266). -/
def State.converged (s : State) (k : State → State) : State :=
  if s.iss.lanes.length = 32 then k s else s.failAll .illegalConvergence 0 0

/-- A word with a pass block (R269). -/
def State.passWord (s : State) (op treg sb g la : Nat) : State :=
  s.converged fun s =>
    let b := s.blockOf sb 8
    match s.blockFault (s.C s.ck) op b with
    | some (c, i) => s.failAll c 0 (W i)
    | none => s.mxPost op treg g la b

/-- MMA (R270). -/
def execMma (f : XlgF) (s : State) : Host.Outcome State Fault Refusal :=
  word (.mma f) s fun s => s.passWord 0 0 f.s.toNat f.g.toNat f.l.toNat
/-- MMAM with a causal mask (R271). -/
def execMmamCausal (f : XlgF) (s : State) : Host.Outcome State Fault Refusal :=
  word (.mmamCausal f) s fun s => s.passWord 1 0 f.s.toNat f.g.toNat f.l.toNat
/-- MMAM with a tree (R271). -/
def execMmamTree (f : MmamF) (s : State) : Host.Outcome State Fault Refusal :=
  word (.mmamTree f) s fun s => s.passWord 2 f.t.toNat f.s.toNat f.g.toNat f.l.toNat
/-- ACCZ (R279). -/
def execAccz (f : XlgF) (s : State) : Host.Outcome State Fault Refusal :=
  word (.accz f) s fun s => s.passWord 3 0 f.s.toNat f.g.toNat f.l.toNat
/-- ACCRD (R279). -/
def execAccrd (f : XlgF) (s : State) : Host.Outcome State Fault Refusal :=
  word (.accrd f) s fun s => s.passWord 4 0 f.s.toNat f.g.toNat f.l.toNat
/-- ACCWR (R279). -/
def execAccwr (f : XlgF) (s : State) : Host.Outcome State Fault Refusal :=
  word (.accwr f) s fun s => s.passWord 5 0 f.s.toNat f.g.toNat f.l.toNat

/-- WBLD (R277). -/
def execWbld (f : XlgF) (s : State) : Host.Outcome State Fault Refusal :=
  word (.wbld f) s fun s => s.converged fun s =>
    let b := s.blockOf f.s.toNat 2
    let a := b.getD 0 0
    if b.getD 1 0 / 64 ≠ 0 then s.failAll .illegalInstr 0 0x101
    else if 2 ^ 56 ≤ a then s.failAll .permission (W a) 0
    else if a % 32 ≠ 0 then s.failAll .misaligned (W a) 0
    else if (s.homeAt s.iss.core s.iss.ctx a).isNone then s.failAll .permission (W a) 0
    else s.mxPost 6 0 f.g.toNat f.l.toNat b

/-- WBDROP (R277). -/
def execWbdrop (f : XlgF) (s : State) : Host.Outcome State Fault Refusal :=
  word (.wbdrop f) s fun s => s.converged fun s =>
    let b := s.blockOf f.s.toNat 1
    if b.getD 0 0 / 64 ≠ 0 then s.failAll .illegalInstr 0 0x100 else s.mxPost 7 0 f.g.toNat f.l.toNat b

/-- TMSET (R278). -/
def execTmset (f : XlgF) (s : State) : Host.Outcome State Fault Refusal :=
  word (.tmset f) s fun s => s.converged fun s =>
    let b := s.blockOf f.s.toNat 2
    let off := b.getD 0 0
    let w := b.getD 1 0
    let t := fld w 8 0
    if fld w 63 34 ≠ 0 ∨ fld w 15 9 ≠ 0 ∨ t = 0 ∨ 256 < t ∨ 65536 < fld w 31 16 + t then s.failAll .illegalInstr 0 0x101
    else if off % 8 ≠ 0 then s.failAll .misaligned (W off) 0
    else if (s.C s.ck).spSize < off + 2 * t then s.failAll .permission (W off) 0
    else s.mxPost 8 0 f.g.toNat f.l.toNat b

/-! ### Acceptance (R263) -/

/-- The operation accepted next: the first that waits for neither a free entry nor its crew's earlier ones, or none where one holds the
others back. -/
def acceptPick (clock : Nat) (free : Bool) (held : Nat → Nat) : List Nat → List MxOp → Option MxOp
  | _, [] => none
  | skip, o :: r =>
    if skip.contains o.ck then acceptPick clock free held skip r
    else if !free then none
    else if 4 ≤ held o.ck then acceptPick clock free held (o.ck :: skip) r
    else if clock < o.issued + 2 then none
    else some o

/-- A ticket (R264). -/
def ticket (seq entry : Nat) : Nat := seq % 2 ^ 32 * 256 + entry

/-- g[G] of a crew's lanes and their locks. -/
def State.giveTicket (s : State) (o : MxOp) (v : Nat) : State := s.giveG o.id ((List.range 32).map (laneTk o.ck)) (some (W v))

/-- Acceptance, 2 cycles after issue at the earliest (R273), of the operation whose turn it is. -/
def State.mxAccept (s : State) (cl : Nat) : State :=
  let e := s.engine cl
  let taken := e.ops.filter (·.st != .waiting)
  let free := (List.range 16).filter fun n => !taken.any (·.entry == n)
  let wait := isort (fun (a b : MxOp) =>
    decide (a.issued < b.issued) || (a.issued == b.issued && decide (a.core ≤ b.core))) (e.ops.filter (·.st == .waiting))
  match acceptPick e.clock (!free.isEmpty) (fun ck => (taken.filter (·.ck == ck)).length) [] wait with
  | none => s
  | some o =>
    let n := free.getD (s.pickOf free.length) 0
    let s : State := { s with tick := s.tick + 1 }
    let s := (s.modOp cl o.id fun x => { x with st := .accepted, entry := n, order := s.ids }).fresh
    s.giveTicket o (ticket o.seq n)

/-- MATRIX_OP_ACCEPT (R263). The engine's cycle accepts by itself. -/
def execMatrixOpAccept (s : State) : Host.Outcome State Fault Refusal :=
  .next (match s.ev with
    | .n1 cl => s.mxAccept cl
    | _ => s)

/-! ### Weight images (R276, R277) -/

/-- n bytes of the image that begins in a slot. -/
def State.wtRd (s : State) (cl slot o n : Nat) : Nat := memRdN s.mem (wtKey cl slot o) n

/-- Whether a slot is the head of a VALID image. -/
def Engine.isHead (e : Engine) (a : Nat) : Bool := e.slots.get? a == some (.valid a)

/-- The slots of the images that some slots belong to become EMPTY. -/
def Engine.dropImages (e : Engine) (slots : List Nat) : Engine :=
  let heads := slots.filterMap fun n => match e.slots.get? n with
    | some (.valid h) => some h
    | _ => none
  { e with slots := e.slots.filter fun x => !(match x.2 with | .valid h => heads.contains h | _ => false) }

/-- Slots set to a state. -/
def Engine.setSlots (e : Engine) (slots : List Nat) (w : SlotW) : Engine :=
  { e with slots := slots.foldl (fun t n => if w = .empty then t.del n else t.set n w) e.slots }

/-- Bytes of a half of 16 elements (R276). -/
def halfBytes (fmt : Nat) : Nat := if fmt = 2 then 8 else if fmt = 3 ∨ fmt = 4 then 32 else 16

/-- The offset of the record of block b of a column, from the column's first record. -/
def State.recAt (s : State) (cl slot fmt : Nat) : Nat → Nat → Nat
  | 0, o => o
  | b + 1, o =>
    let pr := s.wtRd cl slot (o + 1) 1
    s.recAt cl slot fmt b (o + 2 + halfBytes fmt * (pr % 2 + pr / 2 % 2))

/-- Whether the records of a column are well formed: within the image, the present byte's reserved bits zero, the scale 0x7f outside MX. -/
def State.colOk (s : State) (cl slot fmt bytes : Nat) : Nat → Nat → Bool
  | 0, _ => true
  | b + 1, o =>
    let pr := s.wtRd cl slot (o + 1) 1
    let o' := o + 2 + halfBytes fmt * (pr % 2 + pr / 2 % 2)
    decide (o' ≤ bytes) && decide (pr < 4) && (decide (fmt ≤ 2) || s.wtRd cl slot o 1 == 0x7f) && s.colOk cl slot fmt bytes b o'

/-- KB, NB, class and length in an image's header. -/
structure ImgHdr where
  kb : Nat
  nb : Nat
  fmt : Nat
  bytes : Nat
  deriving DecidableEq, Repr

/-- The header of the image in a slot. -/
def State.imgHdr (s : State) (cl slot : Nat) : ImgHdr :=
  let w := s.wtRd cl slot 0 8
  ⟨fld w 15 0, fld w 31 16, fld w 34 32, s.wtRd cl slot 8 8⟩

/-- Whether the body of a loaded image is well formed. -/
def State.bodyOk (s : State) (cl slot : Nat) : Bool :=
  let h := s.imgHdr cl slot
  decide (32 + 4 * h.nb ≤ h.bytes) &&
    (List.range h.nb).all fun j => s.colOk cl slot h.fmt h.bytes ((h.kb + 31) / 32) (s.wtRd cl slot (32 + 4 * j) 4)

/-- A value under an E8M0 scale (R22, R39). -/
def FV.scaled (v : FV) (x8 : Nat) : FV :=
  if x8 = 0xff then .nan false else match v with
    | .fin s m e => .fin s m (e + x8 - 127)
    | v => v

/-- The format of a class of A or B (R268). -/
def aFmt (f : Nat) : Fmt := if f = 0 then e4m3F else if f = 1 then e5m2F else if f = 2 then e2m1F else if f = 3 then bf16F else f16F
/-- A code of a class; INT8 is read as an integer. -/
def aVal (f code : Nat) : FV := if f = 5 then (let i := sgn 8 code; .fin (decide (i < 0)) i.natAbs 0) else unpackF (aFmt f) code

/-- Element (k, j) of an image (R276). -/
def State.imgElem (s : State) (cl slot : Nat) (h : ImgHdr) (k j : Nat) : FV :=
  let o := s.recAt cl slot h.fmt (k / 32) (s.wtRd cl slot (32 + 4 * j) 4)
  let pr := s.wtRd cl slot (o + 1) 1
  let half := k / 16 % 2
  let p := o + 2 + (if half = 1 ∧ pr % 2 = 1 then halfBytes h.fmt else 0)
  let e := k % 16
  let v : FV :=
    if !bit pr half then .fin false 0 0
    else if h.fmt = 2 then aVal 2 (s.wtRd cl slot (p + e / 2) 1 / 16 ^ (e % 2) % 16)
    else if h.fmt = 3 ∨ h.fmt = 4 then aVal h.fmt (s.wtRd cl slot (p + 2 * e) 2)
    else aVal h.fmt (s.wtRd cl slot (p + e) 1)
  if h.fmt ≤ 2 then v.scaled (s.wtRd cl slot o 1) else v

/-! ### What a granted operation has read of the share -/

/-- Byte x of the share as the operation read it. -/
def gotB (got : Tab Nat) (x : Nat) : Nat := (got.get? (x / 8)).getD 0 / 256 ^ (x % 8) % 256
/-- n bytes. -/
def gotN (got : Tab Nat) (x : Nat) : Nat → Nat
  | 0 => 0
  | n + 1 => gotB got x + 256 * gotN got (x + 1) n
/-- The words that n bytes from an offset lie in. -/
def spanW (a n : Nat) : List Nat := if n = 0 then [] else (List.range ((a + n - 1) / 8 + 1 - a / 8)).map (· + a / 8)

/-- The words of the share that an operation reads. -/
def MxOp.readSet (o : MxOp) : List Nat :=
  let p := PBlk.ofWords o.blk
  let rows (row sc : Nat) (mx : Bool) : List Nat :=
    ((List.range p.m).flatMap fun i => spanW (p.aoff + i * p.astride) row ++
      (if mx then spanW (p.asoff + i * p.asstride) sc else [])).eraseDups
  if o.op ≤ 2 then rows (aBytes p.afmt p.k) ((p.k + 31) / 32) (decide (p.afmt ≤ 2))
  else if o.op = 5 then rows (oBytes p.ofmt p.n) ((p.n + 31) / 32) (decide (3 ≤ p.ofmt ∧ p.ofmt ≤ 5))
  else if o.op = 8 then spanW (o.blk.getD 0 0) (2 * fld (o.blk.getD 1 0) 8 0)
  else []

/-! ### Status bits (R274) -/

def mInvalid : BitVec 16 := 1
def mOverflow : BitVec 16 := 2
def mNanIn : BitVec 16 := 4
def mNoSlot : BitVec 16 := 0x80
def mBounds : BitVec 16 := 0x100
def mBadImage : BitVec 16 := 0x200
def mFault : BitVec 16 := 0x400
def mFormat : BitVec 16 := 0x800
def mTree : BitVec 16 := 0x1000
/-- A status bit when a condition holds. -/
def mIf (c : Bool) (b : BitVec 16) : BitVec 16 := if c then b else 0

/-- Whether a binary32 code is a NaN. -/
def isNan32 (x : Nat) : Bool := (unpackF f32F x).isNan

/-! ### Passes (R39, R270, R271) -/

/-- The class of a format (R268): E4M3 and E5M2 are one. -/
def fmtClass (f : Nat) : Nat := if f = 1 then 0 else f

/-- Whether an element is visible under a tree (R271); the number bounds the ancestors. -/
def ancestor (par : List Nat) (y : Nat) : Nat → Nat → Bool
  | 0, _ => false
  | n + 1, x => if x = y then true else
    let z := par.getD x 0xffff
    if z = 0xffff then false else ancestor par y n z

/-- Visible of R271. -/
def visible (tree : Option TreeR) (p c : Nat) : Bool :=
  match tree with
  | none => decide (c ≤ p)
  | some t =>
    if p < t.p then decide (c ≤ p)
    else if t.p + t.par.length ≤ p ∨ t.p + t.par.length ≤ c then false
    else if c < t.p then true
    else ancestor t.par (c - t.p) (t.par.length + 1) (p - t.p)

/-- The fill value of a masked element (R267). -/
def fillOf (m : Nat) : Nat := if m = 0 then 0xff800000 else if m = 1 then 0 else 0xff7fffff

/-- Element (i, k) of A as read (R267). -/
def MxOp.aElem (o : MxOp) (p : PBlk) (i k : Nat) : FV :=
  let r := p.aoff + i * p.astride
  let v := if p.afmt = 2 then aVal 2 (gotB o.got (r + k / 2) / 16 ^ (k % 2) % 16)
    else if p.afmt = 3 ∨ p.afmt = 4 then aVal p.afmt (gotN o.got (r + 2 * k) 2)
    else aVal p.afmt (gotB o.got (r + k))
  if p.afmt ≤ 2 then v.scaled (gotB o.got (p.asoff + i * p.asstride + k / 32)) else v

/-- One group of 16 added to an element (R39), with the conditions it sets. DESIGN CHOICE (log 51): a group whose products are all -0 sums to -0. -/
def groupStep (acc : Nat) (ps : List (FV × FV)) : Nat × BitVec 16 :=
  let prods := ps.map fun x => mulFV x.1 x.2
  let nan := ps.any fun x => x.1.isNan || x.2.isNan
  let inv := prods.any (·.2)
  let vs := prods.map (·.1)
  let opp := vs.contains (.inf false) && vs.contains (.inf true)
  let r := sumF f32F 1 0 vs inv
  let t := addF f32F 1 0 acc r.bits
  (t.bits, mIf nan mNanIn ||| mIf (inv || opp) mInvalid ||| mIf (r.fl &&& fOverflow != 0 || t.fl &&& fOverflow != 0) mOverflow
    ||| mIf (t.fl &&& fInvalid != 0 && !isNan32 acc && !isNan32 r.bits) mInvalid)

/-- The sum of one element: groups of 16 along K (R39). -/
def sumGroups (a b : Nat → FV) (k : Nat) (acc : Nat) (st : BitVec 16) : Nat × BitVec 16 :=
  (List.range ((k + 15) / 16)).foldl (fun x g =>
    let r := groupStep x.1 ((List.range (min 16 (k - 16 * g))).map fun i => (a (16 * g + i), b (16 * g + i)))
    (r.1, x.2 ||| r.2)) (acc, st)

/-- The integer sum of an INT8 pass, wrapped (R270). -/
def sumInt (a b : Nat → FV) (k acc : Nat) : Nat :=
  wrapI 32 ((List.range k).foldl (fun x i => x + sumAt 0 [a i] * sumAt 0 [b i]) (sgn 32 acc))

/-- The tree a pass uses: `none` for a causal mask. -/
def MxOp.tree (o : MxOp) (e : Engine) : Option TreeR := if o.op = 2 then e.trees[o.treg]? else none

/-- An element of a pass. -/
def State.passElem (s : State) (cl slot : Nat) (h : ImgHdr) (o : MxOp) (tree : Option TreeR) (tiles : List Nat) (x : BitVec 16) (i j : Nat) :
    State × BitVec 16 :=
  let p := PBlk.ofWords o.blk
  let key := accKey cl tiles (p.accoff + i * p.apitch * 64 + j)
  if o.op ≠ 0 ∧ visible tree (p.row0 + i) (p.col0 + j) = false then (if p.mfill = 3 then s else s.wrMem key 4 (fillOf p.mfill), x)
  else
    let c := if p.accum then memRdN s.mem key 4 else 0
    let b (k : Nat) : FV := s.imgElem cl slot h (p.bkoff + k) (p.bnoff + j)
    if p.afmt = 5 then (s.wrMem key 4 (sumInt (o.aElem p i) b p.k c), x)
    else
      let r := sumGroups (o.aElem p i) b p.k c (x ||| mIf (isNan32 c) mNanIn)
      (s.wrMem key 4 r.1, r.2)

/-- The elements of an M × N region in turn. -/
def eachElem (m n : Nat) (f : State → BitVec 16 → Nat → Nat → State × BitVec 16) (s : State) : State × BitVec 16 :=
  (List.range m).foldl (fun a i => (List.range n).foldl (fun a j => f a.1 a.2 i j) a) (s, 0)

/-- The conditions of [12:7] of a pass, tested when it is granted (R274). -/
def State.passConds (s : State) (cl : Nat) (o : MxOp) : BitVec 16 :=
  let p := PBlk.ofWords o.blk
  let e := s.engine cl
  let a := (s.wgrant o.ctx cl).1 + p.slot
  let t := if o.op = 2 then (match e.trees[o.treg]? with
    | some t => t.ctx != some o.ctx
    | none => true) else false
  mIf t mTree |||
    (if (s.wgrant o.ctx cl).2 ≤ p.slot ∨ e.isHead a = false then mNoSlot
     else
      let h := s.imgHdr cl a
      mIf (fmtClass p.afmt != fmtClass h.fmt) mFormat ||| mIf (decide (h.kb < p.bkoff + p.k ∨ h.nb < p.bnoff + p.n)) mBounds)

/-! ### Accumulator moves (R279) -/

/-- MxScale of R35. -/
def mxScale (F : Fmt) (vs : List Nat) : Nat :=
  let u := vs.map (unpackF f32F)
  if u.any fun v => match v with | .fin _ _ _ => false | _ => true then 0xff else
  let l := u.filterMap fun v => match v with | .fin _ m e => (if m = 0 then none else some (leadExp m e)) | _ => none
  match l with
  | [] => 0
  | x :: r =>
    let emax : Int := if F = e4m3F then 8 else if F = e5m2F then 15 else 2
    (max (-127) (min 127 (r.foldl max x - emax)) + 127).toNat

/-- One array element that is not MX: its bits (R279), with conditions. -/
def rdElem (f mode v : Nat) : Nat × BitVec 16 :=
  if f = 0 ∨ f = 6 then (v, mIf (f == 0 && isNan32 v) mNanIn)
  else if f = 7 then
    let i := sgn 32 v
    let x := max (-128) (min 127 i)
    (wrapI 8 x, mIf (x != i) mOverflow)
  else
    let r := convF (if f = 1 then bf16F else f16F) mode 0 (unpackF f32F v)
    (r.bits, mIf (isNan32 v) mNanIn ||| mIf (r.fl &&& fOverflow != 0) mOverflow)

/-- Bits of an array element. -/
def oBits (f : Nat) : Nat := if f = 0 ∨ f = 6 then 32 else if f = 1 ∨ f = 2 then 16 else if f = 5 then 4 else 8

/-- n bits at bit position p of the share, as writes of words. -/
def bitWrite (p n v : Nat) : Nat × Nat × Nat := (p / 64, (2 ^ n - 1) * 2 ^ (p % 64), v % 2 ^ n * 2 ^ (p % 64))

/-- Writes to one word joined. -/
def joinWrites (l : List (Nat × Nat × Nat)) : List (Nat × Nat × Nat) :=
  l.foldl (fun r x => match r with
    | (k, m, v) :: t => if k = x.1 then (k, m ||| x.2.1, v ||| x.2.2) :: t else x :: r
    | [] => [x]) [] |>.reverse

/-- Writes joined by their words, the later of two that write one bit standing: a word that they write completely becomes FULL (R175). -/
def joinWords (l : List (Nat × Nat × Nat)) : List (Nat × Nat × Nat) :=
  l.foldl (fun (t : Tab (Nat × Nat)) x => match Tab.get? t x.1 with
    | some (m, v) => Tab.set t x.1 (m ||| x.2.1, (v ^^^ (v &&& x.2.1)) ||| x.2.2)
    | none => Tab.set t x.1 x.2) []

/-- The writes of row i of ACCRD, with conditions (R279). DESIGN CHOICE (log 51): R35 sets FLAGS.INVALID for a block with an infinity or a signalling
NaN, and the engine writes no FLAGS; its status shows only NANIN and OVERFLOW for the move. -/
def rowWrites (p : PBlk) (i : Nat) (vs : List Nat) : List (Nat × Nat × Nat) × BitVec 16 :=
  let mode := max 1 p.rnd
  let w := oBits p.ofmt
  let at_ (j : Nat) : Nat := 8 * (p.aoff + i * p.astride) + w * j
  if 3 ≤ p.ofmt ∧ p.ofmt ≤ 5 then
    let F := mxF (p.ofmt - 3)
    (List.range ((p.n + 31) / 32)).foldl (fun a b =>
      let blk := (vs.drop (32 * b)).take 32
      let x := mxScale F (blk ++ List.replicate (32 - blk.length) 0)
      let es := blk.map fun v => narrowScaled F mode 0 v x
      let st := mIf (blk.any isNan32) mNanIn ||| mIf (es.any fun r => r.fl &&& fOverflow != 0) mOverflow
      (a.1 ++ [bitWrite (8 * (p.asoff + i * p.asstride + b)) 8 x]
        ++ joinWrites (es.mapIdx fun j r => bitWrite (at_ (32 * b + j)) w r.bits), a.2 ||| st)) ([], 0)
  else
    let es := vs.map (rdElem p.ofmt mode)
    (joinWrites (es.mapIdx fun j r => bitWrite (at_ j) w r.1), es.foldl (fun st r => st ||| r.2) 0)

/-- The value of an array element for ACCWR, with conditions. -/
def MxOp.arrElem (o : MxOp) (p : PBlk) (i j : Nat) : Nat × BitVec 16 :=
  let r := p.aoff + i * p.astride
  match p.ofmt with
  | 0 => (let v := gotN o.got (r + 4 * j) 4; (v, mIf (isNan32 v) mNanIn))
  | 6 => (gotN o.got (r + 4 * j) 4, 0)
  | 7 => (wrapI 32 (sgn 8 (gotB o.got (r + j))), 0)
  | 1 | 2 =>
    let x := convF f32F 1 0 (unpackF (if p.ofmt = 1 then bf16F else f16F) (gotN o.got (r + 2 * j) 2))
    (x.bits, mIf (isNan32 x.bits) mNanIn)
  | f =>
    let x8 := gotB o.got (p.asoff + i * p.asstride + j / 32)
    let code := if f = 5 then gotB o.got (r + j / 2) / 16 ^ (j % 2) % 16 else gotB o.got (r + j)
    let x := convF f32F 1 0 ((unpackF (mxF (f - 3)) code).scaled x8)
    (x.bits, mIf (isNan32 x.bits) mNanIn ||| mIf (x.fl &&& fOverflow != 0) mOverflow)

/-- An element of ACCWR. -/
def State.moveIn (s : State) (cl : Nat) (o : MxOp) (tiles : List Nat) (st : BitVec 16) (i j : Nat) : State × BitVec 16 :=
  let p := PBlk.ofWords o.blk
  let key := accKey cl tiles (p.accoff + i * p.apitch * 64 + j)
  let x := o.arrElem p i j
  let st := st ||| x.2
  if !p.accum then (s.wrMem key 4 x.1, st)
  else
    let c := memRdN s.mem key 4
    if p.ofmt = 6 ∨ p.ofmt = 7 then (s.wrMem key 4 ((c + x.1) % 2 ^ 32), st)
    else
      let r := addF f32F 1 0 c x.1
      (s.wrMem key 4 r.bits, st ||| mIf (isNan32 c) mNanIn ||| mIf (r.fl &&& fOverflow != 0) mOverflow
        ||| mIf (r.fl &&& fInvalid != 0 && !isNan32 c && !isNan32 x.1) mInvalid)

/-! ### Grants (R272, R273) -/

/-- The unit of an operation: 0 the array, 1 the loader. -/
def MxOp.unit (o : MxOp) : Nat := if o.op = 6 ∨ o.op = 7 then 1 else 0

/-- The absolute slots that a WBLD may write, before its header is known: to the end of the grant (R272). -/
def State.loadRange (s : State) (cl : Nat) (o : MxOp) : List Nat :=
  let g := s.wgrant o.ctx cl
  (List.range (g.2 - o.blk.getD 1 0)).map (· + g.1 + o.blk.getD 1 0)

/-- Whether a slot is LOADING: in a loading image, or in reach of a granted WBLD whose header is not read. -/
def State.slotLoading (s : State) (cl a : Nat) : Bool :=
  (match (s.engine cl).slots.get? a with | some (.loading _) => true | _ => false)
    || (s.engine cl).ops.any fun o => o.op == 6 && o.st == .granted && !o.ran && (s.loadRange cl o).contains a

/-- The absolute slot that a pass names. -/
def State.passSlot (s : State) (cl : Nat) (o : MxOp) : Nat := (s.wgrant o.ctx cl).1 + (PBlk.ofWords o.blk).slot

/-- Whether an accepted operation may be granted (R272). -/
def State.eligible (s : State) (cl : Nat) (o : MxOp) : Bool :=
  let ops := (s.engine cl).ops
  let older := ops.filter fun x => x.st != .waiting && decide (x.order < o.order)
  let passes := older.filter (·.op ≤ 2)
  o.st == .accepted && inBank o.ck && s.ctxActive o.core o.ctx && bankOfTk (laneTk o.ck 0) == (s.core o.core).active
    && !(ops.any fun x => x.ck == o.ck && decide (x.id < o.id))
    && (if o.op ≤ 2 then !s.slotLoading cl (s.passSlot cl o)
        else if o.op = 6 then !(passes.any fun x => (s.loadRange cl o).contains (s.passSlot cl x)) && s.needDone o.need
        else if o.op = 7 then
          let a := (s.wgrant o.ctx cl).1 + o.blk.getD 0 0
          !(passes.any fun x => (s.engine cl).slots.get? (s.passSlot cl x) == some (.valid a))
        else true)

/-- The priority of an operation's partition. -/
def State.prioOf (s : State) (o : MxOp) : Nat := (s.partOf o.ctx).prio

/-- The choice of a unit among eligible entries (R272). -/
def State.grantPick (s : State) (cl unit : Nat) : Option MxOp :=
  let el := isort (fun (a b : MxOp) => decide (a.order ≤ b.order)) ((s.engine cl).ops.filter fun o => o.unit == unit && s.eligible cl o)
  match el.find? fun o => decide (16 ≤ o.passed) with
  | some o => some o
  | none => match el with
    | [] => none
    | o :: r => some (r.foldl (fun m x => if s.prioOf m < s.prioOf x then x else m) o)

/-- Cycles of a granted operation (R273). -/
def opCycles (o : MxOp) : Nat :=
  let p := PBlk.ofWords o.blk
  if o.op ≤ 2 then 8 + (p.m + 31) / 32 * ((p.n + 63) / 64) * ((p.k + (if p.afmt = 2 then 31 else if p.afmt = 3 ∨ p.afmt = 4 then 7 else 15))
    / (if p.afmt = 2 then 32 else if p.afmt = 3 ∨ p.afmt = 4 then 8 else 16))
  else if o.op = 3 then 4 + p.m * ((p.n + 63) / 64)
  else if o.op ≤ 5 then 8 + p.m * ((oBytes p.ofmt p.n + 255) / 256)
  else if o.op = 8 then 8 + fld (o.blk.getD 1 0) 8 0
  else 1

/-- The clock of a cluster's engine: the cluster's cycles (R261). -/
def State.mxClock (s : State) (cl : Nat) : Nat := (s.engine cl).clock

/-- The slots of an image of some length that a WBLD writes, within its grant. -/
def State.loadSlots (s : State) (cl : Nat) (o : MxOp) (bytes : Nat) : List Nat :=
  (s.loadRange cl o).take (max 1 ((bytes + 131071) / 131072))

/-- An operation granted: what it has to read is set out; a pass with a condition of [12:7] has no effect (R274); the first slot
of a WBLD is LOADING, and an image that it overlaps is gone (R277). -/
def State.grantOp (s : State) (cl : Nat) (o : MxOp) : State :=
  let cond := if o.op ≤ 2 then s.passConds cl o else 0
  let e := s.engine cl
  let upd (x : MxOp) : MxOp :=
    if x.id = o.id then { x with st := .granted, due := s.mxClock cl + opCycles o, cond := cond, ran := cond != 0
                                 reads := if cond ≠ 0 then [] else if o.op = 6 then [o.blk.getD 0 0] else o.readSet }
    else if x.st = .accepted ∧ x.order < o.order then { x with passed := x.passed + 1 } else x
  let e : Engine := { e with ops := e.ops.map upd }
  let ls := if o.op = 6 then s.loadSlots cl o 1 else []
  (s.setEngine cl ((e.dropImages ls).setSlots ls (.loading ((s.wgrant o.ctx cl).1 + o.blk.getD 1 0)))).post .matrixOpComplete (.n3 cl o.id 0)

/-- MATRIX_OP_GRANT (R272): each idle unit grants one eligible entry. -/
def State.mxGrant (s : State) (cl : Nat) : State :=
  [0, 1].foldl (fun (s : State) u =>
    if (s.engine cl).ops.any fun o => o.unit == u && o.st == .granted then s
    else match s.grantPick cl u with
      | some o => s.grantOp cl o
      | none => s) s

/-- MATRIX_OP_GRANT (R272). The engine's cycle grants by itself. -/
def execMatrixOpGrant (s : State) : Host.Outcome State Fault Refusal :=
  .next (match s.ev with
    | .n1 cl => s.mxGrant cl
    | _ => s)

/-! ### MWAIT (R275) -/

/-- Whether an operation is covered: every one, or those at or before a SEQ by their difference as signed. -/
def coveredBy (thru : Option Nat) (o : MxOp) : Bool :=
  match thru with
  | none => true
  | some q => decide (sgn 32 ((o.seq + 2 ^ 32 - q) % 2 ^ 32) ≤ 0)

/-- Whether a crew's covered operations are all COMPLETE. -/
def State.mwaitOver (s : State) (ck : Nat) (thru : Option Nat) (upto : Nat) : Bool :=
  !((s.engine (clOf (coreOfCk ck))).ops.any fun o => o.ck == ck && decide (o.id < upto) && coveredBy thru o)

/-- The status register returned and cleared, and the lanes go on. -/
def State.mwaitEnds (s : State) (ck sb : Nat) : State :=
  let v := (s.C ck).mstat
  let s := s.modC ck fun c => { c.setS sb (v.setWidth 64) with mstat := 0 }
  (List.range 32).foldl (fun s l =>
    match (s.T (laneTk ck l)).wait with
    | .mwait _ _ => if (s.T (laneTk ck l)).st = .blocked then s.wake (laneTk ck l) else s
    | _ => s) s

/-- The crew's MWAIT is tested. -/
def State.mwaitTest (s : State) (ck : Nat) : State :=
  match (s.T (laneTk ck 0)).wait with
  | .mwait thru sb => if s.mwaitOver ck thru s.ids then s.mwaitEnds ck sb else s
  | _ => s

/-- An MWAIT issued. -/
def State.mwaitWord (s : State) (thru : Option Nat) (sb : Nat) : State :=
  s.converged fun s => if s.mwaitOver s.ck thru s.ids then s.mwaitEnds s.ck sb
    else s.eachLane fun s l => s.block l.tk (.mwait thru sb)

/-- MWAIT (R275). -/
def execMwait (f : XsF) (s : State) : Host.Outcome State Fault Refusal :=
  word (.mwait f) s fun s => s.mwaitWord none f.s.toNat
/-- MWAIT.thru (R275): the ticket is the lowest lane's. -/
def execMwaitThru (f : XgF) (s : State) : Host.Outcome State Fault Refusal :=
  word (.mwaitThru f) s fun s => s.mwaitWord (some (bits ((s.rT s.lowLane.tk).gr f.g.toNat) 39 8)) f.s.toNat

/-! ### Completion (R263, R274) -/

/-- An operation is COMPLETE. -/
def State.mxComplete (s : State) (cl : Nat) (o : MxOp) (cond : BitVec 16) : State :=
  let e := s.engine cl
  let s := s.setEngine cl { e with ops := e.ops.filter (·.id != o.id) }
  let s := if (s.crews.get? o.ck).isSome then (s.modC o.ck fun c => { c with mstat := c.mstat ||| cond }).mwaitTest o.ck else s
  if (s.C o.ck).st = .draining ∨ (s.C o.ck).st = .detaching then s.post .crewRetire (.n1 o.ck) else s

/-- A WBLD ends with BADIMAGE or FAULT (R277): its slots become EMPTY. -/
def State.wbldFails (s : State) (cl : Nat) (o : MxOp) (cond : BitVec 16) : State :=
  let e := s.engine cl
  let a := (s.wgrant o.ctx cl).1 + o.blk.getD 1 0
  (s.setEngine cl { e with slots := e.slots.filter fun x => !(x.2 == .loading a) }).mxComplete cl o cond

/-- The header of a WBLD's image has been read: its slots are LOADING and the rest of the image is to be read (R276, R277). -/
def State.wbldHeader (s : State) (cl : Nat) (o : MxOp) (w : List Nat) : State :=
  let w0 := w.getD 0 0
  let bytes := w.getD 1 0
  let kb := fld w0 15 0
  let nb := fld w0 31 16
  let e := s.engine cl
  let a := (s.wgrant o.ctx cl).1 + o.blk.getD 1 0
  let ls := s.loadSlots cl o bytes
  let s := s.setEngine cl ((e.dropImages ls).setSlots ls (.loading a))
  let ok := decide (1 ≤ kb ∧ 1 ≤ nb ∧ nb ≤ 4096 ∧ fld w0 34 32 ≤ 5 ∧ fld w0 63 35 = 0 ∧ bytes % 32 = 0 ∧ 32 ≤ bytes ∧ bytes ≤ 2 ^ 23)
    && w.getD 2 0 == 0 && w.getD 3 0 == 0 && decide ((bytes + 131071) / 131072 ≤ (s.loadRange cl o).length)
  if !ok then s.wbldFails cl o mBadImage
  else
    let ea := o.blk.getD 0 0
    let first := min bytes (128 - ea % 128)
    let rest := (List.range ((bytes - first + 127) / 128)).map fun i => ea + first + 128 * i
    ((s.modOp cl o.id fun x => { x with ran := true, reads := ea :: rest, due := max x.due (s.mxClock cl + (bytes + 255) / 256) }).wrMem
      (wtKey cl a 0) 16 (w0 + 2 ^ 64 * bytes)).post .matrixOpComplete (.n3 cl o.id 0)

/-- A WBLD as a reader of memory (R382). -/
def State.wbldReader (s : State) (o : MxOp) : Reader :=
  { core := o.core, code := 2, kern := (s.C o.ck).ktab.toNat, tkind := 2, number := (s.C o.ck).index.toNat * 32, info := o.seq }

/-- A read of a WBLD refused: containment for an uncorrectable error (R433), else FAULT (R277). -/
def State.wbldBad (s : State) (cl : Nat) (o : MxOp) (c : Cause) (a : Nat) : State :=
  if c = .uncorrectable then s.killCrew o.ck a else s.wbldFails cl o mFault

/-- A line of a WBLD's image read and written to its slot; a page not present holds the line's read, with one record a page (R277). -/
def State.wbldLine (s : State) (cl : Nat) (o : MxOp) (ea fail : Nat) : State :=
  let ea0 := o.blk.getD 0 0
  let a := (s.wgrant o.ctx cl).1 + o.blk.getD 1 0
  let n := min (128 - ea % 128) (s.wtRd cl a 8 8 - (ea - ea0))
  let ev : Ev := ⟨.matrixOpComplete, .n4 cl o.id ea 0⟩
  match s.rdA o.ctx fail false ea n with
  | .error (.wait key a) =>
    let first := !(o.writes.any fun x => x.2.1 == key)
    let s := s.modOp cl o.id fun x => { x with writes := (ea, key, 0) :: x.writes.filter fun y => y.1 != ea }
    if first then (s.holdAt key ev).heldRec o.ctx s.chip key a (s.wbldReader o) else s.holdAt key ev
  | .error e => s.agentErr o.core o.ctx (s.wbldReader o) ev (s.wbldBad cl o) e
  | .ok v =>
    let upd (x : MxOp) : MxOp := { x with writes := x.writes.filter fun y => y.1 != ea }
    ((s.modOp cl o.id upd).wrMem (wtKey cl a (ea - ea0)) n v).postOnce .matrixOpComplete (.n3 cl o.id 0)

/-- The next step of a WBLD: its header, or one line of the image, in any order. -/
def State.wbldStep (s : State) (cl : Nat) (o : MxOp) (fail : Nat) : State :=
  let again (s : State) : State := s.postOnce .matrixOpComplete (.n3 cl o.id 0)
  if !o.ran then match s.rdWords o.ctx fail false (o.blk.getD 0 0) 4 with
    | .error e => s.agentErr o.core o.ctx (s.wbldReader o) ⟨.matrixOpComplete, .n3 cl o.id 0⟩ (s.wbldBad cl o) e
    | .ok w => s.wbldHeader cl o w
  else if o.reads = [] then s
  else
    let i := s.pickOf o.reads.length
    let ea := o.reads.getD i 0
    let s : State := { s with tick := s.tick + 1 }
    let upd (x : MxOp) : MxOp := { x with reads := x.reads.eraseIdx i }
    let s := (s.modOp cl o.id upd).post .matrixOpComplete (.n4 cl o.id ea 0)
    if o.reads.length = 1 then s else again s

/-- The effect of an operation that has read everything, on the accumulators, slots and trees; ACCRD has its writes set out. -/
def State.mxRun (s : State) (cl : Nat) (o : MxOp) : State :=
  let p := PBlk.ofWords o.blk
  let tiles := (s.C o.ck).tiles
  let e := s.engine cl
  let done (r : State × BitVec 16) : State := r.1.modOp cl o.id fun x => { x with ran := true, cond := r.2 }
  match o.op with
  | 3 => done (eachElem p.m p.n (fun s st i j => (s.wrMem (accKey cl tiles (p.accoff + i * p.apitch * 64 + j)) 4 0, st)) s)
  | 4 =>
    let rs := (List.range p.m).map fun i =>
      rowWrites p i ((List.range p.n).map fun j => memRdN s.mem (accKey cl tiles (p.accoff + i * p.apitch * 64 + j)) 4)
    s.modOp cl o.id fun x => { x with ran := true, writes := joinWords (rs.flatMap (·.1)), cond := rs.foldl (fun c r => c ||| r.2) 0 }
  | 5 => done (eachElem p.m p.n (fun s st i j => s.moveIn cl o tiles st i j) s)
  | 7 =>
    let a := (s.wgrant o.ctx cl).1 + o.blk.getD 0 0
    done (s.setEngine cl (if o.blk.getD 0 0 < (s.wgrant o.ctx cl).2 && e.isHead a then e.dropImages [a] else e), 0)
  | 8 =>
    let w := o.blk.getD 1 0
    let par := (List.range (fld w 8 0)).map fun t => gotN o.got (o.blk.getD 0 0 + 2 * t) 2
    let ok := par.zipIdx.all fun x => x.1 == 0xffff || decide (x.1 < x.2)
    let t : TreeR := if ok then ⟨some o.ctx, fld w 31 16, par⟩ else ⟨none, 0, []⟩
    done (s.setEngine cl { e with trees := e.trees.set (fld w 33 32) t }, mIf (!ok) mTree)
  | _ =>
    let a := s.passSlot cl o
    done (eachElem p.m p.n (fun s st i j => s.passElem cl a (s.imgHdr cl a) o (o.tree e) tiles st i j) s)

/-- One access of a granted operation to its crew's share, or its computation, or its end (R280). -/
def State.mxStep (s : State) (cl : Nat) (o : MxOp) : State :=
  let again (s : State) : State := s.post .matrixOpComplete (.n3 cl o.id 0)
  if o.reads ≠ [] then
    let i := s.pickOf o.reads.length
    let k := o.reads.getD i 0
    let s : State := { s with tick := s.tick + 1 }
    if s.poisoned (spadKey o.core ((s.C o.ck).spBase + 8 * k)) 8 then s.killCrew o.ck (8 * k) else
    again (s.modOp cl o.id fun x => { x with reads := x.reads.eraseIdx i, got := x.got.set k (s.shareRd o.ck (8 * k) 8) })
  else if !o.ran then again (s.mxRun cl o)
  else if o.writes ≠ [] then
    let i := s.pickOf o.writes.length
    let w := o.writes.getD i (0, 0, 0)
    let s : State := { s with tick := s.tick + 1 }
    let old := s.shareRd o.ck (8 * w.1) 8
    let m := (List.range 8).foldl (fun m b => if w.2.1 / 256 ^ b % 256 = 0 then m else m + 2 ^ b) 0
    let v := (old ^^^ (old &&& w.2.1)) ||| w.2.2
    let s := s.modOp cl o.id fun x => { x with writes := x.writes.eraseIdx i }
    let whole := decide (w.2.1 = 2 ^ 64 - 1)
    again (if m = 255 && !whole then (s.wrShareG o.ck (8 * w.1) v 15 0 none).wrShareG o.ck (8 * w.1) v 240 0 none
      else s.wrShareG o.ck (8 * w.1) v m 0 none)
  else if s.mxClock cl < o.due then again s
  else s.mxComplete cl o o.cond

/-- A WBLD that has read its whole image (R277). -/
def State.wbldEnd (s : State) (cl : Nat) (o : MxOp) : State :=
  let a := (s.wgrant o.ctx cl).1 + o.blk.getD 1 0
  if s.mxClock cl < o.due then s.post .matrixOpComplete (.n3 cl o.id 0)
  else if !s.bodyOk cl a then s.wbldFails cl o mBadImage
  else
    let e := s.engine cl
    (s.setEngine cl { e with slots := e.slots.map fun x => if x.2 = .loading a then (x.1, .valid a) else x }).mxComplete cl o 0

/-- Whether no line of a WBLD is still being read. -/
def State.wbldRead (s : State) (cl : Nat) (o : MxOp) : Bool :=
  let line (e : Ev) : Bool := e.i == .matrixOpComplete && (match e.a with
    | .n4 c i _ _ => c == cl && i == o.id
    | _ => false)
  o.writes.isEmpty && !(s.agenda.any line || s.asks.any fun x => line x.ev)

/-- The rest of an operation's accesses, its computation and its end, at once. -/
def State.mxRush (cl id : Nat) : Nat → State → State
  | 0, s => s
  | n + 1, s =>
    match (s.engine cl).ops.find? fun o => o.id == id && o.st == .granted with
    | none => s
    | some o =>
      let s : State := { s with agenda := s.agenda.filter fun e => !(e == (⟨.matrixOpComplete, .n3 cl id 0⟩ : Ev)) }
      State.mxRush cl id n (s.mxStep cl o)

/-- A cycle of a cluster's engine, after its cores' ranks (R176): an operation whose cycles are done is COMPLETE (R273), waiting ones are accepted
(R263), and each idle unit grants (R272). -/
def State.mxCycle (s : State) (cl : Nat) : State :=
  let e := s.engine cl
  let s := s.setEngine cl { e with clock := e.clock + 1 }
  let done := (s.engine cl).ops.filter fun o => o.st == .granted && o.op != 6 && decide (o.due ≤ s.mxClock cl)
  let s := done.foldl (fun s o =>
    let p := PBlk.ofWords o.blk
    s.mxRush cl o.id (o.reads.length + p.m * (p.n + 8) + 8)) s
  let s := (List.range 16).foldl (fun s _ => s.mxAccept cl) s
  if (s.engine cl).ops.any (·.st == .accepted) then s.mxGrant cl else s

/-- MATRIX_OP_COMPLETE (R263, R280): a step of a granted operation, the last of which completes it. -/
def execMatrixOpComplete (s : State) : Host.Outcome State Fault Refusal :=
  .next (match s.ev with
    | .n3 cl id fail =>
      match (s.engine cl).ops.find? fun o => o.id == id && o.st == .granted with
      | none => s
      | some o => if o.op ≠ 6 then s.mxStep cl o
        else if o.ran && o.reads.isEmpty && s.wbldRead cl o then s.wbldEnd cl o else s.wbldStep cl o fail
    | .n4 cl id ea fail =>
      match (s.engine cl).ops.find? fun o => o.id == id && o.st == .granted with
      | none => s
      | some o => s.wbldLine cl o ea fail
    | _ => s)

end Sys2Proof.Machine
end

