-- ==== Sys2Proof/Machine/Messages.lean ====
section
/-! DEFINITION. Tag-matched messages (19 R412-R420): SEND, RECVP, RECVW, PROBE, the message unit of a core, the overflow queues and the
send-permission matrix. -/

namespace Sys2Proof.Machine
open Sys2Proof

/-! ### Criteria and status words (R415) -/

/-- Whether a criteria word has a reserved bit set. -/
def critBad (w : Nat) : Bool := (bit w 63 && fld w 61 32 != 0) || (bit w 62 && fld w 31 0 != 0)
/-- The source field of a message: SCHIP, SCORE, SCTX. -/
def Msg.src (m : Msg) : Nat := m.schip * 2 ^ 14 + m.score * 2 ^ 5 + m.sctx
/-- Whether a message meets a criteria word (R414). -/
def Msg.meets (m : Msg) (w : Nat) : Bool := (bit w 63 || fld w 61 32 == m.src) && (bit w 62 || fld w 31 0 == m.tag)
/-- The status of a message received into LEN bytes. -/
def Msg.status (m : Msg) (trunc : Bool) : Word := W (2 ^ 63 + b2n trunc * 2 ^ 62 + m.src * 2 ^ 32 + m.len)
/-- Whether LEN and SOFF of a block word are outside their ranges: reserved bits, or LEN (R416). -/
def lenBad (w : Nat) : Bool :=
  fld w 63 41 != 0 || fld w 31 19 != 0 || fld w 40 32 % 8 != 0 || decide (fld w 40 32 < 8 ∨ 448 < fld w 40 32)

/-- The first check of LEN and SOFF of a block word that fails (R416, R417). -/
def spaceFault (c : Crew) (w : Nat) : Option (Cause × Nat) :=
  if fld w 18 0 % 8 ≠ 0 then some (.misaligned, 0)
  else if c.spSize < fld w 18 0 + fld w 40 32 then some (.permission, 0)
  else none

/-! ### The send-permission matrix (R412) -/

/-- Bit (a, b) of the matrix; (a, a) is always 1. -/
def State.maySend (s : State) (a b : Nat) : Bool := a == b || s.smat.contains (a, b)

/-- SEND_MATRIX_WRITE (R412): bit (a, b) written. -/
def execSendMatrixWrite (s : State) : Host.Outcome State Fault Refusal :=
  .next (match s.ev with
    | .n3 a b v =>
      let l := s.smat.filter fun x => x != (a, b)
      let m := if v = 0 then l else (a, b) :: l
      ({ s with smat := m } : State).answerHost .ok 0
    | _ => s)

/-! ### SEND (R416) -/

/-- A SEND's checks at issue, in the order of R416's table. -/
def State.sendFault (s : State) (w0 w1 : Nat) : Option (Cause × Nat) :=
  if lenBad w1 then some (.illegalInstr, 0x101)
  else if 383 < fld w0 47 39 ∨ fld w0 33 32 = 3 then some (.illegalInstr, 0x100)
  else match spaceFault (s.C s.ck) w1 with
    | some x => some x
    | none => if !s.maySend s.iss.ctx (fld w0 38 34) then some (.permission, 6) else none

/-- A SEND issued: the payload is copied, the lanes wait, and the message waits for the release conditions of R197. -/
def State.sendIssue (s : State) (g w0 w1 : Nat) : State :=
  let ck := s.ck
  let tks := s.iss.lanes.map (·.tk)
  let dchip := fld w0 63 48
  let data := s.shareRd ck (fld w1 18 0) (fld w1 40 32)
  let s := s.writeBack s.lowLane.tk
  let s := if dchip = s.chip then s else (s.liveLanes ck).foldl (fun s tk => s.flushReads tk) s
  let w : SendW := { id := s.ids, dchip := dchip, dcore := fld w0 47 39, dctx := fld w0 38 34, dirx := fld w0 33 32, tag := fld w0 31 0
                     len := fld w1 40 32, lanes := tks.map fun tk => slotOfTk tk % 32, g := g, pc := s.iss.pc, word := s.iss.widx, blk := W w0
                     need := s.needOf (s.liveLanes ck), sent := false, data := data }
  let s := s.fresh.eachLane fun s l => s.block l.tk .send
  (s.modC ck fun c => { c with sends := c.sends ++ [w] }).sendTest ck

/-- SEND (R416). -/
def execSend (f : XgF) (s : State) : Host.Outcome State Fault Refusal :=
  word (.send f) s fun s =>
    let b := s.blockOf f.s.toNat 2
    match s.sendFault (b.getD 0 0) (b.getD 1 0) with
    | some (c, i) => s.failAll c (if c = .illegalInstr ∨ i = 6 then 0 else W (fld (b.getD 1 0) 18 0)) (W i)
    | none => s.sendIssue f.g.toNat (b.getD 0 0) (b.getD 1 0)

/-- The trap of a refused SEND (R374, R416). -/
def State.overflowTrap (s : State) (tk : Nat) (w : SendW) : TrapInfo :=
  let t := s.T tk
  { cause := .messageOverflow, pc := w.pc, addr := w.blk
    info := W ((s.nextHead tk - s.codeBase t) / 4 % 2 ^ 28 * 2 ^ 36 + w.g), word := w.word }

/-- The answer to a SEND of a crew in a bank (R416). -/
def State.sendAnswer (s : State) (ck id op : Nat) : State :=
  match (s.C ck).sends.find? (·.id == id) with
  | none => s
  | some w =>
    let s := s.modC ck fun c => { c with sends := c.sends.filter (·.id != id) }
    (w.lanes.foldl (fun s l =>
      let tk := laneTk ck l
      if op = 3 then s.takeTrap tk (s.overflowTrap tk w) else (s.wrG tk w.g (W op)).wake tk) s).sendTest ck

/-- MREPLY_ARRIVAL (R416): the answer reaches the crew, or the event log of its context (R366). -/
def execMreplyArrival (s : State) : Host.Outcome State Fault Refusal :=
  .next (match s.ev with
    | .n4 core ctx id op =>
      match s.crews.find? fun x => coreOfCk x.1 == core && x.2.ctx == ctx && x.2.sends.any (·.id == id) with
      | some (ck, _) => s.sendAnswer ck id op
      | none => match s.saves.get? (core * 64 + ctx) with
        | some a => { s with saves := s.saves.set (core * 64 + ctx) { a with log := a.log ++ [.mreply id op] } }
        | none => s
    | _ => s)

/-! ### The message unit (R413, R414) -/

/-- The entries of a core's receive list changed. -/
def State.modRecv (s : State) (core n : Nat) (f : REnt → REnt) : State :=
  let upd (e : REnt) : REnt := if e.n = n then f e else e
  s.modCore core fun c => { c with recv := c.recv.map upd }

/-- The words of its buffer that a matched message writes: at most LEN bytes (R413). -/
def REnt.words (e : REnt) (m : Msg) : List Nat := List.range (min m.len e.len / 8)

/-- A message matched to an entry: FILLING. -/
def State.fillEntry (s : State) (core n : Nat) (m : Msg) : State :=
  (s.modRecv core n fun e => { e with st := .filling, msg := some m, left := e.words m }).post .messageFillComplete (.n2 core n)

/-- The answer to a message (R416): 0 matched, 1 queued, 2 dead, 3 refused. -/
def State.msgAnswer (s : State) (core : Nat) (m : Msg) (op : Nat) : State :=
  s.send core m.schip m.score .mreplyArrival (.n4 m.score m.sctx m.id op)

/-- A core's overflow queue of a context. -/
def State.msgsOf (s : State) (core ctx : Nat) : List Msg := (s.msgq.get? (core * 64 + ctx)).getD []
/-- The queue replaced. -/
def State.setMsgs (s : State) (core ctx : Nat) (l : List Msg) : State :=
  { s with msgq := if l = [] then s.msgq.del (core * 64 + ctx) else s.msgq.set (core * 64 + ctx) l }

/-- The oldest POSTED entry that a message meets (R414). -/
def State.matchEntry (s : State) (core : Nat) (m : Msg) : Option REnt :=
  let l := (s.core core).recv.filter fun e => e.st == .posted && e.ctx == m.ctx && m.meets e.crit.toNat
  match l with
  | [] => none
  | e :: r => some (r.foldl (fun a b => if b.order < a.order then b else a) e)

/-- MESSAGE_ARRIVAL (R414). -/
def execMessageArrival (s : State) : Host.Outcome State Fault Refusal :=
  .next (match s.ev with
    | .msg core m =>
      if s.ctxGone m.ctx then s.msgAnswer core m 2
      else match s.matchEntry core m with
        | some e => (s.fillEntry core e.n m).msgAnswer core m 0
        | none =>
          let q := s.msgsOf core m.ctx
          if q.length < 64 then (s.setMsgs core m.ctx (q ++ [m])).msgAnswer core m 1 else s.msgAnswer core m 3
    | _ => s)

/-- One word of a message written in its crew's share (R413, R175). -/
def State.msgWord (s : State) (ck : Nat) (c : Crew) (o v : Nat) : State :=
  let k := spadKey (coreOfCk (ck % 2 ^ 20)) (c.spBase + o)
  let s := (s.wrMem k 8 v).setFull k true
  if ck < 2 ^ 20 then s.modC ck (·.mark o)
  else
    let j := coreOfCk (ck % 2 ^ 20) * 64 + (ck / 2 ^ 20 - 1)
    let upd (x : Nat × Crew) : Nat × Crew := if x.1 = ck % 16 then (x.1, x.2.mark o) else x
    match s.saves.get? j with
    | some a => { s with saves := s.saves.set j { a with crews := a.crews.map upd } }
    | none => s

/-- An ARRIVED entry completes for the lanes that wait for it (R418): status, tag, the acquire at the sender's scope, and the entry is
FREE. -/
def State.recvEnds (s : State) (e : REnt) (m : Msg) (lanes : List (Nat × Nat × Nat)) : State :=
  let core := coreOfCk e.ck
  let s := s.modCore core fun c => { c with recv := c.recv.filter (·.n != e.n) }
  let s := lanes.foldl (fun s (x : Nat × Nat × Nat) =>
    let tk := laneTk e.ck x.1
    let s := (s.wrG tk x.2.1 (m.status (decide (e.len < m.len)))).modC e.ck fun c => c.setS x.2.2 (W m.tag)
    if (s.T tk).st = .blocked then s.wake tk else s) s
  s.dropAway (dieOf core)

/-- An entry is tested: ARRIVED with lanes waiting in a bank. -/
def State.recvTest (s : State) (core n : Nat) : State :=
  match (s.core core).recv.find? (·.n == n) with
  | some e => match e.msg with
    | some m => if e.st = .arrived ∧ e.wait ≠ [] ∧ e.ck < 2 ^ 20 then s.recvEnds e m e.wait else s
    | none => s
  | none => s

/-- MESSAGE_FILL_COMPLETE (R413): the words of a message are performed at the banks, and the last one makes the entry ARRIVED. -/
def execMessageFillComplete (s : State) : Host.Outcome State Fault Refusal :=
  .next (match s.ev with
    | .n2 core n =>
      match (s.core core).recv.find? (·.n == n) with
      | none => s
      | some e => match e.msg with
        | none => s
        | some m =>
          if e.left = [] then
            let s := (s.modRecv core n fun e => { e with st := .arrived }).recvTest core n
            if (s.C e.ck).st = .draining then s.post .crewRetire (.n1 e.ck) else s
          else
            let i := s.pickOf e.left.length
            let k := e.left.getD i 0
            let s : State := { s with tick := s.tick + 1 }
            let s := match s.crewAny e.ck with
              | some c => s.msgWord e.ck c (e.buf + 8 * k) (m.data / 2 ^ (64 * k) % 2 ^ 64)
              | none => s
            (s.modRecv core n fun e => { e with left := e.left.eraseIdx i }).post .messageFillComplete (.n2 core n)
    | _ => s)

/-! ### RECVP, RECVW, PROBE (R417-R419) -/

/-- RECVP's entry posted, or given the oldest queued message it meets. -/
def State.recvPost (s : State) (w0 w1 g : Nat) : State :=
  let core := s.iss.core
  let ck := s.ck
  let hs := (s.C ck).hseq.toNat
  let s := s.modC ck fun c => { c with hseq := c.hseq + 1 }
  match (List.range 64).find? fun n => !(s.core core).recv.any (·.n == n) with
  | none => s.eachLane fun s l => s.wrG l.tk g (W (2 ^ 63))
  | some n =>
    let e : REnt := { n := n, st := .posted, ctx := s.iss.ctx, ck := ck, crit := W w0, len := fld w1 40 32, buf := fld w1 18 0, hseq := hs
                      order := s.ids, msg := none, left := [], wait := [] }
    let s := s.fresh.modCore core fun c => { c with recv := c.recv ++ [e] }
    let q := s.msgsOf core s.iss.ctx
    let s := match q.find? (·.meets w0) with
      | some m => (s.setMsgs core s.iss.ctx (q.erase m)).fillEntry core n m
      | none => s
    s.eachLane fun s l => s.wrG l.tk g (W (hs * 256 + n))

/-- RECVP (R417). -/
def execRecvp (f : XgF) (s : State) : Host.Outcome State Fault Refusal :=
  word (.recvp f) s fun s =>
    let b := s.blockOf f.s.toNat 2
    let w0 := b.getD 0 0
    let w1 := b.getD 1 0
    if critBad w0 then s.failAll .illegalInstr 0 0x100
    else if lenBad w1 then s.failAll .illegalInstr 0 0x101
    else match spaceFault (s.C s.ck) w1 with
      | some (c, i) => s.failAll c (W (fld w1 18 0)) (W i)
      | none => s.recvPost w0 w1 f.g.toNat

/-- The entry that a handle names for a crew (R418). -/
def State.recvOf (s : State) (core ck h : Nat) : Option REnt :=
  if fld h 63 40 ≠ 0 ∨ fld h 7 6 ≠ 0 then none
  else (s.core core).recv.find? fun e => e.n == fld h 5 0 && e.ck == ck && e.hseq == fld h 39 8

/-- RECVW, plain or .test (R418). -/
def State.recvwWord (s : State) (g sb : Nat) (test : Bool) : State :=
  let core := s.iss.core
  let h := ((s.rT s.lowLane.tk).gr g).toNat
  match s.recvOf core s.ck h with
  | none => s.failAll .permission 0 5
  | some e =>
    let lanes := s.iss.lanes.map fun l => (l.pos, g, sb)
    match e.st, e.msg with
    | .arrived, some m => s.recvEnds e m lanes
    | _, _ =>
      if test then s.eachLane fun s l => s.wrG l.tk g 0
      else (s.eachLane fun s l => s.block l.tk (.recvw h)).modRecv core e.n fun e => { e with wait := e.wait ++ lanes }

/-- RECVW (R418). -/
def execRecvw (f : XgF) (s : State) : Host.Outcome State Fault Refusal :=
  word (.recvw f) s fun s => s.recvwWord f.g.toNat f.s.toNat false
/-- RECVW.test (R418). -/
def execRecvwTest (f : XgF) (s : State) : Host.Outcome State Fault Refusal :=
  word (.recvwTest f) s fun s => s.recvwWord f.g.toNat f.s.toNat true

/-- PROBE (R419). -/
def execProbe (f : XgF) (s : State) : Host.Outcome State Fault Refusal :=
  word (.probe f) s fun s =>
    let w := (s.sreg f.s.toNat).toNat
    if critBad w then s.failAll .illegalInstr 0 0x100
    else match (s.msgsOf s.iss.core s.iss.ctx).find? (·.meets w) with
      | some m => (s.eachLane fun s l => s.wrG l.tk f.g.toNat (m.status false)).modC s.ck fun c => c.setS f.s.toNat (W (m.src * 2 ^ 32 + m.tag))
      | none => s.eachLane fun s l => s.wrG l.tk f.g.toNat 0

end Sys2Proof.Machine
end

