-- ==== Sys2Proof/Machine/Link.lean ====
section
/-! DEFINITION. The link (19 R392-R411): the hops of frames in the torus and over die links, Ethernet ports and packets, the chip table, host
accesses through BAR2, link states and flush markers. -/

namespace Sys2Proof.Machine
open Sys2Proof

/-! ### Frames (R392-R395) -/

/-- The context a frame concerns. -/
def Arg.ctxOf : Arg → Option Nat
  | .knight _ k => some k.ctx
  | .spawn _ _ _ _ c => some c.ctx
  | .req r => some r.ctx
  | .fill f => some f.ctx
  | .fillData f _ _ _ _ => some f.ctx
  | .probe p => some p.ctx
  | .probeReply p _ => some p.ctx
  | .seal q => some q.ctx
  | .sealAns q _ => some q.ctx
  | .msg _ m => some m.ctx
  | .tarr c _ _ _ _ _ => some c
  | .trel c _ _ _ => some c
  | .tnote c _ _ _ _ _ _ _ => some c
  | .kent c _ _ => some c
  | .steal c _ _ _ _ => some c
  | .gang c _ _ _ _ => some c
  | .dirMsg c _ => some c
  | .dirQ c _ => some c
  | .dirAck c => some c
  | .logpend _ c _ _ _ => some c
  | .frec c _ => some c
  | .hcopy c _ _ _ => some c
  | .hlog c _ => some c
  | .fwd _ _ _ a => a.ctxOf
  | _ => Option.none

/-- Whether an event travels as a response (R393). -/
def isResponse (i : Instr) : Bool :=
  match i with
  | .readDataResponse | .ackResponse | .mreplyArrival | .permissionProbeReply | .directoryQueryReply | .sealAnswer => true
  | _ => false

/-- Bytes that a request's lanes span in its line. -/
def MemReq.span (r : MemReq) : Nat :=
  let lo := r.lanes.foldl (fun m l => min m l.ea) (2 ^ 64)
  let hi := r.lanes.foldl (fun m l => max m (l.ea + l.size)) 0
  hi - lo

/-- Flits of a frame (R393). -/
def Arg.flits : Arg → Nat
  | .knight _ k => (40 + 8 * k.regs.length + 31) / 32
  | .spawn _ _ _ _ _ => 2
  | .req r => match r.op with
    | .store => (48 + r.span + 31) / 32
    | .atom 8 _ _ _ => 2
    | _ => 1
  | .fillData _ _ _ _ _ => 5
  | .resp _ _ (.data _ _) => 2
  | .msg _ m => 1 + (m.len + 31) / 32
  | .fwd _ _ _ a => a.flits
  | _ => 1

/-- Saturating DROPS of a link (R408). -/
def State.countDrop (s : State) (n : Nat) : State :=
  let l := s.link n
  { s with dev := { s.dev with links := s.dev.links.set n { l with drops := min 65535 (l.drops + 1) } } }

/-- A frame discarded (R395): counted, BAD_FRAME logged, its context torn down. -/
def State.badFrame (s : State) (link : Nat) (a : Arg) : State :=
  let s := (s.countDrop link).devLog 0x22 (s.chip * 2 ^ 32 + link) 0 (a.ctxOf.getD 0)
  match a.ctxOf with
  | some c => s.startTeardown c
  | none => s

/-- The chip table's entry of a chip, and whether its ports are reachable (R406). -/
def State.chipEntry (s : State) (c : Nat) : Option (List Bool) := s.dev.chipTab.get? c

/-! ### Next hops (R398, R403, R405) -/

/-- Where a frame goes next: out at its target, through some outputs (0 +X, 1 -X, 2 +Y, 3 -Y, 4 +die, 5 -die), the one of its escape
channel named, to an Ethernet port, to wait, or nowhere (with the link it would have used). -/
inductive Hop where
  | eject
  | port (p : Nat)
  | out (os : List Nat) (esc : Nat)
  | stay
  | lost (link : Nat)
  deriving DecidableEq, Repr

/-- The Ethernet port of a frame for another chip that was injected on die d (R405). -/
def State.portFor (s : State) (d xid : Nat) : Hop :=
  let near := (List.range 3).flatMap fun k => let e := (d + k + 1) % 4; [2 * e + xid % 2, 2 * e + 1 - xid % 2]
  let order := [2 * d + xid % 2, 2 * d + 1 - xid % 2] ++ near
  match order.find? fun p => s.linkUp (8 + p) with
  | some p => .port p
  | none => if order.any fun p => s.linkTrains (8 + p) then .stay else .lost (8 + 2 * d + xid % 2)

/-- The router of a port's pair that a frame uses (R15, R405). -/
def portRouter (p xid : Nat) : Nat := p / 2 * 24 + 8 + p % 2 * 4 + xid / 2 % 2

/-- The directions along a row (R398). -/
def xDir (dirx d : Nat) : List Nat :=
  if dirx = 1 then [0] else if dirx = 2 then [1] else if d < 4 then [0] else if 4 < d then [1] else [0, 1]
/-- The direction along a column. -/
def yDir (d : Nat) : List Nat := if d = 1 then [2] else [3]

/-- The ways from a die to another round the die ring (R398, R403): 0 ascending, 1 descending; the one of the escape channel first. -/
def State.dieWays (s : State) (here k : Nat) : List Nat × Bool × Nat :=
  let up := (List.range k).map fun i => (here + i) % 4
  let down := (List.range (4 - k)).map fun i => (here + 3 - i) % 4
  let okU := up.all s.linkUp
  let okD := down.all s.linkUp
  let want := if k = 3 then [1, 0] else [0, 1]
  let ok := want.filter fun w => if w = 0 then okU else okD
  let train := (up ++ down).any s.linkTrains
  (if k = 2 then ok else ok.take 1, train, if k = 3 then (here + 3) % 4 else here)

/-- The next hop of a frame at a router toward a target router (R398, R403). -/
def State.hopTo (s : State) (f : Flight) (target : Nat) : Hop :=
  let d := f.at_ / 24
  let row := f.at_ % 24 / 8
  let col := f.at_ % 8
  let td := target / 24
  let tr := target % 24 / 8
  let tc := target % 8
  let one (l : List Nat) : Hop := .out l (l.headD 0)
  if td = d then
    if f.place = 1 then .eject
    else if col ≠ tc then one (xDir f.dirx ((tc + 8 - col) % 8))
    else if row ≠ tr then one (yDir ((tr + 3 - row) % 3))
    else .eject
  else
    let k := (td + 4 - d) % 4
    let (ways, train, link) := s.dieWays d k
    if ways = [] then (if train then .stay else .lost link)
    else if f.place = 1 then one [ways.headD 0 + 4]
    else if col ≠ tc then one (xDir f.dirx ((tc + 8 - col) % 8))
    else if ways.length = 2 then (if row = 0 then .out [4] 4 else if row = 2 then .out [5] 2 else .out [3, 2] 3)
    else
      let e := if ways.headD 0 = 1 then 2 else 0
      if row ≠ e then one (yDir ((e + 3 - row) % 3)) else one [ways.headD 0 + 4]

/-- The next hop of a frame: in a column channel it leaves at its tap or goes on in its direction (R402). -/
def State.nextHop (s : State) (f : Flight) : Hop :=
  let go (target : Nat) (atEnd : Hop) : Hop :=
    match s.hopTo f target with
    | .eject => atEnd
    | h => h
  if f.chip = s.chip then go (routerOf f.dst) .eject
  else if (s.chipEntry f.chip).isNone then .lost 0
  else match s.portFor (routerOf f.src / 24) f.xid with
    | .port p => go (portRouter p f.xid) (.port p)
    | h => h

/-! ### Pools and escape channels (R396, R399, R400) -/

/-- A place a frame can stand: at a router's input or in a column channel, with the dateline bit it will have. -/
structure NetSpot where
  place : Nat
  at_ : Nat
  inp : Nat
  dl : Bool
  deriving DecidableEq, Repr

/-- Where an output leads (R398, R402): entering another ring clears DL, crossing the ring's dateline sets it. -/
def Flight.through (f : Flight) (o : Nat) : NetSpot :=
  let d := f.at_ / 24
  let row := f.at_ % 24 / 8
  let col := f.at_ % 8
  let ring := if f.place = 1 then 2 else if f.inp ≤ 1 then 0 else if f.inp ≤ 3 then 1 else 3
  let keep (r : Nat) : Bool := ring == r && f.dl
  match o with
  | 0 => ⟨0, d * 24 + row * 8 + (col + 1) % 8, 0, keep 0 || col == 7⟩
  | 1 => ⟨0, d * 24 + row * 8 + (col + 7) % 8, 1, keep 0 || col == 0⟩
  | 2 => ⟨0, d * 24 + (row + 1) % 3 * 8 + col, 2, keep 1 || row == 2⟩
  | 3 => ⟨0, d * 24 + (row + 2) % 3 * 8 + col, 3, keep 1 || row == 0⟩
  | 4 => ⟨1, (d + 1) % 4 * 24 + 16 + col, 10, keep 2 || d == 3⟩
  | _ => ⟨1, (d + 3) % 4 * 24 + col, 10, keep 2 || d == 0⟩

/-- The class of a frame. -/
def Flight.resp (f : Flight) : Bool := isResponse f.ev.i

/-- Free flits of the pool at a spot for a class (R396). -/
def State.poolFree (s : State) (p : NetSpot) (resp : Bool) : Nat :=
  16 - s.flights.foldl (fun n g => if g.place = p.place ∧ g.at_ = p.at_ ∧ g.inp = p.inp ∧ g.esc = false ∧ g.resp = resp then n + g.ev.a.flits
    else n) 0

/-- Whether the escape channel E(DL) at a spot is free for a class. -/
def State.escFree (s : State) (p : NetSpot) (resp : Bool) : Bool :=
  !(s.flights.any fun g => g.place == p.place && g.at_ == p.at_ && g.inp == p.inp && g.esc && g.dl == p.dl && g.resp == resp)

/-- What a frame head asks for (R399): leaving, a pool, or an escape channel. -/
inductive Want where
  | eject (dst : Nat)
  | port (p : Nat)
  | out (o : Nat) (esc : Bool)
  | tap
  | none
  | lost (link : Nat)
  deriving DecidableEq, Repr

/-- The output a frame takes: a pool with room for it, the one with more free credits, else the escape channel of its order. -/
def State.wants (s : State) (f : Flight) : Want :=
  match s.nextHop f with
  | .eject => if f.place = 1 then .tap else .eject f.dst
  | .port p => if f.place = 1 then .tap else .port p
  | .stay => .none
  | .lost l => .lost l
  | .out os e =>
    let room := (os.map fun o => (o, s.poolFree (f.through o) f.resp)).filter fun x => decide (f.ev.a.flits ≤ x.2)
    match room with
    | x :: r => .out (r.foldl (fun m y => if m.2 < y.2 then y else m) x).1 false
    | [] => if s.escFree (f.through e) f.resp then .out e true else .none

/-- The router and input at which a frame leaves a column channel: the tap of its row (R402). -/
def State.tapOf (s : State) (f : Flight) : NetSpot :=
  let target := if f.chip = s.chip then routerOf f.dst
    else match s.portFor (routerOf f.src / 24) f.xid with
      | .port p => portRouter p f.xid
      | _ => f.at_
  ⟨0, f.at_ / 24 * 24 + target % 24 / 8 * 8 + f.at_ % 8, 10, false⟩

/-- AGE of the routing tag (R397). -/
def Flight.age (f : Flight) : Nat := f.born / 16 % 65536

/-- Whether frame g goes before frame f at their common output (R400). -/
def Flight.older (g f : Flight) : Bool :=
  decide (2 ^ 15 ≤ (g.age + 2 ^ 16 - f.age) % 2 ^ 16) || (g.age == f.age && decide (g.inp < f.inp))

/-- Whether an output grants a frame now: no older frame asks for it, and on a link responses go first but for a request that has waited 8
cycles (R400). -/
def State.granted (s : State) (f : Flight) (w : Want) : Bool :=
  let rivals := s.flights.filter fun g => g != f && g.place == f.place && g.at_ == f.at_ && s.wants g == w
  let waited (g : Flight) : Bool := decide (g.since + 8 ≤ s.ncyc)
  !(rivals.any fun g =>
    if g.resp == f.resp then g.older f
    else if f.resp then waited g else !waited f)

/-! ### Ports and packets (R404, R405) -/

/-- A frame taken into a port's packet for its destination chip and port. -/
def State.intoPacket (s : State) (p : Nat) (f : Flight) : State :=
  let reach := (s.chipEntry f.chip).getD []
  let d := routerOf f.dst / 24
  let a := 2 * d + f.xid % 2
  let b := 2 * d + 1 - f.xid % 2
  let dp := if reach.getD a false then a else if reach.getD b false then b else ((List.range 8).find? fun n => reach.getD n false).getD a
  let bytes (k : Packet) : Nat := k.frames.foldl (fun n g => n + 32 * g.ev.a.flits) 0
  match s.packets.find? fun k => k.port == p && k.chip == f.chip && k.dport == dp && !k.sent && decide (bytes k + 32 * f.ev.a.flits ≤ 4096) with
  | some k =>
    let upd (x : Packet) : Packet := if x.n = k.n then { x with frames := x.frames ++ [f] } else x
    { s with packets := s.packets.map upd }
  | none =>
    let k : Packet := { n := s.ids, port := p, chip := f.chip, dport := dp, frames := [f], sent := false }
    (({ s with packets := s.packets ++ [k] } : State).fresh).post .uetPacketSend (.n1 k.n)

/-- UET_PACKET_SEND (R404): a packet leaves through its port, or another one when its port is not usable (R410). -/
def State.sendPacket (s : State) (n : Nat) : State :=
  match s.packets.find? fun k => k.n == n && !k.sent with
  | none => s
  | some k =>
    let f (upd : Packet → Packet) : State := { s with packets := s.packets.map fun x => if x.n = n then upd x else x }
    match ([k.port] ++ List.range 8).find? fun p => s.linkUp (8 + p) with
    | some p => f fun x => { x with port := p, sent := true }
    | none =>
      if (List.range 8).any fun p => s.linkTrains (8 + p) then s.post .uetPacketSend (.n1 n)
      else
        let s : State := { s with packets := s.packets.filter (·.n != n) }
        k.frames.foldl (fun s g => s.badFrame (8 + k.port) g.ev.a) s

/-- UET_PACKET_SEND (R404). -/
def execUetPacketSend (s : State) : Host.Outcome State Fault Refusal :=
  .next (match s.ev with
    | .n1 n => s.sendPacket n
    | _ => s)

/-- UET_RETRANSMIT (R404): a packet that was lost is sent again. -/
def execUetRetransmit (s : State) : Host.Outcome State Fault Refusal :=
  .next (match s.ev with
    | .n1 n =>
      let upd (x : Packet) : Packet := if x.n = n then { x with sent := false } else x
      if s.packets.any fun k => k.n == n && k.sent then { s with packets := s.packets.map upd }.post .uetPacketSend (.n1 n) else s
    | _ => s)

/-- A frame that a port injects (R405). -/
def State.injectAt (s : State) (port dst xid : Nat) (e : Ev) : State :=
  let r := portRouter port xid
  let f : Flight := { chip := s.chip, dst := dst, src := r * 4, ev := e, xid := xid, at_ := r, place := 0, inp := 11, esc := false, dl := false
                      dirx := 0, born := s.ncyc, since := s.ncyc, mark := false }
  { s with flights := s.flights ++ [f] }

/-- The frames of a received packet. -/
def Arg.frames : Nat → Arg → List (Nat × Nat × Nat × Ev)
  | 0, _ => []
  | n + 1, .frame port dst xid i a rest => (port, dst, xid, ⟨i, a⟩) :: rest.frames n
  | _, _ => []

/-- UET_PACKET_RECEIVE (R405): each frame is injected; a packet that finds no room is dropped whole. -/
def execUetPacketReceive (s : State) : Host.Outcome State Fault Refusal :=
  .next (
    let fs := s.ev.frames 128
    let room := fs.all fun x => (fs.foldl (fun n y =>
        if portRouter y.1 y.2.2.1 = portRouter x.1 x.2.2.1 ∧ isResponse y.2.2.2.i = isResponse x.2.2.2.i then n + y.2.2.2.a.flits else n) 0)
      ≤ s.poolFree ⟨0, portRouter x.1 x.2.2.1, 11, false⟩ (isResponse x.2.2.2.i)
    if room then fs.foldl (fun s x => s.injectAt x.1 x.2.1 x.2.2.1 x.2.2.2) s else s)

/-! ### FRAME_ROUTE (R399) -/

/-- Whether a destination number is one that no frame may carry (R395). -/
def badCore (c : Nat) : Bool := decide (384 ≤ c ∧ c ≤ 503) || c == 0x1fc || c == 0x1fd

/-- The link a frame arrived on, for DROPS (R395). -/
def Flight.cameBy (f : Flight) : Nat :=
  if f.place = 1 then (if f.at_ % 24 / 8 = 2 then (f.at_ / 24 + 3) % 4 else f.at_ / 24)
  else if f.inp = 11 then 8 + f.at_ / 24 * 2 + f.at_ % 8 / 4 else 0

/-- A frame at its target: a frame of a context that has ended is discarded there (R369); a message is answered as dead (R416). -/
def State.arrive (s : State) (f : Flight) : State :=
  let s := s.seen f
  match f.ev.a.ctxOf with
  | some c => if s.ctxGone c ∧ f.ev.i ≠ .messageArrival then (match f.ev.a with
      | .req r => if r.core = hostCore then s.refuseReq r .permission 0 else s
      | _ => s) else s.post f.ev.i f.ev.a
  | none => s.post f.ev.i f.ev.a

/-- A frame that is discarded: a message to a chip that is absent is answered as dead (R416). -/
def State.loseFrame (s : State) (f : Flight) (link : Nat) : State :=
  match f.ev.a with
  | .msg core m => if f.chip ≠ s.chip ∧ (s.chipEntry f.chip).isNone = true then s.msgAnswer core m 2 else s.badFrame link f.ev.a
  | a => s.badFrame link a

/-- One frame head at a router (R399, R400). -/
def State.routeFrame (s : State) (n : Nat) : State :=
  match s.flights[n]? with
  | none => s
  | some f =>
    let gone : State := { s with flights := s.flights.eraseIdx n }
    let move (p : NetSpot) (esc : Bool) : State :=
      let g : Flight := { f with place := p.place, at_ := p.at_, inp := p.inp, dl := p.dl, esc := esc, since := s.ncyc }
      { s with flights := s.flights.set n g }
    if badCore f.dst then gone.loseFrame f f.cameBy else
    let w := s.wants f
    if s.granted f w then
      match w with
      | .eject _ => gone.arrive f
      | .port p => gone.intoPacket p f
      | .out o esc => move (f.through o) esc
      | .tap =>
        let p := s.tapOf f
        if f.ev.a.flits ≤ s.poolFree p f.resp then move p false else if s.escFree p f.resp then move p true else s
      | .none => s
      | .lost l => gone.loseFrame f (if (s.chipEntry f.chip).isNone && f.chip != s.chip then f.cameBy else l)
    else s

/-- FRAME_ROUTE (R399). -/
def execFrameRoute (s : State) : Host.Outcome State Fault Refusal :=
  .next (match s.ev with
    | .n1 n => s.routeFrame n
    | _ => s)

/-! ### The chip table (R406) -/

/-- CHIP_TABLE_WRITE (R406): a chip's entry, its eight reachable bits, or no bits for an absent chip. -/
def execChipTableWrite (s : State) : Host.Outcome State Fault Refusal :=
  .next (match s.ev with
    | .nats (c :: bs) =>
      let tab := if bs = [] then s.dev.chipTab.del c else s.dev.chipTab.set c (bs.map (· != 0))
      { s with dev := { s.dev with chipTab := tab } }
    | _ => s)

/-- One reachable bit. -/
def State.setReach (s : State) (chip port : Nat) (b : Bool) : State :=
  match s.chipEntry chip with
  | some l => { s with dev := { s.dev with chipTab := s.dev.chipTab.set chip (l.set port b) } }
  | none => s

/-- PORT_UNREACHABLE (R406). -/
def execPortUnreachable (s : State) : Host.Outcome State Fault Refusal :=
  .next (match s.ev with
    | .n2 chip port => s.setReach chip port false
    | _ => s)
/-- PORT_REACHABLE (R406). -/
def execPortReachable (s : State) : Host.Outcome State Fault Refusal :=
  .next (match s.ev with
    | .n2 chip port => s.setReach chip port true
    | _ => s)

/-! ### The host port (R407, R234) -/

/-- An answer to a host access: 0 completed with a value, 1 Unsupported Request. -/
def State.hostReply (s : State) (code v : Nat) : State :=
  let r : Reply := ⟨code, v⟩
  { s with replies := s.replies ++ [r] }

/-- The location of a host access: its aperture, its address and its home, when the aperture gives the right. -/
def State.hostLoc (s : State) (h : HostAcc) : Option (Nat × Nat × HomeLoc) :=
  match s.dev.aper.get? (h.ofs / 2 ^ 30) with
  | none => none
  | some a =>
    if (h.op ≠ 1 ∧ a.rd = false) ∨ (h.op ≠ 0 ∧ a.wr = false) then none
    else
      let va := a.base + h.ofs % 2 ^ 30
      match homeIn (s.ctx a.ctx).ptab va with
      | none => none
      | some l => some (a.ctx, va, l)

/-- The operation of a host access (R209, R407). -/
def hostOp (h : HostAcc) : MOp :=
  if h.op = 0 then .load false else if h.op = 1 then .store
  else .atom (if h.op = 2 then 0 else if h.op = 3 then 7 else 8) (h.size == 8) true false

/-- A host access sent to its home (R407): without a location a read is answered with Unsupported Request and a write is dropped; both are
counted. -/
def State.hostSend (s : State) (h : HostAcc) : State :=
  match s.hostLoc h with
  | none =>
    let s := s.countDrop 16
    if h.op = 1 then s else s.hostReply 1 0
  | some (ctx, va, l) =>
    if 2 ≤ h.op ∧ h.size ≠ 4 ∧ h.size ≠ 8 then s.hostReply 1 0
    else
      let ml : MLane := { tk := 2 ^ 31, id := s.ids, tid := ⟨0, 3, 0⟩, pcw := 0, ea := va, size := h.size, data := h.data, cmp := h.cmp, mode := 0 }
      let r : MemReq := { op := hostOp h, ctx := ctx, home := l.core, chip := s.chip, core := hostCore, lanes := [ml], sum := 0, fl := 0 }
      let s : State := if h.op = 1 then { s with hostOut := s.hostOut ++ [(s.ids, h.id)] } else s
      s.fresh.send hostCore l.chip l.core r.event (.req r)

/-- Whether a host access may be sent (R234): a posted write waits for the earlier ones of its requester unless it carries Relaxed Ordering,
a read or AtomicOp for every earlier one. -/
def State.hostReady (s : State) (before : List HostAcc) (h : HostAcc) : Bool :=
  (h.op == 1 && h.ro) || !(s.hostOut.any (·.2 == h.id) || before.any fun x => x.id == h.id && x.op == 1)

/-- The queue of host accesses: one that may be sent is sent, while the port is UP or DEGRADED (R410). -/
def State.hostPump (s : State) : State :=
  if s.linkUp 16 then
    match (List.range s.hostq.length).find? fun i => match s.hostq[i]? with
        | some h => s.hostReady (s.hostq.take i) h
        | none => false with
    | some i => match s.hostq[i]? with
      | some h => ({ s with hostq := s.hostq.eraseIdx i } : State).hostSend h
      | none => s
    | none => s
  else s

/-- HOST_BAR2_ACCESS (R407, R427): a host's access arrives, or the port sends one that waits. -/
def execHostBar2Access (s : State) : Host.Outcome State Fault Refusal :=
  .next (
    let s := match s.ev with
      | .host h => if s.hostLost then s.countDrop 16
        else if s.dev.band = 3 then (if h.op = 1 then s.countDrop 16 else (s.countDrop 16).hostReply 1 0) else { s with hostq := s.hostq ++ [h] }
      | _ => s.hostPump
    if s.hostq = [] ∨ s.agenda.contains ⟨.hostBar2Access, .none⟩ then s else s.post .hostBar2Access .none)

/-- An answer that reaches the host port: a posted write is acknowledged, a read or AtomicOp completes. -/
def State.hostAnswer (s : State) (id : Nat) (o : ROut) : State :=
  let w := s.hostOut.any (·.1 == id)
  let s : State := { s with hostOut := s.hostOut.filter (·.1 != id) }
  match o with
  | .data v _ => if w then s else s.hostReply 0 v.toNat
  | .refused _ _ => if w then s.countDrop 16 else (s.countDrop 16).hostReply 1 0
  | _ => s

/-- PCIE_COMPLETION (R197): the host's answer finishes an access at its home, or a flushing read for a thread here or on another chip. -/
def execPcieCompletion (s : State) : Host.Outcome State Fault Refusal :=
  .next (match s.ev with
    | .req r => if s.linkTrains 16 then s.post .pcieCompletion (.req r) else s.finishHost r
    | .flush tk id req =>
      if s.linkTrains 16 then s.post .pcieCompletion s.ev
      else if req / 2 ^ 16 = s.chip then (s.complete tk id).recheck tk
      else s.send hostCore (req / 2 ^ 16) (req % 2 ^ 16) .ackResponse (.resp tk id .ack)
    | _ => s)

/-! ### Link states (R409) -/

/-- A link changed. -/
def State.modLink (s : State) (n : Nat) (f : Link → Link) : State :=
  { s with dev := { s.dev with links := s.dev.links.set n (f (s.link n)) } }

/-- A training begins. -/
def Link.train (l : Link) (st : LSt) : Link := { l with st := st, cap := 0, trains := (l.trains + 1) % 65536, fails := 0 }

/-- LINK_ENABLE (R409). -/
def execLinkEnable (s : State) : Host.Outcome State Fault Refusal :=
  .next (match s.ev with
    | .n1 n => if (s.link n).st = .down then s.modLink n (·.train .training) else s
    | _ => s)

/-- LINK_DISABLE (R409). -/
def execLinkDisable (s : State) : Host.Outcome State Fault Refusal :=
  .next (match s.ev with
    | .n1 n => s.modLink n fun l => { l with st := .down, cap := 0 }
    | _ => s)

/-- LINK_TRAINED (R409, R410): UP at full capacity, else DEGRADED with replacement requested. -/
def execLinkTrained (s : State) : Host.Outcome State Fault Refusal :=
  .next (match s.ev with
    | .n2 n cap =>
      if s.linkTrains n then
        let s := s.modLink n fun l => { l with st := if cap = 100 then .up else .degraded, cap := cap, fails := 0 }
        if cap = 100 then s
        else ({ s with dev := { s.dev with replace := true } } : State).devLog 0x31 (s.chip * 2 ^ 32 + n) 0 0
      else s
    | _ => s)

/-- LINK_TRAINING_FAILED (R409): the third consecutive failure makes the link FAILED. -/
def execLinkTrainingFailed (s : State) : Host.Outcome State Fault Refusal :=
  .next (match s.ev with
    | .n1 n =>
      if s.linkTrains n then
        s.modLink n fun l => if 2 ≤ l.fails then { l with st := .failed, fails := 0 }
          else { l with fails := l.fails + 1, trains := (l.trains + 1) % 65536 }
      else s
    | _ => s)

/-- LINK_RETRAIN (R409). -/
def execLinkRetrain (s : State) : Host.Outcome State Fault Refusal :=
  .next (match s.ev with
    | .n1 n => if s.linkUp n then s.modLink n (·.train .retraining) else s
    | _ => s)

/-- LINK_RETRY_REQUEST (R409): the host driver asks for a FAILED link to be trained again. -/
def execLinkRetryRequest (s : State) : Host.Outcome State Fault Refusal :=
  .next (match s.ev with
    | .n1 n => if (s.link n).st = .failed then (s.modLink n (·.train .training)).answerHost .ok 0 else s.answerHost .badState 0
    | _ => s)

/-- LINK_CRC_ERROR (R408, R409): a flit is replayed; the counts saturate. -/
def execLinkCrcError (s : State) : Host.Outcome State Fault Refusal :=
  .next (match s.ev with
    | .n1 n => s.modLink n fun l => { l with crcerr := min 65535 (l.crcerr + 1), retries := min 65535 (l.retries + 1) }
    | _ => s)

/-! ### Flush markers (R411) -/

/-- FLUSH_MARKER (R411, R369): the markers of a context, injected at a network cycle, pass once every frame that was ahead of them has been
delivered; then they have reached every sink. -/
def execFlushMarker (s : State) : Host.Outcome State Fault Refusal :=
  .next (match s.ev with
    | .n1 ctx =>
      match s.flush.find? (·.1 == ctx) with
      | none => s
      | some (_, t) =>
        if (s.flights.any fun f => decide (f.born ≤ t)) || s.packets.any (fun k => !k.sent) then s.post .flushMarker (.n1 ctx)
        else ({ s with flush := s.flush.filter (·.1 != ctx) } : State).post .teardownComplete (.n1 ctx)
    | _ => s)

end Sys2Proof.Machine
end

