-- ==== Sys2Proof/Machine/Formats.lean ====
section
/-! DEFINITION. The layouts in memory and in frames that the spec gives as tables of bits: a placement entry (07 R165), a home page entry (10 R238), a
side-log entry (10 R243), a knight (04 R72) and a creation record (19 R394), each as its 64-bit words. -/

namespace Sys2Proof.Machine
open Sys2Proof

/-- A word made of fields, each a value and its lowest bit. -/
def packed (fs : List (Nat × Nat)) : Nat := fs.foldl (fun n f => n + f.1 * 2 ^ f.2) 0

/-- The number that little-endian words make. -/
def ofWords : List Nat → Nat
  | [] => 0
  | w :: r => w % 2 ^ 64 + 2 ^ 64 * ofWords r
/-- Word i of a number. -/
def wordAt (n i : Nat) : Nat := n / 2 ^ (64 * i) % 2 ^ 64

/-! ### Placement entries (R165) -/

/-- An entry's sixteen words. -/
def PEnt.words (e : PEnt) : List Nat :=
  [packed [(b2n e.v, 63), (e.base, 0)], e.len, packed [(e.chip0, 48), (e.nchip, 32), (e.count, 23), (e.glog, 18), (e.tier, 16)]]
    ++ (List.range 6).map (wordAt e.coreset) ++ List.replicate 7 0

/-- The entry that 128 bytes hold; reserved fields are not looked at. -/
def PEnt.ofNum (n : Nat) : PEnt :=
  let w := wordAt n
  { v := bit (w 0) 63, base := fld (w 0) 55 0, len := fld (w 1) 56 0, chip0 := fld (w 2) 63 48, nchip := fld (w 2) 47 32
    count := fld (w 2) 31 23, glog := fld (w 2) 22 18, tier := fld (w 2) 17 16, coreset := n / 2 ^ 192 % 2 ^ 384 }

/-- A table as a request holds it: 64 entries of 128 bytes. -/
def tableOf (l : List Nat) : List PEnt := (l.take 64).map PEnt.ofNum

/-! ### Home page entries (R238) -/

/-- The code of a page's STATE. -/
def PgSt.num : PgSt → Nat
  | .unmapped => 0 | .mapped => 1 | .sealed => 2 | .unsealing => 3 | .moving => 4 | .rehoming => 5 | .retired => 6
/-- The state of a code; 7 is reserved. -/
def PgSt.ofNum (n : Nat) : PgSt :=
  [PgSt.unmapped, .mapped, .sealed, .unsealing, .moving, .rehoming].getD n .retired

/-- A home page entry's two words. -/
def Page.words (p : Page) : List Nat :=
  [packed [(p.st.num, 61), (b2n p.s, 60), (p.ord % 4, 58), (b2n p.rd, 57), (b2n p.wr, 56), (b2n p.ex, 55), (p.tier % 4, 53), (p.ntier % 4, 51)
           , (p.frame % 2 ^ 40, 0)]
   , packed [(p.tokens % 2 ^ 24, 40), (p.nframe % 2 ^ 40, 0)]]

/-- The entry that two words hold. -/
def Page.ofWords (a b : Nat) : Page :=
  { st := PgSt.ofNum (fld a 63 61), s := bit a 60, ord := fld a 59 58, rd := bit a 57, wr := bit a 56, ex := bit a 55, tier := fld a 54 53
    ntier := fld a 52 51, frame := fld a 39 0, tokens := fld b 63 40, nframe := fld b 39 0, moved := 0 }

/-! ### Side-log entries (R243) -/

/-- A side-log entry's four words. -/
def SEnt.words (e : SEnt) (ctx : Nat) : List Nat :=
  [packed [(e.ea % 2 ^ 56, 8), (b2n e.red, 7), (e.size.log2, 5), (if e.red then e.op else 0, 1), (b2n (e.red && e.size == 8), 0)]
   , e.data % 2 ^ 64
   , packed [(e.tid.num % 2 ^ 32, 32), (e.tid.kind % 4, 30), (e.tid.kern % 2 ^ 12, 18), (ctx % 32, 13), (e.mode % 8, 10)]
   , packed [(e.pcw % 2 ^ 28, 36)]]

/-- The entry that four words hold. -/
def SEnt.ofWords (a b c d : Nat) : SEnt :=
  { ea := fld a 63 8, red := bit a 7, size := 2 ^ fld a 6 5, op := fld a 4 1, data := b, tid := ⟨fld c 29 18, fld c 31 30, fld c 63 32⟩
    mode := fld c 12 10, pcw := fld d 63 36 }

/-! ### Frames (R72, R394) -/

/-- The route word of a request frame (R392): kind, flits, destination, context and the kind's own bits. -/
def routeWord (kind cls flits chip core ctx own : Nat) : Nat :=
  packed [(kind, 60), (cls, 59), (flits, 55), (chip, 39), (core, 30), (ctx, 25), (own, 0)]

/-- Bytes of a knight (R72). -/
def Knight.size (k : Knight) : Nat := 40 + 8 * k.regs.length

/-- A knight's words for a home (R72): the header, SRNG, the carried registers in ascending number, and zeros to the end of the last flit. -/
def Knight.words (k : Knight) (chip core : Nat) : List Nat :=
  let flits := (k.size + 31) / 32
  [routeWord 1 0 flits chip core k.ctx (packed [(k.kern % 2 ^ 12, 13), (b2n k.mig.mg, 12), (k.round.toNat, 9), (b2n k.pw, 8)])
   , packed [(k.mig.ea % 2 ^ 56, 8), (b2n k.mig.sx, 7), (k.mig.sz % 4, 5), (k.mig.d % 32, 0)]
   , packed [(k.number.toNat, 32), (k.carry.toNat, 0)]
   , packed [(k.pcw % 2 ^ 28, 36), (k.pdepth * 2 ^ 16 + k.pent.toNat, 15), (k.flags.toNat, 8), (k.trapen.toNat, 1)]
   , k.srng.toNat] ++ k.regs.map (·.2.toNat) ++ List.replicate (4 * flits - 5 - k.regs.length) 0

/-- A creation record's words for a home (R394). -/
def Spawn.words (c : Spawn) (chip core : Nat) : List Nat :=
  [routeWord 2 0 2 chip core c.ctx (packed [(c.kern % 2 ^ 12, 13), (b2n c.ln, 12)])
   , c.g0.toNat, c.g1.toNat, packed [(c.pcw % 2 ^ 28, 36)], c.srng.toNat, packed [(c.number.toNat, 32)], 0, 0]

end Sys2Proof.Machine
end

