-- ==== Sys2Proof/Machine/Pages.lean ====
section
/-! DEFINITION. Nyend's requests on pages (10 R239, R246, R247, R254), installing a placement table (07 R166), home changes (10 R256, R257)
and tier moves (R258-R260). -/

namespace Sys2Proof.Machine
open Sys2Proof

/-! ### Giving, mapping, withdrawing -/

/-- PAGE_GIVE (R239): rights and kind without a frame, in the page size of its key. -/
def execPageGive (s : State) : Host.Outcome State Fault Refusal :=
  .next (match s.ev with
    | .give key p =>
      let fresh : Page := { st := .unmapped, s := false, ord := p.ord, rd := p.rd, wr := p.wr, ex := p.ex, tier := tierOfKey key, ntier := 0, frame := 0
                            tokens := 0, nframe := 0, moved := 0 }
      match s.pages.get? key with
      | none => { s with pages := s.pages.set key fresh }
      | some q => if q.st = .retired then { s with pages := s.pages.set key fresh } else s
    | _ => s)

/-- Whether a frame is withdrawn from use (R433), or another entry of the page's context maps it at the page's home while either has S = 1 (R254). -/
def State.mapRefused (s : State) (key tier frame : Nat) (p : Page) : Bool :=
  s.dev.withdrawn.contains (tier, coreOfKey key, frame) || s.pages.any fun x => x.1 != key && ctxOfKey x.1 == ctxOfKey key && s.maps x.2 tier frame
    && (tier == 2 || coreOfKey x.1 == coreOfKey key) && (x.2.s || p.s)

/-- The chips that a placement table names (R76). -/
def tabChips (t : List PEnt) : List Nat := (t.flatMap fun e => if e.v then (List.range e.nchip).map (e.chip0 + ·) else []).eraseDups

/-- The units of 64 KiB of a core's LPDDR-6 share that arrival reserves hold (R76). -/
def State.reserved (s : State) : Nat :=
  s.ctxs.foldl (fun n x => if x.2.st ≠ .free ∧ (tabChips x.2.ptab).contains s.chip = true then n + x.2.resv * 1024 else n) 0

/-- The TIER 1 frames in use at a core, those that moves are filling included (R236). -/
def State.frames1 (s : State) (core : Nat) : Nat :=
  (s.pages.flatMap fun x =>
    let p := x.2
    if coreOfKey x.1 ≠ core ∨ p.st = .unmapped ∨ p.st = .retired then [] else
    (if p.tier = 1 then [p.frame] else []) ++ (if p.st ≠ .moving ∨ p.ntier ≠ 1 then []
      else if pageSize 1 < pageSize p.tier then (s.moves.get? p.nframe).getD [] else [p.nframe])).eraseDups.length

/-- Whether n more TIER 1 frames would take a unit that an arrival reserve holds (R76, R236). -/
def State.unitsFull (s : State) (core tier n : Nat) : Bool := tier == 1 && decide (40960 < s.reserved + s.frames1 core + n)

/-- MAP_FRAME (R239, R246): the side log is replayed before the home performs any other access to the page. -/
def execMapFrame (s : State) : Host.Outcome State Fault Refusal :=
  .next (match s.ev with
    | .n2 key frame =>
      match s.pages.get? key with
      | some p =>
        let tier := tierOfKey key
        if p.st ≠ .unmapped ∨ s.mapRefused key tier frame p = true ∨ s.unitsFull (coreOfKey key) tier 1 = true then s
        else (s.modPage key fun p => { p with st := .mapped, tier := tier, frame := frame, s := false }).replayLog (ctxOfKey key) key
      | none => s
    | _ => s)

/-- Whether a page holds a byte of its context's fault queue (R380). -/
def State.fqPage (s : State) (key : Nat) : Bool :=
  let ctx := ctxOfKey key
  let c := s.ctx ctx
  (s.pagesOf c.ptab ctx c.fqbase (64 + 64 * 2 ^ c.fqlog2)).any fun x => x.1.chip == s.chip && x.1.key ctx == key

/-- UNMAP_FRAME (R239, R380). -/
def execUnmapFrame (s : State) : Host.Outcome State Fault Refusal :=
  .next (match s.ev with
    | .n1 key =>
      match s.pages.get? key with
      | some p =>
        if (p.st = .mapped ∨ p.st = .sealed) ∧ s.fqPage key = false then
          s.modPage key fun p => { p with st := .unmapped, s := false, frame := 0, moved := 0, nframe := 0 }
        else s
      | none => s
    | _ => s)

/-- An event held at a page is performed in its place. -/
def State.runHeld (s : State) (e : Ev) : State :=
  match e.a with
  | .req r => s.performReq r
  | .fill f => s.fillAt f
  | .seal q => if q.un then s.unsealAt q else s.sealAt q
  | _ => s.post e.i e.a

/-- The events held at a page performed in the order they arrived. -/
def State.releaseHeld (s : State) (key : Nat) : State :=
  let es := (s.heldP.get? key).getD []
  es.foldl (fun s e => s.runHeld e) { s with heldP := s.heldP.del key }

/-- A page RETIRED (R239, R247): its side log becomes deferred records and what it held is refused. -/
def State.retirePage (s : State) (key : Nat) (c : Cause) : State :=
  ((s.modPage key fun p => { p with st := .retired }).failLog (ctxOfKey key) key c).releaseHeld key

/-- PAGE_WITHDRAW (R239, R247): the page becomes RETIRED; a RETIRED entry that no side-log entry names is removed next, or on the next request. -/
def execPageWithdraw (s : State) : Host.Outcome State Fault Refusal :=
  .next (match s.ev with
    | .n1 key => match s.pages.get? key with
      | none => s
      | some p =>
        if p.st ≠ .retired then (s.retirePage key .permission).post .pageWithdraw (.n1 key)
        else if (s.slog.get? key).getD [] = [] then { s with pages := s.pages.del key } else s
    | _ => s)

/-! ### The placement table (R165, R166) -/

/-- The cores of a core set. -/
def coresOf (e : PEnt) : List Nat := (List.range 384).filter fun c => bit e.coreset c

/-- Whether an entry fails a check of R166 against the lower-numbered ones, or names a granule outside 64 B to 2 MiB (R165, log 57). -/
def State.pentBad (s : State) (low : List PEnt) (e : PEnt) : Bool :=
  e.v && (decide (e.glog < 6 ∨ 21 < e.glog) || e.base % 2 ^ e.glog != 0 || e.len == 0 || e.len % 2 ^ e.glog != 0 || decide (2 ^ 56 < e.base + e.len)
    || (low.any fun x => x.v && decide (e.base < x.base + x.len ∧ x.base < e.base + e.len))
    || decide (e.count ≠ (coresOf e).length) || ((coresOf e).any fun c => (s.core c).retired || (s.core c).noHome) || decide (e.nchip = 0)
    || decide (0xffff < e.chip0 + e.nchip - 1) || decide (3 ≤ e.tier) || (e.tier == 2 && e.nchip != 1))

/-- The number of the first failing entry (R166). -/
def State.tabBad (s : State) : Nat → List PEnt → List PEnt → Option Nat
  | _, _, [] => none
  | n, low, e :: r => if s.pentBad low e then some n else s.tabBad (n + 1) (low ++ [e]) r

/-! ### Home changes (R256, R257) -/

/-- The address of byte o of a page under a table: the home function read backwards (R167, R237). -/
def vaOf (tab : List PEnt) (chip key o : Nat) : Option Nat :=
  match tab[regionOfKey key]? with
  | none => none
  | some e =>
    if e.v then
      let hl := hpOfKey key * pageSize (tierOfKey key) + o
      let idx := (coresOf e).idxOf (coreOfKey key)
      let m := (chip - e.chip0) * e.count + idx
      some (e.base + (hl / 2 ^ e.glog * (e.count * e.nchip) + m) * 2 ^ e.glog + hl % 2 ^ e.glog)
    else none

/-- The state of a page before its home change: UNMAPPED pages are marked by MOVED = 1. -/
def Page.before (p : Page) : PgSt := if p.moved = 1 then .unmapped else if p.s then .sealed else .mapped

/-- Whether a page can change home (R239): MAPPED or SEALED, or UNMAPPED with its side log. -/
def Page.mayRehome (p : Page) : Bool := p.st == .mapped || p.st == .sealed || p.st == .unmapped

/-- The new entry of a page that changes home: the old one's rights in REHOMING, with its own frame (R257). -/
def State.enterNew (s : State) (p : Page) (new frame : Nat) : State :=
  if !p.mayRehome then s else
  let q : Page := { p with st := .rehoming, frame := frame, tokens := 0, moved := if p.st = .unmapped then 1 else 0 }
  let k := q.key (coreOfKey new) 0
  ({ s with pages := s.pages.set new q, mem := clearCells s.mem k (pageSize q.tier) } : State).cleanse k (pageSize q.tier)

/-- A page of this chip in REHOMING that holds an address, with the address's byte in its frame. -/
def State.rehomed (s : State) (ctx va : Nat) : Option (Nat × Nat) :=
  match s.homeOf ctx va with
  | some h => if h.chip ≠ s.chip then none else match s.pages.get? (h.key ctx) with
    | some q => if q.st = .rehoming then some (h.key ctx, q.key h.core h.pofs) else none
    | none => none
  | none => none

/-- Eight bytes of a page copied to their new home, on this chip or another (R257, step 2). -/
def State.copyWord (s : State) (ctx : Nat) (prev tab : List PEnt) (m : List Host.Cell) (old base o : Nat) : State :=
  match vaOf prev s.chip old o with
  | none => s
  | some va => match homeIn tab va with
    | none => s
    | some h =>
      if h.chip ≠ s.chip then s.forward (coreOfKey old) h.chip h.core ctx .homeChangeForward
        (.hcopy ctx va (8 + b2n (s.poisoned (base + o) 8) * 256) (memRdN m (base + o) 8))
      else match s.rehomed ctx va with
        | some (_, k) => (s.wrMem k 8 (memRdN m (base + o) 8)).carryPoison (base + o) k 8
        | none => s

/-- The bytes of a page, as memory `m` held them, copied to their new homes (R257, step 2); new frames begin with zeros. -/
def State.copyHome (s : State) (ctx : Nat) (prev tab : List PEnt) (olds : Tab Page) (m : List Host.Cell) (old : Nat) : State :=
  match olds.get? old with
  | none => s
  | some p =>
    if p.st ≠ .mapped ∧ p.st ≠ .sealed then s else
    let base := p.key (coreOfKey old) 0
    let bad := (s.poison.filter fun x => touches x base (pageSize p.tier)).flatMap fun x => [x.1 - base, x.1 + x.2 - 1 - base]
    let ws := (((cellsIn m base (pageSize p.tier)).map fun (c : Host.Cell) => (c.1 - base) / 8) ++ bad.map (· / 8)).eraseDups
    ws.foldl (fun s w => s.copyWord ctx prev tab m old base (8 * w)) s

/-- The side-log entries of a page moved to the pages that now hold their addresses (R257, step 2). -/
def State.moveLog (s : State) (ctx : Nat) (tab : List PEnt) (old : Nat) : State :=
  let es := (s.slog.get? old).getD []
  es.foldl (fun s e => match homeIn tab e.ea with
    | some h =>
      if h.chip ≠ s.chip then s.forward (coreOfKey old) h.chip h.core ctx .homeChangeForward (.hlog ctx e)
      else
        let k := (s.inPage h ctx).key ctx
        { s with slog := s.slog.set k ((s.slog.get? k).getD [] ++ [e]) }
    | none => s) { s with slog := s.slog.del old, logged := s.logged.filter (· != old) }

/-- Watches of a page that changes home are woken (R218). -/
def State.wakeWatches (s : State) (hit : Watch → Bool) : State :=
  s.watches.foldl (fun s x =>
    let w := x.2.filter hit
    let s : State := { s with watches := s.watches.set x.1 (x.2.filter fun y => !hit y) }
    w.foldl (fun s w => s.send x.1 w.chip w.core .ackResponse (.resp w.lane.tk w.lane.id .woken)) s) s

/-- The replicas of pages that change home dropped on every die (log 58). -/
def State.dropMoved (s : State) (ctx : Nat) (tab : List PEnt) (chg : List HChg) : State :=
  let mine (r : Rep) (h : RHalf) : Bool := r.ctx == ctx
    && (chg.any (fun c => c.ochip == h.chip && c.okey == h.key) || match homeIn tab (r.line * 128) with
      | some x => chg.any fun c => c.nchip == x.chip && c.nkey == (s.inPage x ctx).key ctx
      | none => false)
  let bump (t : Tab Nat) (d : Nat) : Tab Nat := t.set d (s.epoch d + 1)
  ({ s with epochs := (List.range 4).foldl bump s.epochs } : State).dropReps mine

/-- One change of a home at the instant T (R257, steps 1 and 2), at this chip's old and new homes; MOVED = 2 marks an entry that its old home removes with
the marker. What the old homes hold is forwarded. -/
def State.rehomeAll (s : State) (ctx : Nat) (prev tab : List PEnt) (chg : List HChg) : State :=
  let mine := chg.filter (·.ochip == s.chip)
  let here := chg.filter (·.nchip == s.chip)
  let olds := (mine.map (·.okey)).eraseDups
  let was := s.pages
  let m := s.mem
  let pageOf (c : HChg) : Option Page := if c.ochip = s.chip then was.get? c.okey else some c.page
  let s := s.dropMoved ctx tab chg
  let s := here.foldl (fun s c => match pageOf c with
    | some p => s.enterNew p c.nkey c.frame
    | none => s) s
  let s := olds.foldl (fun s o => (s.copyHome ctx prev tab was m o).moveLog ctx tab o) s
  let s := s.wakeWatches fun w => w.ctx == ctx && (match homeIn prev w.lane.ea with
    | some h => h.chip == s.chip && olds.any fun o => tagOfKey o == tagOfKey (h.key ctx)
    | none => false)
  let gone := olds.filter fun o => !here.any fun c => c.nkey == o
  let s := gone.foldl (fun s o => s.modPage o fun p => if p.mayRehome then { p with st := .rehoming, moved := 2 } else p) s
  let s : State := { s with rehome := s.rehome ++ chg }
  let s := mine.foldl (fun s c => s.post .drainMarkerSend (.n4 c.ochip c.okey c.nchip c.nkey)) s
  olds.foldl (fun s o => s.releaseHeld o) s

/-- The chips of a table and of the one before it, without this one. -/
def State.tableChips (s : State) (prev tab : List PEnt) : List Nat := ((tabChips prev ++ tabChips tab).filter (· != s.chip)).eraseDups

/-- The chips that have not yet said that every core of theirs has the new table (R257); larger numbers are chips that said so before this chip's install,
and kernel entries that an added chip has still to acknowledge. -/
def Ctx.unheard (c : Ctx) : Bool := c.lateChips.any fun x => decide (x < 2 ^ 16)

/-- The region of the new table at whose page a registered WIDX forbids the change (R285). -/
def State.widxMoves (s : State) (ctx : Nat) (tab : List PEnt) (chg : List HChg) : Option Nat :=
  (s.queues.find? fun q => q.1 / 64 == ctx && q.2.st != .destroyed && (match s.homeOf ctx (q.2.desc + 16) with
    | some h => chg.any fun c => c.ochip == h.chip && c.okey == h.key ctx
    | none => false)).map fun q => ((findRegion tab (q.2.desc + 16) 0).map (·.1)).getD 0

/-- Whether a page of a change is in a procedure of its own, whose end the change waits for (log 58). -/
def State.chgBusy (s : State) (chg : List HChg) : Bool :=
  chg.any fun c => c.ochip == s.chip && (match s.pages.get? c.okey with
    | some p => p.st == .moving || p.st == .unsealing || p.st == .rehoming
    | none => false)

/-- A table installed, and the changes of home that it makes (R256); a chip that the table adds gets every kernel entry in use (R319). -/
def State.installs (s : State) (ctx : Nat) (tab : List PEnt) (chg : List HChg) : State :=
  let c := s.ctx ctx
  let prev := c.ptab
  let others := s.tableChips prev tab
  let new := (tabChips tab).filter fun ch => ch != s.chip && !(tabChips prev).contains ch
  let ks := s.kern.filter fun k => k.1 / 4096 == ctx && k.2.chip == s.chip
  let late := (others.filter fun ch => !c.lateChips.contains (2 ^ 16 + ch)) ++ new.flatMap fun ch => ks.map fun k => 2 ^ 28 + ch * 4096 + k.1 % 4096
  let s := s.modCtx ctx fun c => { c with ptab := tab, prev := prev, late := List.range Config.numCores, lateChips := late }
  let s := s.rehomeAll ctx prev tab chg
  let s : State := { s with kern := s.kern.map fun k => if ks.any (·.1 == k.1) then (k.1, { k.2 with chips := (k.2.chips ++ new).eraseDups }) else k }
  let s := ks.foldl (fun s k => new.foldl (fun s ch => s.send (distCore 0) ch (distCore 0) .placementTableInstall (.kent ctx (k.1 % 4096) k.2)) s) s
  ((List.range Config.numCores).foldl (fun s core => s.post .placementTableInstall (.n2 core ctx)) s).post .placementTableInstall (.n1 ctx)

/-- PLACEMENT_TABLE_INSTALL (R166, R256, R319): Nyend's request installs a table; each core's copy then changes once. The request completes when every core
has the table and every added chip its kernel entries. One install is in progress at a time. -/
def execPlacementTableInstall (s : State) : Host.Outcome State Fault Refusal :=
  .next (match s.ev with
    | .install ctx ws chg =>
      let c := s.ctx ctx
      let tab := tableOf ws
      if c.st = .free then s.answerHost .noContext 0
      else match s.tabBad 0 [] tab with
        | some n => s.answerHost .badPlacement n
        | none =>
          if c.late ≠ [] ∨ c.unheard = true ∨ s.chgBusy chg = true then s.post .placementTableInstall s.ev
          else match s.widxMoves ctx tab chg with
            | some n => s.answerHost .badPlacement n
            | none => s.installs ctx tab chg
    | .n2 core ctx =>
      let c := s.ctx ctx
      let late := c.late.filter (· != core)
      let s := s.modCtx ctx fun c => { c with late := late }
      if late ≠ [] ∨ c.late = [] then s
      else (s.tableChips c.prev c.ptab).foldl (fun s ch => s.send (distCore 0) ch (distCore 0) .placementTableInstall (.n3 ctx s.chip 0)) s
    | .n3 ctx chip _ => s.modCtx ctx fun c =>
        { c with lateChips := if c.lateChips.contains chip then c.lateChips.filter (· != chip) else c.lateChips ++ [2 ^ 16 + chip] }
    | .kent ctx kern e =>
      ({ s with kern := s.kern.set (ctx * 4096 + kern) e }).send (distCore 0) e.chip (distCore 0) .placementTableInstall (.n4 ctx kern s.chip 0)
    | .n4 ctx kern chip _ => s.modCtx ctx fun c => { c with lateChips := c.lateChips.filter (· != 2 ^ 28 + chip * 4096 + kern) }
    | .n1 ctx =>
      let c := s.ctx ctx
      if c.st = .free then s
      else if c.late ≠ [] ∨ (c.lateChips.any fun x => decide (2 ^ 28 ≤ x)) = true then s.post .placementTableInstall s.ev
      else s.answerHost .ok 0
    | _ => s)

/-- One forwarded access fewer that a new home has still to acknowledge (R257, step 3). -/
def State.fwdAcked (s : State) (ctx : Nat) : State := { s with fwds := s.fwds.set ctx ((s.fwds.get? ctx).getD 0 - 1) }

/-- A forwarded event acknowledged to the home that forwarded it. -/
def State.fwdAck (s : State) (ctx chip core : Nat) : State :=
  if chip = s.chip then s.fwdAcked ctx else s.send Config.mgmtCore chip core .homeChangeForward (.n1 ctx)

/-- What a forwarded event concerns: its context, and the address whose page may be REHOMING. -/
def Arg.fwdAt : Arg → Option (Nat × Option Nat)
  | .req r => some (r.ctx, r.lanes.head?.map (·.ea))
  | .fill f => some (f.ctx, some f.lane.ea)
  | .seal q => some (q.ctx, some q.addr)
  | .hcopy ctx va _ _ => some (ctx, some va)
  | .hlog ctx e => some (ctx, some e.ea)
  | .knight _ k => some (k.ctx, Option.none)
  | .spawn _ _ _ _ c => some (c.ctx, Option.none)
  | .n6 _ _ ctx _ _ _ => some (ctx, Option.none)
  | _ => Option.none

/-- What a new home receives from the old one of a page in REHOMING (R257): bytes, a side-log entry, or an access that it holds. -/
def State.fromOld (s : State) (key k : Nat) (i : Instr) (a : Arg) : State :=
  match a with
  | .hcopy _ _ n v => let s := s.wrMem k 8 v
    if 256 ≤ n then s.poisonAt (k / 32 * 32) 32 else s
  | .hlog _ e => { s with slog := s.slog.set key ((s.slog.get? key).getD [] ++ [e]) }
  | _ => { s with heldF := s.heldF.set key ((s.heldF.get? key).getD [] ++ [⟨i, a⟩]) }

/-- Whether an event is what only an old home sends. -/
def Arg.copied : Arg → Bool
  | .hcopy _ _ _ _ | .hlog _ _ => true
  | _ => false

/-- HOME_CHANGE_FORWARD (R257): at the new home an access to a REHOMING page is held with the forwarded ones; anything else goes on. Bytes and side-log
entries of a page whose new home has not yet installed the table wait. -/
def execHomeChangeForward (s : State) : Host.Outcome State Fault Refusal :=
  .next (match s.ev with
    | .n1 ctx => s.fwdAcked ctx
    | .fwd chip core i a =>
      (match a.fwdAt with
        | none => s.post i a
        | some (ctx, va) => match va.bind (s.rehomed ctx) with
          | some (key, k) => (s.fwdAck ctx chip core).fromOld key k i a
          | none => if a.copied then s.post .homeChangeForward s.ev else (s.fwdAck ctx chip core).post i a)
    | _ => s)

/-- DRAIN_MARKER_SEND (R257, steps 3 and 4): once every core of the context, on every chip, has the new table and every forwarded access has arrived. -/
def execDrainMarkerSend (s : State) : Host.Outcome State Fault Refusal :=
  .next (match s.ev with
    | .n4 ochip old nchip new =>
      let ctx := ctxOfKey old
      if (s.ctx ctx).late ≠ [] ∨ (s.ctx ctx).unheard = true ∨ (s.fwds.get? ctx).getD 0 ≠ 0 then s.post .drainMarkerSend s.ev
      else
        let rest := s.rehome.filter fun c => !(c.ochip == ochip && c.okey == old && c.nchip == nchip && c.nkey == new)
        let last := !(rest.any fun c => c.ochip == ochip && c.okey == old) && (match s.pages.get? old with
          | some p => p.st == .rehoming && p.moved == 2
          | none => false)
        let s : State := if last then { s with pages := s.pages.del old } else s
        { s with rehome := rest }.send (coreOfKey old) nchip (coreOfKey new) .homeChangeMarker (.n4 ochip old nchip new)
    | _ => s)

/-- HOME_CHANGE_MARKER (R257, step 4): the page resumes, the forwarded accesses first, then the direct ones. -/
def execHomeChangeMarker (s : State) : Host.Outcome State Fault Refusal :=
  .next (match s.ev with
    | .n4 ochip old nchip new =>
      let s : State := { s with rehome := s.rehome.filter fun c => !(c.ochip == ochip && c.okey == old && c.nchip == nchip && c.nkey == new) }
      if s.rehome.any fun c => c.nchip == nchip && c.nkey == new then s
      else match s.pages.get? new with
        | some p =>
          if p.st = .rehoming then
            let s := s.modPage new fun p => { p with st := p.before, moved := 0 }
            let fs := (s.heldF.get? new).getD []
            let s := fs.foldl (fun s e => s.runHeld e) { s with heldF := s.heldF.del new }
            s.releaseHeld new
          else s
        | none => s
    | _ => s)

/-! ### Tier moves (R258-R260) -/

/-- The pages that a merge starting at a page joins (R258); a split or a move of one page size concerns the page alone. -/
def movePages (key tier ntier : Nat) : List Nat :=
  let a := pageSize tier
  let b := pageSize ntier
  if a < b then (List.range (b / a)).map (key - hpOfKey key % (b / a) + ·) else [key]

/-- Whether every page of a move may start it: all MAPPED or all SEALED, with equal rights and kind (R258). -/
def State.moveOk (s : State) (ks : List Nat) (p : Page) : Bool :=
  ks.all fun k => match s.pages.get? k with
    | some q => (q.st == .mapped || q.st == .sealed) && q.st == p.st && q.ord == p.ord && q.rd == p.rd && q.wr == p.wr && q.ex == p.ex
    | none => false

/-- Whether a move's destination frames are enough, outside the arrival reserves, and not mapped by another entry while either is sealed (R76, R254). -/
def State.framesOk (s : State) (key ntier : Nat) (frames : List Nat) (p : Page) : Bool :=
  let n := if pageSize ntier < pageSize p.tier then pageSize p.tier / pageSize ntier else 1
  decide (frames.length = n) && !s.unitsFull (coreOfKey key) ntier n && frames.all fun f => !s.mapRefused key ntier f p

/-- Whether a recall of a page is on its way (R253). -/
def State.recalling (s : State) (key : Nat) : Bool :=
  let of_ (e : Ev) : Bool := e.i == .recall && (match e.a with
    | .n2 k _ => k == key
    | _ => false)
  s.agenda.any of_ || s.flights.any fun f => of_ f.ev

/-- TIER_MOVE_START (R258): a sealed page first gets its tokens back. -/
def execTierMoveStart (s : State) : Host.Outcome State Fault Refusal :=
  .next (match s.ev with
    | .tier key ntier frames =>
      match s.pages.get? key with
      | none => s
      | some p =>
        let ks := movePages key p.tier ntier
        if ntier = p.tier ∨ s.moveOk ks p = false ∨ (ks.any fun k => s.fqPage k) = true ∨ s.framesOk key ntier frames p = false then s
        else
          let busy := ks.filter fun k => match s.pages.get? k with
            | some q => q.tokens != 0
            | none => false
          if busy ≠ [] then (busy.foldl (fun s k => if s.recalling k then s else s.sendRecall k) s).post .tierMoveStart s.ev
          else
            let id := s.ids
            let split := decide (pageSize ntier < pageSize p.tier)
            let s := if split then { s.fresh with moves := s.moves.set id frames } else s
            let s := ks.foldl (fun s k => s.modPage k fun q =>
              { q with st := .moving, ntier := ntier, nframe := if split then id else frames.headD 0, moved := 0 }) s
            s.post .tierMoveLineCopy (.n1 (ks.headD key))
    | _ => s)

/-- The end of a move (R258, R260): each new entry takes the state, the rights and the kind of the page it came from, with its own frame and no token; the
old entries and the move list go. -/
def State.endMove (s : State) (ks : List Nat) (p : Page) : State :=
  let key := ks.headD 0
  let a := pageSize p.tier
  let b := pageSize p.ntier
  let q : Page := { p with st := if p.s then .sealed else .mapped, tier := p.ntier, ntier := 0, tokens := 0, nframe := 0, moved := 0 }
  let put (t : Tab Page) (hp f : Nat) : Tab Page := t.set (pgKey (ctxOfKey key) (regionOfKey key) (coreOfKey key) hp p.ntier) { q with frame := f }
  let t := ks.foldl (fun t k => Tab.del t k) s.pages
  if b < a then
    { s with pages := ((s.moves.get? p.nframe).getD []).zipIdx.foldl (fun t f => put t (hpOfKey key * (a / b) + f.2) f.1) t
             moves := s.moves.del p.nframe }
  else { s with pages := put t (hpOfKey key / (b / a)) p.nframe }

/-- TIER_MOVE_LINE_COPY (R259): one line, in ascending order; the pages of a merge follow one another. -/
def execTierMoveLineCopy (s : State) : Host.Outcome State Fault Refusal :=
  .next (match s.ev with
    | .n1 key =>
      match s.pages.get? key with
      | none => s
      | some p =>
        if p.st ≠ .moving then s else
        let core := coreOfKey key
        let o := 128 * p.moved
        let v := memRdN s.mem (p.key core o) 128
        let s := s.modPage key fun p => { p with moved := p.moved + 1 }
        let s := (s.wrMem (s.byteKey key { p with moved := p.moved + 1 } o) 128 v).carryPoison (p.key core o)
          (s.byteKey key { p with moved := p.moved + 1 } o) 128
        if (p.moved + 1) * 128 < pageSize p.tier then s.post .tierMoveLineCopy (.n1 key)
        else
          let ks := movePages key p.tier p.ntier
          if ks.contains (key + 1) && key != ks.getLastD key then s.post .tierMoveLineCopy (.n1 (key + 1))
          else ks.foldl (fun s k => s.releaseHeld k) (s.endMove ks p)
    | _ => s)

end Sys2Proof.Machine
end

