-- ==== Sys2Proof/Machine/Sysp.lean ====
section
/-! DEFINITION. Fault queues (18 R380-R383) and Nyend's instructions (R384-R390): TRET, XFLT, REPLAY, PINVAL, DROPR, CTXSW, HALT, and firmware
requests between chips (R388). -/

namespace Sys2Proof.Machine
open Sys2Proof

/-! ### Fault queues (R380-R383) -/

/-- The eight words of a fault record at cursor c of a queue of 2^n records (R381). A record from another chip has that chip, plus 1, above its
core number. -/
def FRec.words (r : FRec) (chip c n : Nat) : List Nat :=
  let ch := if r.core < 512 then chip else r.core / 512 - 1
  [(1 - c / 2 ^ n % 2) * 2 ^ 63 + r.kind * 2 ^ 59 + r.cause.num * 2 ^ 54 + ch * 2 ^ 38 + r.core % 512 * 2 ^ 29 + r.slot * 2 ^ 20 + r.kern * 2 ^ 8
     + r.tkind * 2 ^ 6 + r.ring,
   r.number * 2 ^ 32 + r.lmask.toNat, r.addr.toNat, r.pc.toNat, r.info.toNat, r.page.toNat, r.aux0.toNat, r.aux1.toNat]

/-- The address of cursor c. -/
def fqAt (base n c : Nat) : Nat := base + 64 + 64 * (c % 2 ^ n)

/-- A pending list (R383). -/
def State.fqPend (s : State) (k : Nat) : List (Nat × FRec) := (s.fqp.get? k).getD []
/-- The list replaced. -/
def State.setFqPend (s : State) (k : Nat) (l : List (Nat × FRec)) : State := { s with fqp := if l = [] then s.fqp.del k else s.fqp.set k l }

/-- PEND of a queue's header stored (R380). -/
def State.storePend (s : State) (core ctx : Nat) : State :=
  let n := s.fqp.foldl (fun n x => if x.1 % 64 = ctx then n + x.2.length else n) 0
  s.wrA core ctx ((s.ctx ctx).fqbase + 16) 4 n

/-- Words 1 to 7 of a claimed record written; word 0 follows as a release, once those are performed (R383). -/
def State.fqWrite (s : State) (core ctx c : Nat) (r : FRec) : State :=
  let x := s.ctx ctx
  let a := fqAt x.fqbase x.fqlog2 c
  let ws := r.words s.chip c x.fqlog2
  let e : Arg := .n4 ctx core a (ws.headD 0)
  (s.wrWords core ctx (a + 8) (ws.drop 1)).thenDo s.ids none ⟨.faultRecordWrite, e⟩ fun s => s.post .faultRecordWrite e

/-- Pending records that have room now are written, oldest first in each list. -/
def State.fqDrain (s : State) (ctx r : Nat) : State :=
  let x := s.ctx ctx
  let ready (e : Nat × FRec) : Bool := decide ((e.1 + 2 ^ 64 - r) % 2 ^ 64 < 2 ^ x.fqlog2)
  (s.fqp.filter fun p => p.1 % 64 == ctx).foldl (fun s p =>
    let go := p.2.filter ready
    if go = [] then s else
    let s := s.setFqPend p.1 (p.2.filter fun e => !ready e)
    (go.foldl (fun s e => s.fqWrite (p.1 / 64) ctx e.1 e.2) s).storePend (p.1 / 64) ctx) s

/-- Records that wait are written when RCUR changes. -/
def State.fqWatch (s : State) (ctx : Nat) : State :=
  if s.fqp.any fun p => p.1 % 64 == ctx then s.watchWord ctx ((s.ctx ctx).fqbase + 8) ⟨.faultRecordWrite, .n1 ctx⟩ else s

/-- A record claimed by its producer (R383): written at once if there is room, else held; a full list stops the context. -/
def State.fqClaim (s : State) (ctx : Nat) (r : FRec) : State :=
  let x := s.ctx ctx
  let core := r.core % 512
  match s.rdWords ctx 0 false x.fqbase 2 with
  | .error x => s.nyendErr ctx ⟨.faultRecordWrite, .frec ctx r⟩ (fun _ _ => s) x
  | .ok ws =>
    let c := ws.getD 0 0
    let s := s.wrA core ctx x.fqbase 8 ((c + 1) % 2 ^ 64)
    if (c + 2 ^ 64 - ws.getD 1 0) % 2 ^ 64 < 2 ^ x.fqlog2 then s.fqWrite core ctx c r
    else
      let k := core * 64 + ctx
      let l := s.fqPend k
      if 4096 ≤ l.length then (s.devLog 0x21 (s.locOf core) 0 ctx).startTeardown ctx
      else ((s.setFqPend k (l ++ [(c, r)])).storePend core ctx).fqWatch ctx

/-- FAULT_RECORD_WRITE (R383): a record for a context's fault queue, whose header may be on another chip; word 0 of a written record, which
wakes HALT (R390); or room for records that wait. -/
def execFaultRecordWrite (s : State) : Host.Outcome State Fault Refusal :=
  .next (match s.ev with
    | .frec ctx r =>
      if s.ctxGone ctx then s
      else
        let h := s.dirHome ctx
        if h.1 = s.chip then s.fqClaim ctx r
        else
          let r' : FRec := { r with core := r.core % 512 + 512 * (s.chip + 1) }
          s.send (r.core % 512) h.1 h.2 .faultRecordWrite (.frec ctx r')
    | .n4 ctx core a w => if s.ctxGone ctx then s else (s.wrA core ctx a 8 w).wakeHalt
    | .n1 ctx =>
      match s.rdA ctx 0 false ((s.ctx ctx).fqbase + 8) 8 with
      | .ok r => (s.fqDrain ctx r).fqWatch ctx
      | .error x => s.nyendErr ctx ⟨.faultRecordWrite, .n1 ctx⟩ (fun _ _ => s) x
    | _ => s)

/-! ### Words of SYSP (R384) -/

/-- Block word i, as a number. -/
def State.bw (s : State) (sb : BitVec 8) (i : Nat) : Nat := (s.sreg (sb.toNat + i)).toNat

/-- The first word of a list that has a reserved bit set raises ILLEGAL_INSTR with its position. -/
def State.sysCheck (s : State) (bad : List Bool) (k : State → State) : State :=
  match bad.findIdx? id with
  | some i => s.failAll .illegalInstr 0 (W (0x100 + i))
  | none => k s

/-- Whether a context word has a reserved bit set. -/
def ctxWordBad (w : Nat) : Bool := w / 32 != 0
/-- The key of the page that a page word names at this chip: in the page size of the region, or that of the entry its home has (R258, R384). -/
def State.pageOfWord (s : State) (ctx w : Nat) : Nat :=
  let k (tier : Nat) : Nat := pgKey ctx (fld w 38 33) (fld w 47 39) (fld w 32 0) tier
  let t := ((s.ctx ctx).ptab[fld w 38 33]?.map (·.tier)).getD 0
  k (([t, 0, 1, 2].find? fun t => (s.pages.get? (k t)).isSome).getD t)
/-- Whether a page word names a page of a context (R384): one page, every page of a region at a home, or every page. -/
def wordNames (w ctx chip key : Nat) : Bool :=
  ctxOfKey key == ctx &&
    (w == 2 ^ 64 - 1 || (fld w 63 48 == chip && fld w 47 39 == coreOfKey key && fld w 38 33 == regionOfKey key
      && (fld w 32 0 == 2 ^ 33 - 1 || fld w 32 0 == hpOfKey key)))

/-- A result in g[G] of the issuing thread. -/
def State.sysG (s : State) (g v : Nat) : State := s.eachLane fun s l => s.wrG l.tk g (W v)

/-- A request for another chip's Nyend (R388): operation, context or thread word, page word, and a mask, disposition or PC; the lanes wait. -/
def State.askNyend (s : State) (chip op a b c g : Nat) : State :=
  let s := s.eachLane fun s l => s.block l.tk .sysp
  s.send s.iss.core chip Config.mgmtCore .firmwareRequest (.n6 (s.chip * 8 + op) (s.lowLane.tk * 32 + g) a b c 0)

/-! ### TRET (R385) -/

/-- A TRAPPED thread released by an action. -/
def State.tretThread (s : State) (tk act pc : Nat) : State :=
  match act with
  | 0 => s.wake tk
  | 1 =>
    let s := s.modT tk fun t => { t with frames := [], pc := BitVec.ofNat 56 pc }
    if pc < 2 ^ 56 then s.wake tk
    else s.takeTrap tk { cause := .permission, pc := BitVec.ofNat 56 pc, addr := W pc, info := 5, word := 0 }
  | _ => (s.modT tk fun t => { t with wait := .exitDrain t.pc, dying := true, ptrap := [] }).recheck tk

/-- TRET at the thread's chip: the thread in a bank, or in its save area through the event log; the result is 0, or 1 when there is none. -/
def State.tretHere (s : State) (w act pc : Nat) : State × Nat :=
  let core := fld w 47 39
  let slot := fld w 38 30
  let ctx := fld w 29 25
  let live (tk : Nat) : Bool := match s.thr.get? tk with
    | some t => t.st == .trapped && t.ctx == ctx && !t.fw && !t.dying
    | none => false
  if s.ctxGone ctx then (s, 1)
  else match [tkOf core 0 slot, tkOf core 1 slot].find? live with
    | some tk => (s.tretThread tk act pc, 0)
    | none => match s.saves.get? (core * 64 + ctx) with
      | some a =>
        let there := a.thr.any fun x => x.1 == slot && x.2.st == .trapped && !x.2.dying
        let asked := a.log.any fun e => match e with
          | .tret n _ _ => n == slot
          | _ => false
        if there && !asked then ({ s with saves := s.saves.set (core * 64 + ctx) { a with log := a.log ++ [.tret slot act (W pc)] } }, 0)
        else (s, 1)
      | none => (s, 1)

/-- TRET (R385). -/
def execTret (f : SgF) (s : State) : Host.Outcome State Fault Refusal :=
  word (.tret f) s fun s =>
    let w := s.bw f.s 0
    let a := s.bw f.s 1
    let pc := s.bw f.s 2
    s.sysCheck [w % 2 ^ 25 != 0, decide (3 ≤ a)] fun s =>
      if fld w 63 48 ≠ s.chip then s.askNyend (fld w 63 48) 3 w a pc f.g.toNat
      else
        let r := s.tretHere w a pc
        r.1.sysG f.g.toNat r.2

/-! ### XFLT (R386) -/

/-- The event with which the XFLT of a thread goes on: its context, the thread, SB and G. -/
def xfltEv (ctx tk sb g : Nat) : Ev := ⟨.firmwareRequest, .n4 ctx tk sb g⟩

/-- The record at RCUR with its cursor, where it is present (R386), read for an event. -/
def State.xfltRead (s : State) (e : Ev) (ctx : Nat) : Except AErr (Option (Nat × List Nat)) :=
  let s : State := { s with ev := e.a }
  let x := s.ctx ctx
  if x.st = .free then .ok none
  else match s.rdA ctx 0 false (x.fqbase + 8) 8 with
    | .error e => .error e
    | .ok c => match s.rdWords ctx 0 false (fqAt x.fqbase x.fqlog2 c) 8 with
      | .error e => .error e
      | .ok ws => .ok (if ws.headD 0 / 2 ^ 63 = 1 - c / 2 ^ x.fqlog2 % 2 then some (c, ws) else none)

/-- A present record copied to the s registers of a crew key, with its acquire, and RCUR + 1 stored (R386). -/
def State.xfltCopy (s : State) (ctx ck sb c : Nat) (ws : List Nat) : State :=
  ((ws.zipIdx.foldl (fun s w => s.modC ck fun k => k.setS (sb + 1 + w.2) (W w.1)) s).dropAway (dieOf Config.mgmtCore)).wrA Config.mgmtCore ctx
    ((s.ctx ctx).fqbase + 8) 8 ((c + 1) % 2 ^ 64)

/-- A firmware thread that waits for its word gets the word's result (R384). -/
def State.syspDone (s : State) (who v : Nat) : State :=
  let tk := who / 32
  if (s.T tk).st = .blocked ∧ (s.T tk).wait = .sysp then (s.wrG tk (who % 32) (W v)).wake tk else s

/-- An XFLT that waited for the queue's home (R386). -/
def State.xfltLate (s : State) (ctx tk sb g : Nat) : State :=
  let e := xfltEv ctx tk sb g
  match s.xfltRead e ctx with
  | .ok none => s.syspDone (tk * 32 + g) 1
  | .ok (some (c, ws)) => (s.xfltCopy ctx (ckOfTk tk) sb c ws).thenDo s.ids none ⟨.firmwareRequest, .n2 (tk * 32 + g) 0⟩ fun s =>
      s.syspDone (tk * 32 + g) 0
  | .error x => s.nyendErr ctx e (fun _ _ => s.syspDone (tk * 32 + g) 1) x

/-- XFLT (R386): the thread waits where the queue lies on another chip, or cannot be reached at once. -/
def execXflt (f : SgF) (s : State) : Host.Outcome State Fault Refusal :=
  word (.xflt f) s fun s =>
    let ctx := s.bw f.s 0
    s.sysCheck [ctxWordBad ctx] fun s =>
      let tk := s.lowLane.tk
      let g := f.g.toNat
      let e := xfltEv ctx tk f.s.toNat g
      match s.xfltRead e ctx with
      | .ok none | .error (.bad _ _) => s.sysG g 1
      | .ok (some (c, ws)) =>
        let s' := s.xfltCopy ctx s.ck f.s.toNat c ws
        if s'.owed.any fun w => decide (s.ids ≤ w.id) then
          (s'.eachLane fun s l => s.block l.tk .sysp).owedBy s.ids none 0 none (some ⟨.firmwareRequest, .n2 (tk * 32 + g) 0⟩)
        else s'.sysG g 0
      | .error x => let s := s.eachLane fun s l => s.block l.tk .sysp
        s.nyendErr ctx e (fun _ _ => s) x

/-! ### REPLAY (R387) -/

/-- One access held at a page that is declared unmappable fails (R387). -/
def State.failHeldEv (s : State) (key : Nat) (e : Ev) : State :=
  match e.a with
  | .req r => s.refuseReq r .notPresent 0
  | .fill f => s.send (coreOfKey key) f.chip f.core .readDataResponse (.fillData f (.refused .notPresent 0) 0 false key)
  | .seal q => s.answerSeal q (.refused .notPresent 0)
  | _ => let x := e.unmappable key; s.post x.i x.a

/-- The accesses that a held event stands for. -/
def Ev.accesses (e : Ev) : Nat := match e.a with
  | .req r => r.lanes.length
  | _ => 1

/-- REPLAY at the page's home (R387): the state and g[G]. -/
def State.replayAt (s : State) (key disp : Nat) : State × Nat :=
  match s.pages.get? key with
  | none => (s, 2 ^ 63)
  | some p =>
    if disp = 0 ∧ p.st = .unmapped then (s, 2 ^ 63)
    else if disp = 0 ∧ p.st ≠ .mapped ∧ p.st ≠ .sealed then (s, 0)
    else
      let held := (s.heldP.get? key).getD []
      let n := ((s.slog.get? key).getD []).length + held.foldl (fun n e => n + e.accesses) 0
      if disp = 0 then ((s.replayLog (ctxOfKey key) key).releaseHeld key, n)
      else
        let s := s.failLog (ctxOfKey key) key .notPresent
        let s : State := { s with heldP := s.heldP.del key }
        (held.foldl (fun s e => s.failHeldEv key e) s, n)

/-- REPLAY (R387). -/
def execReplay (f : SgF) (s : State) : Host.Outcome State Fault Refusal :=
  word (.replay f) s fun s =>
    let c := s.bw f.s 0
    let w := s.bw f.s 1
    let d := s.bw f.s 2
    s.sysCheck [ctxWordBad c, fld w 32 0 == 2 ^ 33 - 1, d / 2 != 0] fun s =>
      if fld w 63 48 ≠ s.chip then s.askNyend (fld w 63 48) 2 c w d f.g.toNat
      else
        let r := s.replayAt (s.pageOfWord c w) d
        r.1.sysG f.g.toNat r.2

/-! ### PINVAL and DROPR (R388) -/

/-- Permission-cache entries of the named pages cleared on every core of this chip. -/
def State.pinvalHere (s : State) (c w : Nat) : State :=
  let upd (x : Nat × CoreSt) : Nat × CoreSt := (x.1, { x.2 with perm := x.2.perm.filter fun e => !wordNames w c e.chip e.key })
  { s with cores := s.cores.map upd }

/-- Replica lines of the named pages dropped on the dies of a mask; tracked lines return their tokens (R253). -/
def State.droprHere (s : State) (c w mask : Nat) : State :=
  s.dropReps fun r h => wordNames w c h.chip h.key && bit mask (holderDie r.holder)

/-- PINVAL (R388). -/
def execPinval (f : SF) (s : State) : Host.Outcome State Fault Refusal :=
  word (.pinval f) s fun s => s.sysCheck [ctxWordBad (s.bw f.s 0)] fun s => s.pinvalHere (s.bw f.s 0) (s.bw f.s 1)

/-- DROPR (R388). -/
def execDropr (f : DroprF) (s : State) : Host.Outcome State Fault Refusal :=
  word (.dropr f) s fun s => s.sysCheck [ctxWordBad (s.bw f.s 0)] fun s => s.droprHere (s.bw f.s 0) (s.bw f.s 1) f.k.toNat

/-- FIRMWARE_REQUEST (R388): another chip's Nyend asks (0 PINVAL, 1 DROPR, 2 REPLAY, 3 TRET, 4 the containment of a group's page, R433), and this one acts and answers; or an answer comes
back to the thread that waits; or an XFLT goes on (R386). -/
def execFirmwareRequest (s : State) : Host.Outcome State Fault Refusal :=
  .next (match s.ev with
    | .n6 from_ who a b c _ =>
      let r : State × Nat := match from_ % 8 with
        | 0 => (s.pinvalHere a b, 0)
        | 1 => (s.droprHere a b c, 0)
        | 2 => s.replayAt (s.pageOfWord a b) c
        | 3 => s.tretHere a b c
        | _ => (s.endGroupHere a b c, 0)
      r.1.send Config.mgmtCore (from_ / 8) Config.mgmtCore .firmwareRequest (.n2 who r.2)
    | .n2 who v => s.syspDone who v
    | .n4 ctx tk sb g => s.xfltLate ctx tk sb g
    | _ => s)

/-! ### CTXSW and HALT (R389, R390) -/

/-- Whether a partition's cluster set includes a core's cluster (R359). -/
def State.partHas (s : State) (ctx core : Nat) : Bool :=
  match s.dev.parts.get? (s.ctx ctx).part with
  | some p => p.v && bit p.clmask (core / 4)
  | none => false

/-- Whether a crew is a member of a WIN group whose window is not CLOSED; what another chip's agent holds, the core knows by the crew's own
attachment (R367). -/
def State.inWindow (s : State) (c : Crew) : Bool :=
  c.att == .opening || c.att == .attached || !c.wmem.isEmpty
    || c.memb.any fun b => b.win && b.chip == s.chip && (match s.gagents.get? (c.ctx * 256 + b.g) with
      | some a => a.win != .closed
      | none => false)

/-- The crews of a context at a core, in a bank or in its save area. -/
def State.crewsAt (s : State) (core ctx : Nat) : List Crew :=
  ((s.crews.filter fun x => coreOfCk x.1 == core && x.2.ctx == ctx).map (·.2)) ++ (match s.saves.get? (core * 64 + ctx) with
    | some a => a.crews.map (·.2)
    | none => [])

/-- Whether a context leaves and returns under a coordinator at a core (R367). -/
def State.gangHeld (s : State) (core ctx : Nat) : Bool := (s.crewsAt core ctx).any s.inWindow

/-- CTXSW (R389): the move is asked for, and the thread waits until it is complete. -/
def execCtxsw (f : SgF) (s : State) : Host.Outcome State Fault Refusal :=
  word (.ctxsw f) s fun s =>
    let w := s.bw f.s 0
    let core := fld w 8 0
    let ctx := fld w 20 16
    let op := fld w 26 24
    let g := f.g.toNat
    s.sysCheck [fld w 63 27 != 0 || fld w 23 21 != 0 || fld w 15 9 != 0 || decide (2 ≤ op)] fun s =>
      if (s.ctx ctx).st ≠ .live ∨ Config.numCores ≤ core ∨ s.partHas ctx core = false ∨ s.gangHeld core ctx = true then s.sysG g 1
      else
        let c := s.core core
        let here := c.bank.getD 0 none == some ctx || c.bank.getD 1 none == some ctx
        let active := c.bank.getD c.active none == some ctx && (match c.resid with | .castling _ => false | _ => true)
        if (op = 0 ∧ active = true) ∨ (op = 1 ∧ here = false) then s.sysG g 0
        else
          let who := (ctx, s.lowLane.tk * 32 + g)
          let s := s.eachLane fun s l => s.block l.tk .sysp
          (s.modCore core fun c => if op = 0 then { c with want := c.want ++ [who] } else { c with spillW := c.spillW ++ [who] }).post
            .schedulerDecision (.core core)

/-- HALT (R390). -/
def execHalt (s : State) : Host.Outcome State Fault Refusal :=
  word .halt s fun s =>
    if s.dev.haltPend then { s with dev := { s.dev with haltPend := false } } else s.eachLane fun s l => s.block l.tk .halt

end Sys2Proof.Machine
end

