-- ==== Sys2Proof/Machine/Resident.lean ====
section
/-! DEFINITION. A context's residency at a core (17): the scheduler's rule (R362, R363), castling, spill and fill (R364-R366), and the coordinated
return of gangs (R367). -/

namespace Sys2Proof.Machine
open Sys2Proof

/-! ### Work and ranking (R363) -/

/-- Whether an entry of an event list is an answer or wake for a thread that waits in the save area. -/
def State.savedWork (s : State) (core ctx : Nat) : Bool :=
  (match s.saves.get? (core * 64 + ctx) with
    | some a => !a.log.isEmpty || a.thr.any fun x => x.2.st == .ready
    | none => false)
    || (s.core core).recv.any fun e => e.ctx == ctx && e.st == .arrived && !e.wait.isEmpty && decide (2 ^ 20 ≤ e.ck)

/-- Whether a placement of a context is reserved at a core (R326, R333): a crew PLACED, a gang's reservation, a marked block, or a distributor
that keeps one for a context without a bank (log 13). -/
def State.placedWork (s : State) (core ctx : Nat) : Bool :=
  let c := s.core core
  c.asks.contains ctx || (!c.marked.isEmpty && c.bank.getD c.active none == some ctx)
    || (s.resvs.any fun r => r.core == core && r.ctx == ctx)
    || s.crews.any fun x => coreOfCk x.1 == core && x.2.ctx == ctx && x.2.st == .placed

/-- Whether a context has work at a core (R363). -/
def State.hasWork (s : State) (core ctx : Nat) : Bool :=
  !(s.ovfOf core ctx).isEmpty || s.savedWork core ctx || s.placedWork core ctx
    || s.thr.any fun x => coreOfTk x.1 == core && x.2.ctx == ctx && !x.2.fw && x.2.st == .ready

/-- When a context was last ACTIVE at a core. -/
def CoreSt.lastOf (c : CoreSt) (ctx : Nat) : Nat := ((c.lastAct.find? (·.1 == ctx)).map (·.2)).getD 0

/-- Whether a context goes before another at a core: by priority, then a gang that is wanted back by its lower number (R367), then by how long it has
not been ACTIVE. -/
def State.ctxBefore (s : State) (core a b : Nat) : Bool :=
  let c := s.core core
  let pa := (s.partOf a).prio
  let pb := (s.partOf b).prio
  let ga := c.gwant.any (·.1 == a)
  let gb := c.gwant.any (·.1 == b)
  if pa ≠ pb then decide (pb < pa)
  else if ga != gb then ga
  else if ga then decide (a < b)
  else decide (c.lastOf a < c.lastOf b)

/-- The contexts among which a core's scheduler picks. -/
def State.eligibles (s : State) (core : Nat) : List Nat :=
  (s.ctxs.filter fun x => x.2.st == .live && s.partHas x.1 core
    && (s.hasWork core x.1 || (s.core core).gwant.any (·.1 == x.1))).map (·.1)

/-- T of R363; the ACTIVE context has gone no time without being ACTIVE. -/
def State.pickT (s : State) (core : Nat) : Option Nat :=
  let c := s.core core
  let a := c.bank.getD c.active none
  let less (x y : Nat) : Bool :=
    if (s.partOf x).prio ≠ (s.partOf y).prio then s.ctxBefore core x y
    else if a == some x then false else if a == some y then true else s.ctxBefore core x y
  match s.eligibles core with
  | [] => none
  | x :: r => some (r.foldl (fun m y => if less y m then y else m) x)

/-- Whether the ACTIVE context gives way to T (R363). -/
def State.givesWay (s : State) (core a t : Nat) : Bool :=
  let c := s.core core
  let q := (s.partOf a).quantum
  decide ((s.partOf a).prio < (s.partOf t).prio) || !s.hasWork core a || (s.ctx a).st != .live
    || (q != 0 && (s.partOf a).prio == (s.partOf t).prio && decide (c.since + q * 1024 ≤ c.clock))

/-! ### Castling (R362, R364) -/

/-- The crews of a bank change between RUNNING and SUSPENDED (R138). -/
def State.turnCrews (s : State) (core bank : Nat) (old new : CSt) : State :=
  let upd (x : Nat × Crew) : Nat × Crew := if x.1 / 16 = core * 2 + bank ∧ x.2.st = old then (x.1, { x.2 with st := new }) else x
  { s with crews := s.crews.map upd }

/-- A castling begins between two issue cycles (R364): neither context is active for 96 cycles. -/
def State.castleStart (s : State) (core : Nat) : State :=
  let c := s.core core
  let last := match c.bank.getD c.active none with
    | some a => (c.lastAct.filter (·.1 != a)) ++ [(a, c.clock)]
    | none => c.lastAct
  (s.modCore core fun c => { c with resid := .castling (c.clock + 96), lastAct := last, gang := none, gout := none, marked := [] }).turnCrews
    core c.active .running .suspended

/-- A thread's wait under R81 takes no account of the cycles in which its context was not ACTIVE (R363). -/
def Thr.skipAway (t : Thr) (left now : Nat) : Thr :=
  { t with readyAt := if t.readyAt ≤ left then t.readyAt + (now - left) else now }

/-- Requests of CTXSW that are met: their threads go on with 0, or with 1 where the context is no longer LIVE (R389). -/
def State.ctxswDone (s : State) (core : Nat) : State :=
  let c := s.core core
  let dead (x : Nat × Nat) : Bool := (s.ctx x.1).st != .live
  let in_ (x : Nat × Nat) : Bool := s.ctxActive core x.1
  let out (x : Nat × Nat) : Bool := !(c.bank.getD 0 none == some x.1 || c.bank.getD 1 none == some x.1)
  let fin (v : Nat) (s : State) (x : Nat × Nat) : State := s.syspDone x.2 v
  let s1 := (c.want.filter in_ ++ c.spillW.filter out).foldl (fin 0) s
  let s1 := (c.want.filter fun x => !in_ x && dead x).foldl (fin 1) s1
  s1.modCore core fun c => { c with want := c.want.filter fun x => !(in_ x || dead x), spillW := c.spillW.filter fun x => !out x }

/-- What a context that has become ACTIVE at a core finds: its crews RUNNING, drains and lists looked at again, TEMPO waiters offered to the list (R75, R138, R355). -/
def State.nowActive (s : State) (core ctx : Nat) : State :=
  let b := (s.core core).active
  let left := (s.core core).lastOf ctx
  let now := s.clockOf core
  let upd (x : Nat × Thr) : Nat × Thr := if x.1 / 512 = core * 2 + b ∧ x.2.ctx = ctx then (x.1, x.2.skipAway left now) else x
  let s : State := { s with thr := s.thr.map upd }
  let s := s.turnCrews core b .suspended .running
  let s := (s.thr.filter fun x => x.1 / 512 == core * 2 + b).foldl (fun s x => s.recheck x.1) s
  let s := (s.crews.filter fun x => x.1 / 16 == core * 2 + b && (x.2.st == .draining || x.2.st == .detaching)).foldl
    (fun s x => s.post .crewRetire (.n1 x.1)) s
  (s.slotFreed core).offerTempo core ctx

/-- A castling that is over: the banks are exchanged (R362). -/
def State.castleEnd (s : State) (core : Nat) : State :=
  let c := s.core core
  match c.resid with
  | .castling due =>
    if due ≤ c.clock then
      let s := s.modCore core fun c => { c with resid := .idle, active := 1 - c.active, since := c.clock }
      let s := match c.bank.getD (1 - c.active) none with
        | some t => (s.modCore core fun c => { c with gwant := c.gwant.filter (·.1 != t) }).nowActive core t
        | none => s
      s.ctxswDone core
    else s
  | _ => s

/-- CASTLING_COMPLETE (R364). -/
def execCastlingComplete (s : State) : Host.Outcome State Fault Refusal :=
  .next (match s.ev with
    | .core core => s.castleEnd core
    | _ => s)

/-! ### Spill (R364) -/

/-- Engines' jobs and operations and receive entries that name a crew name it by another key. -/
def State.rekeyCrew (s : State) (old new spb : Nat) : State :=
  let ren (ck : Nat) : Nat := if ck = old then new else ck
  let job (j : Job) : Job :=
    let j : Job := { j with recvs := j.recvs.map ren, buf := j.buf.map fun b => { b with ck := ren b.ck } }
    if j.crew = some old then { j with crew := some new, spb := spb } else j
  let op (o : MxOp) : MxOp := if o.ck = old then { o with ck := new } else o
  let eng (x : Nat × Engine) : Nat × Engine := (x.1, { x.2 with ops := x.2.ops.map op })
  let ent (e : REnt) : REnt := if e.ck = old then { e with ck := new } else e
  let core (x : Nat × CoreSt) : Nat × CoreSt := (x.1, { x.2 with recv := x.2.recv.map ent })
  { s with jobs := s.jobs.map job, engines := s.engines.map eng, cores := s.cores.map core }

/-- Whether a thread's state may leave the bank: no lock, every store, RED, ATOM and STW acknowledged, every SPAWN sent, no page message or
directory query on its way. -/
def Thr.maySpill (t : Thr) : Bool :=
  t.locks.isEmpty && t.pend.all (fun a => a.kind == .watch || a.kind == .fe)
    && (match t.wait with
      | .pages => false | .dirTrapf _ => false | .exitDir _ => false | .load => false | .sealRel => false
      | _ => true)

/-- Whether a job keeps a crew's share in its bank (R314): a write sent and not performed, a count still to come, or a read of a share that is to be
released. -/
def Job.keeps (j : Job) (ck : Nat) (save : Bool) : Bool :=
  (j.st == .running || j.st == .ending || j.st == .waiting) && (j.buf.any (·.ck == ck) || (j.crew == some ck && (match j.desc with
    | none => j.st == .waiting
    | some d => j.st == .ending || (d.dspace == 1 && !j.buf.isEmpty) || (d.dspace != 1 && (d.bv || (save && d.sspace == 1))))))

/-- Whether the spill of a shadow bank may start (R364). -/
def State.spillOk (s : State) (core ctx : Nat) : Bool :=
  let c := s.core core
  let b := 1 - c.active
  let save := (s.partOf ctx).spsave == 1
  c.resid == .idle && c.bank.getD b none == some ctx && (match c.gang with
      | some g => g.1 != ctx
      | none => true)
    && (s.thr.all fun x => x.1 / 512 != core * 2 + b || x.2.maySpill)
    && (s.crews.all fun x => x.1 / 16 != core * 2 + b || (x.2.st != .placed && !(s.jobs.any fun j => j.keeps x.1 save)
      && !(s.engines.any fun e => e.2.ops.any fun o => o.ck == x.1 && o.st == .granted)))
    && !(s.resvs.any fun r => r.core == core && r.ctx == ctx)
    && !(save && c.recv.any fun e => e.ctx == ctx && e.st == .filling)

/-- The bytes of a share or of a lane's private slice that are not zero. -/
def State.savedBytes (s : State) (key n : Nat) : List (Nat × Nat) :=
  (s.mem.filter fun c => decide (key ≤ c.1 ∧ c.1 < key + n)).map fun c => (c.1 - key, c.2.toNat)

/-- The save area that a spill writes (R364, R365). -/
def State.saveOf (s : State) (core ctx bank : Nat) : Save :=
  let crews := (s.crews.filter fun x => x.1 / 16 == core * 2 + bank).map fun x => (x.1 % 16, x.2)
  let save := (s.partOf ctx).spsave == 1
  let fe := (List.range 32).flatMap fun n => (((s.fe.get? (core * 32 + n)).getD []).filter fun w => w.ck / 16 == core * 2 + bank).map fun w =>
    (n, { w with key := w.key - spadKey core (s.C w.ck).spBase })
  { thr := (s.thr.filter fun x => x.1 / 512 == core * 2 + bank).map fun x => (x.1 % 512, x.2)
    crews := crews, fe := fe
    spad := if save then crews.flatMap fun x => (s.savedBytes (spadKey core x.2.spBase) x.2.spSize).map fun y => (x.1, y.1, y.2) else []
    empt := if save then crews.flatMap fun x => (s.empt.filter fun k => decide (spadKey core x.2.spBase ≤ k
      ∧ k < spadKey core x.2.spBase + x.2.spSize)).map fun k => (x.1, k - spadKey core x.2.spBase) else []
    priv := if save then crews.flatMap fun x => (List.range 32).flatMap fun l =>
      (s.savedBytes (privKey core l x.2.pvBase) x.2.pvSize).map fun y => (x.1, l, y.1, y.2) else []
    recv := if save then (s.core core).recv.filter fun e => e.ctx == ctx && e.st == .posted else []
    log := [] }

/-- Cycles in which the background engine moves a save area, 32 bytes a cycle (R365). -/
def Save.cycles (a : Save) (save : Bool) : Nat :=
  (512 * a.thr.length + 2048 * a.crews.length + 16 * a.fe.length
    + (if save then a.crews.foldl (fun n x => n + x.2.spSize + 32 * x.2.pvSize) 0 else 0) + 31) / 32

/-- A spill starts: from now on the context's events go to its log (R364, R366). -/
def State.spillStart (s : State) (core ctx : Nat) : State :=
  let c := s.core core
  let b := 1 - c.active
  let save := (s.partOf ctx).spsave == 1
  let a := s.saveOf core ctx b
  let keep (w : FeW) : Bool := w.ck / 16 != core * 2 + b
  let fe := (List.range 32).foldl (fun (t : Tab (List FeW)) n =>
    let l := ((t.get? (core * 32 + n)).getD []).filter keep
    if l = [] then t.del (core * 32 + n) else t.set (core * 32 + n) l) s.fe
  let s1 := s.modCore core fun c => { c with
    resid := .spilling ctx (c.clock + a.cycles save)
    recv := if save then c.recv.filter fun e => !(e.ctx == ctx && e.st == .posted) else c.recv }
  let s1 := a.crews.foldl (fun s x => s.rekeyCrew (ckOf core b x.1) (savedCk core ctx x.1) x.2.spBase) s1
  { s1 with thr := s1.thr.filter fun x => x.1 / 512 != core * 2 + b, crews := s1.crews.filter fun x => x.1 / 16 != core * 2 + b
            fe := fe, saves := if a.thr = [] ∧ a.crews = [] then s1.saves else s1.saves.set (core * 64 + ctx) a }

/-- SPILL_START (R364). -/
def execSpillStart (s : State) : Host.Outcome State Fault Refusal :=
  .next (match s.ev with
    | .core core =>
      match (s.core core).bank.getD (1 - (s.core core).active) none with
      | some ctx => if s.spillOk core ctx then s.spillStart core ctx else s
      | none => s
    | _ => s)

/-- A spill that is over: the context is ABSENT (R362). -/
def State.spillEnd (s : State) (core : Nat) : State :=
  let c := s.core core
  match c.resid with
  | .spilling _ due =>
    if due ≤ c.clock then
      (s.modCore core fun c => { c with resid := .idle, bank := c.bank.setIfInBounds (1 - c.active) none }).ctxswDone core
    else s
  | _ => s

/-- SPILL_COMPLETE (R364). -/
def execSpillComplete (s : State) : Host.Outcome State Fault Refusal :=
  .next (match s.ev with
    | .core core => s.spillEnd core
    | _ => s)

/-! ### Fill (R365, R366) -/

/-- A fill of an empty shadow bank starts; one with nothing saved takes 64 cycles (R365). -/
def State.fillStart (s : State) (core ctx : Nat) : State :=
  let n := match s.saves.get? (core * 64 + ctx) with
    | some a => a.cycles ((s.partOf ctx).spsave == 1)
    | none => 64
  s.modCore core fun c => { c with resid := .filling ctx (c.clock + n), bank := c.bank.setIfInBounds (1 - c.active) (some ctx) }

/-- A home's or a watch's answer reaches a thread in its slot: one that polls a ring reads the record (R296). -/
def State.landed (s : State) (tk id : Nat) (o : ROut) : State :=
  match (s.T tk).cq with
  | some w =>
    if w.id ≠ id then s.answer tk id o
    else match o with
      | .data v _ => s.pollAnswer tk w v
      | .unsealed v => s.pollAnswer tk w v
      | .woken => s.pollAgain tk w
      | .refused _ _ => (s.modT tk fun t => { t with cq := none }).answer tk id o
      | _ => s.answer tk id o
  | none => s.answer tk id o

/-- One event of a log applied in the bank (R366). -/
def State.applyLog (s : State) (core bank : Nat) (e : LogE) : State :=
  match e with
  | .wake n w => let tk := tkOf core bank n; if (s.T tk).st = .blocked ∧ (s.T tk).wait = w then s.wake tk else s
  | .answer n id o => s.landed (tkOf core bank n) id o
  | .bar c g => s.barDone (ckOf core bank c) g
  | .tempo (some c) _ v => s.tempoCrewGo (ckOf core bank c) v
  | .tempo none n v => s.tempoGo (tkOf core bank n) v
  | .probed n w mark => let tk := tkOf core bank n; if (s.T tk).st = .blocked ∧ (s.T tk).wait = w then s.probed tk mark else s
  | .line n k g => let tk := tkOf core bank n; if (s.T tk).st = .blocked ∧ (s.T tk).wait = .line k then s.lineCame tk k g else s
  | .tret n act pc => s.tretThread (tkOf core bank n) act pc.toNat
  | .mreply id op => match s.crews.find? fun x => x.1 / 16 == core * 2 + bank && x.2.sends.any (·.id == id) with
    | some x => s.sendAnswer x.1 id op
    | none => s

/-- Places for saved crews' shares and private bytes, one crew after another (R365). -/
def State.fillBases (s : State) (core : Nat) : List (Nat × Crew) → List (Nat × Crew) → Option (List (Nat × Crew))
  | _, [] => some []
  | got, x :: r =>
    let sp := (s.usedAt core false) ++ got.map fun y => (y.2.spBase, y.2.spSize)
    let pv := (s.usedAt core true) ++ got.map fun y => (y.2.pvBase, y.2.pvSize)
    match freeBase sp x.2.spSize 256 (2 ^ 19), freeBase pv x.2.pvSize 8 4096 with
    | some a, some b =>
      let y := (x.1, { x.2 with spBase := a, pvBase := b })
      (s.fillBases core (got ++ [y]) r).map fun l => y :: l
    | _, _ => none

/-- The saved bytes of a share and of its crew's private slices written at their place (R365). -/
def State.fillShare (s : State) (core : Nat) (a : Save) (x : Nat × Crew) : State :=
  let sp := spadKey core x.2.spBase
  let s : State := { s with mem := clearCells s.mem sp x.2.spSize, empt := s.empt.filter fun k => !decide (sp ≤ k ∧ k < sp + x.2.spSize) }
  let s := (a.spad.filter (·.1 == x.1)).foldl (fun s y => s.wrMem (sp + y.2.1) 1 y.2.2) s
  let s := (a.empt.filter (·.1 == x.1)).foldl (fun s y => s.setFull (sp + y.2) false) s
  let s := (List.range 32).foldl (fun (s : State) l => { s with mem := clearCells s.mem (privKey core l x.2.pvBase) x.2.pvSize }) s
  (a.priv.filter (·.1 == x.1)).foldl (fun s y => s.wrMem (privKey core y.2.1 (x.2.pvBase + y.2.2.1)) 1 y.2.2.2) s

/-- A crew's lists of accesses it waits for, at its lanes' new keys. -/
def Crew.inBank (c : Crew) (ck : Nat) : Crew :=
  let mv (l : List (Nat × Nat)) : List (Nat × Nat) := l.map fun x => (laneTk ck (x.1 % 32), x.2)
  { c with memb := c.memb.map fun b => { b with need := mv b.need }, tempo := { c.tempo with need := mv c.tempo.need }
           sends := c.sends.map fun w => { w with need := mv w.need } }

/-- A saved receive entry re-entered: matched against the overflow queue, oldest message first, else POSTED (R414). -/
def State.reenter (s : State) (core ck : Nat) (e : REnt) : State :=
  let n := if (s.core core).recv.any (·.n == e.n) then ((List.range 64).find? fun n => !(s.core core).recv.any (·.n == n)).getD e.n else e.n
  let s := s.modCore core fun c => { c with recv := c.recv ++ [{ e with n := n, ck := ck }] }
  let q := s.msgsOf core e.ctx
  match q.find? (·.meets e.crit.toNat) with
  | some m => (s.setMsgs core e.ctx (q.erase m)).fillEntry core n m
  | none => s

/-- What a fill restores into the shadow bank (R365): slots, crews, waiting full/empty accesses, receives, the event log, sleepers. -/
def State.restoreAll (s : State) (core ctx : Nat) (a : Save) (crews : List (Nat × Crew)) (save : Bool) : State :=
  let b := 1 - (s.core core).active
  let s : State := { s with saves := s.saves.del (core * 64 + ctx) }
  let s := if save then crews.foldl (fun s x => s.fillShare core a x) s else s
  let s := a.thr.foldl (fun s x => s.setT (tkOf core b x.1) x.2) s
  let s := crews.foldl (fun s x =>
    (s.setC (ckOf core b x.1) (x.2.inBank (ckOf core b x.1))).rekeyCrew (savedCk core ctx x.1) (ckOf core b x.1) x.2.spBase) s
  let now := s.clockOf core
  let s := a.fe.foldl (fun (s : State) y =>
    let ck := ckOf core b (y.2.ck % 16)
    let w : FeW := { y.2 with ck := ck, tk := tkOf core b (slotOfTk y.2.tk), key := spadKey core (s.C ck).spBase + y.2.key, joined := now }
    let k := core * 32 + y.1
    { s with fe := s.fe.set k (((s.fe.get? k).getD []) ++ [w]) }) s
  let s := (isort (fun (x y : REnt) => decide (x.order ≤ y.order)) a.recv).foldl (fun s e => s.reenter core (ckOf core b (e.ck % 16)) e) s
  let s := a.log.foldl (fun s e => s.applyLog core b e) s
  let s := (s.core core).recv.foldl (fun s e => if e.ctx = ctx then s.recvTest core e.n else s) s
  a.thr.foldl (fun s x => let tk := tkOf core b x.1; (((s.sleepOver tk).afterUnlock tk).recheck tk)) s

/-- A fill that is over (R365): one whose space is not free waits; distributors and coordinators look at the core again. -/
def State.fillEnd (s : State) (core : Nat) : State :=
  let c := s.core core
  match c.resid with
  | .filling ctx due =>
    if due ≤ c.clock then
      let save := (s.partOf ctx).spsave == 1
      let a := (s.saves.get? (core * 64 + ctx)).getD { thr := [], crews := [], fe := [], spad := [], empt := [], priv := [], recv := [], log := [] }
      match (if save then s.fillBases core [] a.crews else some a.crews) with
      | none => s
      | some crews =>
        let s := (s.modCore core fun c => { c with resid := .idle, asks := c.asks.filter (· != ctx) }).restoreAll core ctx a crews save
        let s : State := { s with nodes := s.nodes.map fun n => if n.ctx = ctx then { n with failed := [] } else n }
        ((s.nodes.filter fun n => n.ctx == ctx && n.st == .launching && !n.gangIdx.isEmpty).foldl (fun s n => s.askGangs n) s).kickAll
    else s
  | _ => s

/-- FILL_COMPLETE (R365). -/
def execFillComplete (s : State) : Host.Outcome State Fault Refusal :=
  .next (match s.ev with
    | .core core => s.fillEnd core
    | _ => s)

/-! ### Gangs (R367) -/

/-- The group and coordinator's chip under which a context leaves and returns at a core. -/
def State.gangOf (s : State) (core ctx : Nat) : Option (Nat × Nat) :=
  (s.crewsAt core ctx).findSome? fun c =>
    if s.inWindow c then (c.memb.find? (·.win)).map fun b => (b.g, b.chip) else none

/-- A message between a core and a coordinator: 0 asks to leave, 1 switch-out, 2 report, 3 commit, 4 withdrawal, 5 want. -/
def State.gangSay (s : State) (src chip dst op ctx g who : Nat) : State :=
  s.send src chip dst .castlingCoordination (.n6 op ctx g s.chip who dst)

/-- A core reports for a gang: for one at a time, the highest ranked (R367). -/
def State.gangReport (s : State) (core ctx : Nat) : State :=
  match s.gangOf core ctx with
  | none => s
  | some (g, chip) =>
    let c := s.core core
    if c.gang = some (ctx, g) then s else
    let s := match c.gang with
      | some (x, h) => match s.gangOf core x with
        | some (_, ch) => s.gangSay core ch (distCore 0) 4 x h core
        | none => s
      | none => s
    (s.modCore core fun c => { c with gang := some (ctx, g) }).gangSay core chip (distCore 0) 2 ctx g core

/-- Whether a gang that a core has reported for stands before another (R367). -/
def State.reportStands (s : State) (core ctx : Nat) : Bool :=
  match (s.core core).gang with
  | none => false
  | some (x, _) => x != ctx && (decide ((s.partOf ctx).prio < (s.partOf x).prio) || ((s.partOf x).prio == (s.partOf ctx).prio && decide (x < ctx)))

/-- A core asks the coordinator that a context leave (R367). -/
def State.gangLeave (s : State) (core ctx : Nat) : State :=
  match s.gangOf core ctx with
  | some (g, chip) =>
    if (s.core core).gout = some ctx then s
    else (s.modCore core fun c => { c with gout := some ctx }).gangSay core chip (distCore 0) 0 ctx g core
  | none => s

/-! ### The scheduler (R363) -/

/-- The exchange of the banks that the rule asks for, under R367 where a gang is concerned. -/
def State.bringShadow (s : State) (core : Nat) (a : Option Nat) (t : Nat) : State :=
  match a with
  | some x => if s.gangHeld core x then s.gangLeave core x
    else if s.gangHeld core t then (if s.reportStands core t then s else s.gangReport core t) else s.castleStart core
  | none => if s.gangHeld core t then (if s.reportStands core t then s else s.gangReport core t) else s.castleStart core

/-- T brought in (R363). -/
def State.bringIn (s : State) (core t : Nat) : State :=
  let c := s.core core
  let a := c.bank.getD c.active none
  match c.bank.getD (1 - c.active) none with
  | some x => if x = t then s.bringShadow core a t else if s.spillOk core x then s.spillStart core x else s
  | none => s.fillStart core t

/-- What CTXSW asks a core for (R389): a context brought in, or castled out and spilled. -/
def State.ctxswWant (s : State) (core : Nat) : Option State :=
  let c := s.core core
  match c.want, c.spillW with
  | (t, _) :: _, _ => if (s.ctx t).st = .live then some (s.bringIn core t) else some (s.ctxswDone core)
  | [], (x, _) :: _ =>
    if c.bank.getD c.active none = some x then some (s.castleStart core)
    else if s.spillOk core x then some (s.spillStart core x)
    else if c.bank.getD (1 - c.active) none = some x then none
    else some (s.ctxswDone core)
  | [], [] => none

/-- An ACTIVE context that is no longer LIVE is castled out (R361), with an open window by its coordinator (R367, R370). -/
def State.evict (s : State) (core : Nat) : Option State :=
  let c := s.core core
  match c.bank.getD c.active none with
  | none => none
  | some a =>
    if (s.ctx a).st = .live then none
    else if s.gangHeld core a then some (s.gangLeave core a)
    else match c.bank.getD (1 - c.active) none with
      | none => some (s.castleStart core)
      | some b => if (s.ctx b).st = .live then some (s.castleStart core) else if s.spillOk core b then some (s.spillStart core b) else none

/-- A core's scheduler decides (R363). -/
def State.schedule (s : State) (core : Nat) : State :=
  let c := s.core core
  if c.resid ≠ .idle || decide (Config.numCores ≤ core) then s else
  match s.evict core with
  | some x => x
  | none => match s.ctxswWant core with
    | some x => x
    | none => match s.pickT core with
      | none => s
      | some t => match c.bank.getD c.active none with
        | none => s.bringIn core t
        | some a => if a = t || !s.givesWay core a t then s else s.bringIn core t

/-- SCHEDULER_DECISION (R363). -/
def execSchedulerDecision (s : State) : Host.Outcome State Fault Refusal :=
  .next (match s.ev with
    | .core core => s.schedule core
    | _ => s)

/-- QUANTUM_EXPIRY (R363): the ACTIVE context's time slice is over. -/
def execQuantumExpiry (s : State) : Host.Outcome State Fault Refusal :=
  .next (match s.ev with
    | .core core =>
      let c := s.core core
      match c.bank.getD c.active none with
      | some a => if (s.partOf a).quantum ≠ 0 ∧ c.since + (s.partOf a).quantum * 1024 ≤ c.clock then s.schedule core else s
      | none => s
    | _ => s)

/-- The members' cores of a gang, each once. -/
def GAgent.cores (a : GAgent) : List (Nat × Nat) := (a.mem.map fun m => (m.chip, m.core)).eraseDups

/-- What the coordinator tells every member's core. -/
def State.gangAll (s : State) (op ctx g : Nat) (l : List (Nat × Nat)) : State :=
  l.foldl (fun s x => s.gangSay (distCore 0) x.1 x.2 op ctx g x.2) s

/-- CASTLING_COORDINATION (R367): at the coordinator, requests to leave, reports and withdrawals; at a core, the switch-out, the commit, and the want of
a gang's return. -/
def execCastlingCoordination (s : State) : Host.Outcome State Fault Refusal :=
  .next (match s.ev with
    | .n6 op ctx g chip who dst =>
      let a := s.gagent ctx g
      let c := s.core dst
      let here := c.bank.getD c.active none == some ctx
      let shadow := c.bank.getD (1 - c.active) none == some ctx
      match op with
      | 0 => if a.out then s.gangAll 1 ctx g [(chip, who)] else s.gangAll 1 ctx g a.cores |>.setGagent ctx g { a with out := true, reports := [] }
      | 1 =>
        if c.resid ≠ .idle then s.post .castlingCoordination s.ev
        else if here then s.castleStart dst else s
      | 2 =>
        let r := (a.reports ++ [(chip, who)]).eraseDups
        if a.cores.all fun x => r.contains x then s.gangAll 3 ctx g a.cores |>.setGagent ctx g { a with out := false, reports := [] }
        else (if a.reports = [] then s.gangAll 5 ctx g (a.cores.filter (· != (chip, who))) else s).setGagent ctx g { a with reports := r }
      | 3 => if c.resid ≠ .idle then s.post .castlingCoordination s.ev else if shadow then s.castleStart dst else s
      | 4 => s.setGagent ctx g { a with reports := a.reports.filter (· != (chip, who)) }
      | _ =>
        if here || c.gwant.any (·.1 == ctx) then s
        else (s.modCore dst fun c => { c with gwant := c.gwant ++ [(ctx, g)] }).schedule dst
    | _ => s)

end Sys2Proof.Machine
end

