-- ==== Sys2Proof/Machine/Contexts.lean ====
section
/-! DEFINITION. The life of a context (17): creation, start, stop, resume, destruction (R361, R455), partitions (R359), apertures (19 R407), teardown
(R369), and the device states that contexts move (20 R424). -/

namespace Sys2Proof.Machine
open Sys2Proof

/-! ### Device states (20 R424) -/

/-- The device enters a state; the change is logged (R434). -/
def State.enterD (s : State) (d : DSt) : State :=
  if s.dev.dstate = d then s else ({ s with dev := { s.dev with dstate := d } } : State).devLog 2 0 0 d.num

/-- Whether a context is LIVE or STOPPED. -/
def State.anyLive (s : State) : Bool := s.ctxs.any fun x => x.2.st == .live || x.2.st == .stopped

/-- The device follows its contexts (R424): READY with a LIVE one is RUN, RUN with none LIVE or STOPPED is READY. -/
def State.ctxMoved (s : State) : State :=
  if s.dev.dstate = .ready ∧ (s.ctxs.any fun x => x.2.st == .live) = true then s.enterD .run
  else if s.dev.dstate = .run ∧ s.anyLive = false then s.enterD .ready
  else s

/-! ### Creation (R358-R361) -/

/-- Whether a context's header breaks R360, its partition is not valid, or its fault queue breaks R380. -/
def State.headBad (s : State) (c : Ctx) : Bool :=
  decide (16 ≤ c.part) || decide (8 < c.resv) || !((s.dev.parts.get? c.part).map (·.v)).getD false
    || decide (c.fqlog2 < 4) || decide (16 < c.fqlog2) || c.fqbase % 64 != 0
    || (match findRegion c.ptab c.fqbase 0 with
      | none => true
      | some (_, e) => e.tier != 0 || decide (2 ^ 56 ≤ c.fqbase)
        || !covered (c.ptab.filter fun e => e.tier == 0) 64 c.fqbase (64 + 64 * 2 ^ c.fqlog2))

/-- Whether a context's arrival reserve fits at every live core of this chip (R76). -/
def State.reserveFits (s : State) (c : Ctx) : Bool :=
  c.resv == 0 || !(tabChips c.ptab).contains s.chip
    || (List.range Config.numCores).all fun k => (s.core k).retired || decide (s.reserved + s.frames1 k + c.resv * 1024 ≤ 40960)

/-- The lowest free context number (R358). -/
def State.freeCtx (s : State) : Option Nat := (List.range 32).find? fun n => (s.ctx n).st == .free

/-- Whether a new context's staging grants break R311: more than 16 of them, a slice that no die has, more than 8 ways granted on one slice over all contexts,
or a way that another grant pins already (log 59). -/
def State.grantsBad (s : State) (sg : List (Nat × Nat × Nat × Nat)) : Bool :=
  let ways (g : Nat × Nat × Nat) : List (Nat × Nat) := (List.range g.2.2).map fun w => (g.1, g.2.1 + w)
  let new := sg.flatMap fun g => ways g.2
  let old := s.sgrants.flatMap fun g => ways g.2
  let of_ (n : Nat) (w : Nat × Nat) : Bool := w.1 == n
  (sg.any fun g => decide (16 ≤ g.1) || decide (96 ≤ g.2.1)) || new.any fun w => decide (16 ≤ w.2) || decide (new.count w ≠ 1) || old.contains w
    || decide (8 < (new ++ old).countP (of_ w.1))

/-- Whether a new context's weight-slot grants name slots that a cluster does not have, or that another context holds (R262, R360, log 59). -/
def State.slotsBad (s : State) (wg : List (Nat × Nat × Nat)) : Bool :=
  wg.any fun g => decide (96 ≤ g.1) || decide (64 < g.2.1 + g.2.2)
    || s.wgrants.any fun x => x.1 % 128 == g.1 && decide (x.2.1 < g.2.1 + g.2.2 ∧ g.2.1 < x.2.1 + x.2.2)

/-- The state with a context's descriptor in place (R360): its table, group entries and grants; granted weight slots are EMPTY (R277), and the replicas
in ways that a staging grant pins are dropped (R172). -/
def State.putCtx (s : State) (n : Nat) (c : Ctx) (gs : List (Nat × GEnt)) (sg : List (Nat × Nat × Nat × Nat)) (wg : List (Nat × Nat × Nat)) : State :=
  let s := s.modCtx n fun _ => { c with st := .created, prev := [], late := [], lateChips := [] }
  let s : State := { s with groups := gs.foldl (fun t g => t.set (n * 256 + g.1) g.2) s.groups
                            sgrants := sg.foldl (fun t g => t.set (n * 16 + g.1) g.2) s.sgrants
                            wgrants := wg.foldl (fun t g => t.set (n * 128 + g.1) g.2) s.wgrants }
  let s := wg.foldl (fun (s : State) (g : Nat × Nat × Nat) =>
    let e := s.engine g.1
    s.setEngine g.1 { e with slots := e.slots.filter fun x => !decide (g.2.1 ≤ x.1 ∧ x.1 < g.2.1 + g.2.2) }) s
  s.dropReps fun r _ => s.pinned r.holder r.way

/-- Whether a group entry of a new context fails R331: a valid one whose member list cannot be read in its pages is refused (log 59). -/
def State.newGroupBad (s : State) (ctx : Nat) (g : Nat × GEnt) : Bool :=
  decide (256 ≤ g.1) || g.2.bad || g.2.v && (match s.rdWords ctx 0 true g.2.mlist g.2.nmem with
    | .ok ws => listBad ws
    | .error _ => true)

/-- CONTEXT_CREATE (R361, R455). -/
def execContextCreate (s : State) : Host.Outcome State Fault Refusal :=
  .next (match s.ev with
    | .cnew c0 ws gs sg wg =>
      let c := { c0 with ptab := tableOf ws }
      match s.freeCtx with
      | none => s.answerHost .noContext 0
      | some n =>
        if s.headBad c || s.grantsBad sg || s.slotsBad wg then s.answerHost .badContext 0
        else match s.tabBad 0 [] c.ptab with
          | some e => s.answerHost .badPlacement e
          | none =>
            let t := s.putCtx n c gs sg wg
            if gs.any (t.newGroupBad n) then s.answerHost .badGroup 0
            else if !s.reserveFits c then s.answerHost .badReserve 0
            else t.answerHost .ok n
    | _ => s)

/-! ### Start, stop, resume, destroy (R361) -/

/-- A context that has become LIVE: its queues, kernels, gangs and every distributor go on. -/
def State.goLive (s : State) (ctx : Nat) : State :=
  let s := (s.modCtx ctx fun c => { c with st := .live }).ctxMoved
  let s := (s.kickQueues ctx).kickReady ctx
  ((s.nodes.filter fun n => n.ctx == ctx && n.st == .launching && !n.gangIdx.isEmpty).foldl (fun s n => s.askGangs n) s).kickAll

/-- A request about a context in one of some states (R455). -/
def State.ctxRequest (s : State) (ctx : Nat) (ok : List CtxSt) (f : State → State) : State :=
  if (s.ctx ctx).st = .free then s.answerHost .noContext 0
  else if ok.contains (s.ctx ctx).st then f s
  else s.answerHost .badState 0

/-- CONTEXT_START (R361, R424). -/
def execContextStart (s : State) : Host.Outcome State Fault Refusal :=
  .next (match s.ev with
    | .n1 ctx => s.ctxRequest ctx [.created] fun s =>
        if s.dev.dstate = .ready ∨ s.dev.dstate = .run ∨ s.dev.dstate = .excursion then (s.goLive ctx).answerHost .ok 0
        else s.answerHost .badBand 0
    | _ => s)

/-- CONTEXT_STOP (R361): cores castle it out by their own decisions (R363). -/
def execContextStop (s : State) : Host.Outcome State Fault Refusal :=
  .next (match s.ev with
    | .n1 ctx => s.ctxRequest ctx [.live] fun s => (s.modCtx ctx fun c => { c with st := .stopped }).answerHost .ok 0
    | _ => s)

/-- CONTEXT_RESUME (R361). -/
def execContextResume (s : State) : Host.Outcome State Fault Refusal :=
  .next (match s.ev with
    | .n1 ctx => s.ctxRequest ctx [.stopped] fun s => (s.goLive ctx).answerHost .ok 0
    | _ => s)

/-- CONTEXT_DESTROY (R361). -/
def execContextDestroy (s : State) : Host.Outcome State Fault Refusal :=
  .next (match s.ev with
    | .n1 ctx => s.ctxRequest ctx [.created, .live, .stopped] fun s => (s.startTeardown ctx).answerHost .ok 0
    | _ => s)

/-! ### Partitions and apertures -/

/-- PARTITION_WRITE (R359): refused while a LIVE or STOPPED context uses the entry. -/
def execPartitionWrite (s : State) : Host.Outcome State Fault Refusal :=
  .next (match s.ev with
    | .part n p =>
      if 16 ≤ n ∨ (s.ctxs.any fun x => (x.2.st == .live || x.2.st == .stopped) && x.2.part == n) = true then s.answerHost .badPartition 0
      else ({ s with dev := { s.dev with parts := s.dev.parts.set n p } } : State).answerHost .ok 0
    | _ => s)

/-- APERTURE_MAP (R407). -/
def execApertureMap (s : State) : Host.Outcome State Fault Refusal :=
  .next (match s.ev with
    | .aper n a =>
      let st := (s.ctx a.ctx).st
      if 64 ≤ n ∨ st = .free ∨ st = .teardown then s.answerHost .badAperture 0
      else ({ s with dev := { s.dev with aper := s.dev.aper.set n a } } : State).answerHost .ok 0
    | _ => s)

/-! ### Teardown (R369) -/

/-- A table without the keys of a context. -/
def Tab.drop {α : Type} (t : Tab α) (p : Nat → Bool) : Tab α := t.filter fun x => !p x.1

/-- Step 1 of R369: queues DESTROYED, kernels ended without a record. -/
def State.endQueues (s : State) (ctx : Nat) : State :=
  let s := (s.queues.filter fun q => q.1 / 64 == ctx).foldl (fun s q => s.putQState ctx q.2.desc 5) s
  { s with queues := s.queues.drop (· / 64 == ctx), hooks := s.hooks.filter (·.ctx != ctx), nodes := s.nodes.filter (·.ctx != ctx)
           crecs := s.crecs.filter (·.ctx != ctx), posts := s.posts.filter (·.ctx != ctx), asks := s.asks.filter (·.ctx != ctx)
           owed := s.owed.filter (·.ctx != ctx) }

/-- Step 2 of R369 at one core: the context leaves its banks unspilled, and a transfer that concerns it is abandoned (R370). -/
def CoreSt.expel (c : CoreSt) (ctx : Nat) : CoreSt :=
  let mine := c.bank.getD c.active none == some ctx
  { c with
    bank := c.bank.map fun b => if b = some ctx then none else b
    resid := (match c.resid with
      | .filling x d => if x = ctx then .idle else .filling x d
      | .spilling x d => if x = ctx then .idle else .spilling x d
      | r => r)
    perm := c.perm.filter (·.ctx != ctx), logpend := c.logpend.filter (·.1 != ctx), lastAct := c.lastAct.filter (·.1 != ctx)
    gang := (match c.gang with
      | some g => if g.1 = ctx then none else some g
      | none => none)
    gwant := c.gwant.filter (·.1 != ctx), gout := if c.gout = some ctx then none else c.gout, asks := c.asks.filter (· != ctx)
    marked := if mine then [] else c.marked, recv := c.recv.filter (·.ctx != ctx) }

/-- Steps 2 to 5 of R369: every unit, operation, job, list, grant and cached line of the context goes. -/
def State.expelAll (s : State) (ctx : Nat) : State :=
  let core (x : Nat × CoreSt) : Nat × CoreSt := (x.1, x.2.expel ctx)
  let low (k : Nat) : Bool := k % 64 == ctx
  let eng (x : Nat × Engine) : Nat × Engine := (x.1, { x.2 with
    ops := x.2.ops.filter (·.ctx != ctx)
    trees := x.2.trees.map fun t => if t.ctx = some ctx then ⟨none, 0, []⟩ else t })
  let mine (e : Ev) : Bool := match e.a with
    | .req r => r.ctx == ctx && r.core != hostCore
    | a => a.ctxOf == some ctx
  let host (e : Ev) : List MemReq := match e.a with
    | .req r => if r.core = hostCore then [r] else []
    | _ => []
  let held := (s.heldP.filter fun x => ctxOfKey x.1 == ctx).flatMap fun x => x.2.flatMap host
  let s : State := { s with
    cores := s.cores.map core, thr := s.thr.filter fun x => x.2.ctx != ctx || x.2.fw, crews := s.crews.filter (·.2.ctx != ctx)
    fe := s.fe.filterMap fun x => (let l := x.2.filter fun w => (s.C w.ck).ctx != ctx; if l = [] then none else some (x.1, l))
    engines := s.engines.map eng, jobs := s.jobs.filter (·.ctx != ctx), outs := s.outs.filter fun x => !mine x.2.ev
    agenda := s.agenda.filter fun e => !mine e, heldP := s.heldP.drop (ctxOfKey · == ctx), heldF := s.heldF.drop (ctxOfKey · == ctx)
    bagents := s.bagents.drop (· / 256 == ctx), gagents := s.gagents.drop (· / 256 == ctx), tagents := s.tagents.drop (· / 4096 == ctx)
    watches := s.watches.map fun x => (x.1, x.2.filter (·.ctx != ctx)), resvs := s.resvs.filter (·.ctx != ctx)
    sgrants := s.sgrants.drop (· / 16 == ctx), wgrants := s.wgrants.drop (· / 128 == ctx), ovf := s.ovf.drop low, saves := s.saves.drop low
    msgq := s.msgq.drop low, fqp := s.fqp.drop low, slog := s.slog.drop (ctxOfKey · == ctx), logged := s.logged.filter (ctxOfKey · != ctx)
    dirs := s.dirs.del ctx, spawned := s.spawned.filter (·.1 != ctx), pawns := s.pawns.drop (fun k => k / 4096 % 64 == ctx)
    reps := s.reps.filter (·.ctx != ctx) }
  held.foldl (fun s r => s.refuseReq r .permission 0) s

/-- TEARDOWN (R369): steps 1 to 5, then the flush markers are injected. -/
def execTeardown (s : State) : Host.Outcome State Fault Refusal :=
  .next (match s.ev with
    | .n1 ctx =>
      if (s.ctx ctx).st ≠ .teardown then s
      else
        let s := (s.endQueues ctx).expelAll ctx
        let s := (s.cores.filter fun x => !x.2.want.isEmpty || !x.2.spillW.isEmpty).foldl (fun s x => s.ctxswDone x.1) s
        let s : State := { s with flush := s.flush ++ [(ctx, s.ncyc)] }
        ((s.post .flushMarker (.n1 ctx)).kickAll).ctxMoved
    | _ => s)

/-- TEARDOWN_COMPLETE (R369): the context is FREE, its number may be used again. -/
def execTeardownComplete (s : State) : Host.Outcome State Fault Refusal :=
  .next (match s.ev with
    | .n1 ctx =>
      if (s.ctx ctx).st ≠ .teardown then s
      else
        let s : State := { s with
          ctxs := s.ctxs.del ctx, pages := s.pages.drop (ctxOfKey · == ctx), owners := s.owners.drop (ctxOfKey · == ctx)
          kern := s.kern.drop (· / 4096 == ctx), groups := s.groups.drop (· / 256 == ctx), rings := s.rings.drop (· / 64 == ctx)
          rehome := s.rehome.filter fun x => ctxOfKey x.okey != ctx, fwds := s.fwds.del ctx
          moves := s.moves.drop fun k => s.pages.any fun x => ctxOfKey x.1 == ctx && x.2.st == .moving && x.2.nframe == k
            && decide (pageSize x.2.ntier < pageSize x.2.tier) }
        s.ctxMoved
    | _ => s)

end Sys2Proof.Machine
end

