-- ==== Sys2Proof/Machine/Cold.lean ====
section
/-! DEFINITION. The cold device (20): sensors and bands (R421, R422, R425-R427), device states (R424), scrub (R428), errors and their containment
(R430-R433), the device fault log (R434), degraded operation (R437), firmware fuses and attestation (R438, R439), device reset. -/

namespace Sys2Proof.Machine
open Sys2Proof

/-- The device's registers changed. -/
def State.modDev (s : State) (f : Dev → Dev) : State := { s with dev := f s.dev }

/-! ### FAULT (R424) -/

/-- The device enters FAULT: every context is torn down, every core and distributor stops. -/
def State.devFault (s : State) : State :=
  if s.dev.dstate = .fault then s else
  let s := (s.modDev fun d => { d with stopped := true }).enterD .fault
  (s.ctxs.filter fun x => x.2.st != .free).foldl (fun s x => s.startTeardown x.1) s

/-- FAULT for a reason that is logged first. -/
def State.faultFor (s : State) (event info : Nat) : State := (s.devLog event 0 0 info).devFault

/-! ### Bands (R421, R426, R427) -/

/-- The upper boundary of a band in 1/8 K (R421). -/
def bandTop (k : Nat) : Nat := [672, 800, 1120, 1840].getD k 4096

/-- Whether the core clock differs between two bands (R421). -/
def clockDiffers (a b : Nat) : Bool := decide (max a b ≠ 1 ∧ a ≠ b)

/-- The blocks that move in a change (R426): every memory agent (0 to 383), then, where the core clock changes, every core (1000 on). -/
def bandBlocks (a b : Nat) : List Nat := List.range 384 ++ if clockDiffers a b then (List.range 384).map (1000 + ·) else []

/-- The band decided on TMAX, one step from the band in force, with 3 K of hysteresis downward (R421). -/
def Dev.nextBand (d : Dev) : Option Nat :=
  if d.band < 4 ∧ bandTop d.band ≤ d.tmax then some (d.band + 1)
  else if 0 < d.band ∧ d.tmax + 24 < bandTop (d.band - 1) then some (d.band - 1)
  else none

/-- A band change is decided when none is under way (R421, R426, R427). -/
def State.decideBand (s : State) : State :=
  if s.dev.pend then s else
  match s.dev.nextBand with
  | none => s
  | some k =>
    let s' := s.modDev fun d => { d with pend := true, target := k, blocks := if k = 3 ∨ d.band = 3 then [] else bandBlocks d.band k }
    if k = 3 then s'.post .band3Entry .none
    else if s.dev.band = 3 then s'.post .band3Exit .none
    else s'.post .bandChangeBlock .none

/-- What the device state becomes when BAND has become k (R424). -/
def State.bandState (s : State) (k : Nat) : State :=
  match s.dev.dstate, k with
  | .cooling, 0 => s.enterD .coldSettle
  | .ready, 2 => s.enterD .excursion
  | .run, 2 => s.enterD .excursion
  | .hold, 2 => s.enterD .excursion
  | .excursion, 0 => s.enterD (if s.anyLive then .run else .ready)
  | .excursion, 1 => s.enterD (if s.anyLive then .run else .ready)
  | .ready, 3 => s.enterD .hold
  | .run, 3 => s.enterD .hold
  | .excursion, 3 => s.enterD .hold
  | .warming, 4 => s.enterD .ambient
  | .ambient, _ => s
  | .fault, _ => s
  | _, 4 => s.faultFor 6 0
  | _, _ => s

/-- A change is in effect at every block: BAND takes the new value, CHANGES counts it, it is logged (R421, R422). -/
def State.bandDone (s : State) : State :=
  let k := s.dev.target
  let old := s.dev.band
  let s := s.modDev fun d => { d with band := k, pend := false, changes := (d.changes + 1) % 2 ^ 16, blocks := [] }
  ((s.devLog 1 0 0 (old * 16 + k)).bandState k).decideBand

/-- BAND_CHANGE_BLOCK (R426): one block moves, memory agents before cores; a core between two issue cycles, after its castling. -/
def execBandChangeBlock (s : State) : Host.Outcome State Fault Refusal :=
  .next (
    if !s.dev.pend then s else
    let agents := s.dev.blocks.filter fun b => decide (b < 1000)
    let free := (if agents ≠ [] then agents else s.dev.blocks).filter fun b => decide (b < 1000) || (match (s.core (b - 1000)).resid with
      | .castling _ => false
      | _ => true)
    match free with
    | [] => if s.dev.blocks = [] then s.bandDone else s.post .bandChangeBlock .none
    | l =>
      let b := l.getD (s.pickOf l.length) 0
      let s := ({ s with tick := s.tick + 1 } : State).modDev fun d => { d with blocks := d.blocks.erase b }
      let s := if b < 1000 then s else s.modCore (b - 1000) fun c => { c with pause := 64 }
      if s.dev.blocks = [] then s.bandDone else s.post .bandChangeBlock .none)

/-- Accesses and answers that agents hold and can perform (R427). -/
def agentWork (i : Instr) : Bool :=
  match i with
  | .permissionProbe | .permissionProbeReply | .remoteRead | .lineFill | .readDataResponse | .writeRequest | .atomicRequest | .watchRequest | .ackResponse
  | .knightArrival | .spawnRecordArrival | .sideLogRegistration | .recall | .tokenReturn => true
  | _ => false

/-- Whether the work that band 3 waits for is over (R427): frames in flight, agents' accesses, sent packets, granted operations, castlings. -/
def State.quiet3 (s : State) : Bool :=
  s.flights.isEmpty && !(s.agenda.any fun e => agentWork e.i) && !(s.packets.any fun p => !p.sent) && !(s.engines.any fun e => e.2.ops.any fun o => o.st == .granted)
    && !(s.cores.any fun c => match c.2.resid with
      | .castling _ => true
      | _ => false)

/-- BAND3_ENTRY (R427): distributors and cores stop; once the work in flight is over the clocks stop. -/
def execBand3Entry (s : State) : Host.Outcome State Fault Refusal :=
  .next (
    if !s.dev.pend || s.dev.target != 3 then s else
    let s := s.modDev fun d => { d with stopped := true }
    if s.quiet3 then (s.modDev fun d => { d with clocksOff := true }).bandDone else s.post .band3Entry .none)

/-- Every LIVE context's queues, kernels and distributors go on. -/
def State.resumeAll (s : State) : State :=
  ((s.ctxs.filter fun x => x.2.st == .live).foldl (fun s x => (s.kickQueues x.1).kickReady x.1) s).kickAll

/-- BAND3_EXIT (R427): the steps reversed; in FAULT the cores stay stopped. -/
def execBand3Exit (s : State) : Host.Outcome State Fault Refusal :=
  .next (
    if !s.dev.pend || s.dev.band != 3 then s else
    let s := s.modDev fun d => { d with clocksOff := false, stopped := d.dstate == .fault }
    s.bandDone.resumeAll)

/-! ### Sensors (R421, R425) -/

/-- Twice the median of a die's eight readings: the sum of the middle two. -/
def median2 (l : List Nat) : Nat :=
  let t := isort (fun a b => decide (a ≤ b)) l
  t.getD 3 0 + t.getD 4 0

/-- Whether a sensor's reading is valid among those of its die, in 1/8 K (R421). -/
def sensorOk (l : List Nat) (r : Nat) : Bool :=
  decide (560 ≤ r ∧ r ≤ 2560) && decide (2 * r ≤ median2 l + 160) && decide (median2 l ≤ 2 * r + 160)

/-- The readings of a die. -/
def dieReads (l : List Nat) (d : Nat) : List Nat := (l.drop (8 * d)).take 8
/-- The numbers of the invalid sensors. -/
def invalidOf (l : List Nat) : List Nat := (List.range 32).filter fun n => !sensorOk (dieReads l (n / 8)) (l.getD n 0)

/-- Whether a rate fault applies in a state (R425). -/
def DSt.rated (d : DSt) : Bool := d != .ambient && d != .fault

/-- SENSOR_READING (R421, R425): a time in ns and 32 readings; TMAX, invalid sensors, the rate of change, the hold at 120 K, and the band. -/
def execSensorReading (s : State) : Host.Outcome State Fault Refusal :=
  .next (match s.ev with
    | .nats (t :: rs) =>
      let bad := invalidOf rs
      let was := if s.dev.sensors = [] then [] else invalidOf s.dev.sensors
      let good := (List.range 32).filter fun n => !bad.contains n
      let tmax := good.foldl (fun m n => max m (rs.getD n 0)) 0
      let old := s.dev.tmax
      let first := s.dev.sensors = []
      let rate := s.dev.hist.any fun h => decide (t ≤ h.1 + 60000000000 ∧ (h.2 + 48 < tmax ∨ tmax + 48 < h.2))
      let crosses := !first && !s.dev.recal && s.dev.holdAt.isNone && decide ((old < 960 ∧ 960 ≤ tmax) ∨ (960 ≤ old ∧ tmax < 960))
      let s := s.modDev fun d => { d with
        time := t, sensors := rs, tmax := if good = [] then d.tmax else tmax
        hist := (d.hist.filter fun h => decide (t ≤ h.1 + 300000000000)) ++ [(t, tmax)], holdAt := if crosses then some t else d.holdAt }
      let s := (bad.filter fun n => !was.contains n).foldl (fun s n => s.devLog 4 n 0 (rs.getD n 0)) s
      let s := if (List.range 4).any fun d => decide ((bad.filter fun n => n / 8 == d).length > 4) then s.devFault else s
      let s := if rate && s.dev.dstate.rated then s.faultFor 3 tmax else s
      s.decideBand
    | _ => s)

/-- RECALIBRATION_HOLD (R425): every stack has recalibrated, or the hold has run longer than 30 s, which is a rate fault. -/
def execRecalibrationHold (s : State) : Host.Outcome State Fault Refusal :=
  .next (match s.ev, s.dev.holdAt with
    | .n2 0 _, some _ => s.modDev fun d => { d with holdAt := none, recal := true }
    | .n2 _ t, some a => if a + 30000000000 < t ∧ s.dev.dstate.rated = true then
        (s.modDev fun d => { d with time := t, holdAt := none }).faultFor 3 0 else s
    | _, _ => s)

/-- LEVEL_LOW (R424): the bath has been below its minimum mark for 10 s. -/
def execLevelLow (s : State) : Host.Outcome State Fault Refusal := .next (s.faultFor 5 0)

/-! ### Requests of the host driver (R424) -/

/-- COOL_DOWN_REQUEST (R424). -/
def execCoolDownRequest (s : State) : Host.Outcome State Fault Refusal :=
  .next (if s.dev.dstate = .ambient then
      ((s.modDev fun d => { d with recal := false, holdAt := none }).enterD .cooling).answerHost .ok 0
    else s.answerHost .badBand 0)

/-- WARM_UP_REQUEST (R424): with every context FREE. -/
def execWarmUpRequest (s : State) : Host.Outcome State Fault Refusal :=
  .next (
    let d := s.dev.dstate
    if (d = .ready ∨ d = .cooling ∨ d = .coldSettle) ∧ (s.ctxs.all fun x => x.2.st == .free) = true then
      ((s.modDev fun d => { d with recal := false, holdAt := none }).enterD .warming).answerHost .ok 0
    else s.answerHost .badBand 0)

/-- When COLD_SETTLE was entered: the time of the last change of state. -/
def Dev.settleFrom (d : Dev) : Nat := ((d.log.reverse.find? fun r => r.event == 2).map (·.time)).getD 0

/-- Whether TMAX has stayed within 1 K of its mean for 300 s (R424). -/
def Dev.settled (d : Dev) : Bool :=
  let l := (d.hist.filter fun h => decide (d.time ≤ h.1 + 300000000000)).map (·.2)
  let sum := l.foldl (· + ·) 0
  decide (d.settleFrom + 300000000000 ≤ d.time) && l.all fun x => decide (x * l.length ≤ sum + 8 * l.length ∧ sum ≤ x * l.length + 8 * l.length)

/-- COLD_SETTLE_DONE (R424): memory is trained, a scrub pass is done; READY once TMAX is steady. -/
def execColdSettleDone (s : State) : Host.Outcome State Fault Refusal :=
  .next (if s.dev.dstate = .coldSettle ∧ s.dev.settled = true then s.enterD .ready else s)

/-! ### Scrub and errors (R428-R433) -/

/-- The page at a home whose frame holds a physical key (R236). -/
def State.pageOfKey (s : State) (k : Nat) : Option (Nat × Page) :=
  s.pages.find? fun x => x.2.st != .unmapped && x.2.st != .retired && decide (x.2.key (coreOfKey x.1) 0 ≤ k ∧ k < x.2.key (coreOfKey x.1) 0 + pageSize x.2.tier)

/-- The contexts of a partition torn down. -/
def State.endPart (s : State) (p : Nat) : State :=
  (s.ctxs.filter fun x => x.2.part == p).foldl (fun s x => s.startTeardown x.1) s

/-- Every member crew of a group retired, on every chip of the context (R433). -/
def State.endGroup (s : State) (ctx g addr : Nat) : State :=
  ((s.ctx ctx).chips.filter (· != s.chip)).foldl (fun s ch =>
    s.send Config.mgmtCore ch Config.mgmtCore .firmwareRequest (.n6 (s.chip * 8 + 4) (2 ^ 40) ctx g addr 0)) (s.endGroupHere ctx g addr)

/-- An uncorrectable error counted and logged (R434, R437). -/
def State.countUE (s : State) (core addr : Nat) : State :=
  (s.modDev fun d => { d with uecount := min 65535 (d.uecount + 1) }).devLog 0x11 (s.locOf core) addr 0

/-- Containment of an uncorrectable error in a line of a page, which is RETIRED (R239, R432, R433). -/
def State.containPage (s : State) (key addr : Nat) : State :=
  let ctx := ctxOfKey key
  let s := s.retirePage key .permission
  match s.owners.get? key with
  | some (1, g) => s.endGroup ctx g addr
  | some (2, p) => s.endPart p
  | _ => s.startTeardown ctx

/-- A frame that no page maps is withdrawn from use (R433). -/
def State.withdrawFrame (s : State) (tier core frame : Nat) : State :=
  s.modDev fun d => { d with withdrawn := ((tier, core, frame) :: d.withdrawn).eraseDups }

/-- Containment by the page whose frame holds a physical key, or else of the free frame (R433). -/
def State.containKey (s : State) (tier core key ofs : Nat) : State :=
  match s.pageOfKey key with
  | some (k, _) => s.containPage k ofs
  | none => s.withdrawFrame tier core ((key - frameKey tier core 0 0) / pageSize tier)

/-- Containment by where in a core's slice the error lies (R169, R433): the overflow area and the save areas belong to a context, the device structures
are the home's own, a free frame harms no one. -/
def State.contain (s : State) (core ofs owner : Nat) : State :=
  let key := core * 0x60000000 + ofs
  if ofs < 0x4000000 then s.startTeardown owner
  else if ofs < 0x6000000 then s.startTeardown ((ofs - 0x4000000) / 2 ^ 20)
  else if ofs < 0x8000000 then s.devFault
  else s.containKey 0 core key ofs

/-- Containment of an uncorrectable error that another storage than HBM4 reports (R430, R433), by kind: 0 a slot; 1 a crew's share, private slice or
accumulator tile; 2 a weight slot; 3 a staging way; 4 a context's overflow record, save area or event log; 5 LPDDR-6 at a core's offset; 6 host memory;
7 a replica line of a holder; 8 an entry of a core's permission cache; 9 the chip table or Nyend's own memory. -/
def State.containOther (s : State) (kind a b : Nat) : State :=
  match kind with
  | 0 => match s.thr.get? a with
    | some t => if t.fw then s else if t.kind = 2 then s.killCrew (ckOfTk a) 0 else s.retire a (some ⟨18, 0, 0⟩)
    | none => s
  | 1 => if (s.crews.get? a).isSome then s.killCrew a b else s
  | 2 => match s.wgrants.find? fun x => x.1 % 128 == a && decide (x.2.1 ≤ b ∧ b < x.2.1 + x.2.2) with
    | some x => s.startTeardown (x.1 / 128)
    | none => s
  | 3 => match s.sgrants.find? fun x => x.2.1 == a && decide (x.2.2.1 ≤ b ∧ b < x.2.2.1 + x.2.2.2) with
    | some x => s.startTeardown (x.1 / 16)
    | none => s
  | 4 => s.startTeardown a
  | 5 => let k := frameKey 1 a 0 b / 32 * 32
    (s.poisonAt k 32).containKey 1 a k b
  | 6 => let k := frameKey 2 0 0 b / 32 * 32
    match s.pageOfKey k with
    | some (p, _) => (s.poisonAt k 32).containPage p b
    | none => s.poisonAt k 32
  | 7 => s.dropReps fun r _ => r.holder == a && r.line == b
  | 8 => s.modCore a fun c => { c with perm := c.perm.eraseIdx b }
  | _ => s.devFault

/-- SCRUB_LINE (R428, R430, R431, R433): an error that another storage reports; or one line of a slice read and rewritten: 0 sound, 1 one error corrected, 2 + k its codeword k is uncorrectable;
the fourth number is the context whose record lies there, where the overflow area is hit. -/
def execScrubLine (s : State) : Host.Outcome State Fault Refusal :=
  .next (match s.ev with
    | .n4 core line found owner =>
      let wrap := decide (12582912 ≤ line + 1)
      let s := s.modDev fun d => { d with scrub := d.scrub.set core (if wrap then 0 else line + 1)
                                          scrubSlow := if wrap then d.scrubSlow.filter (· != core) else d.scrubSlow }
      match found with
      | 0 => s
      | 1 =>
        let n := ((s.dev.corrected.get? core).getD 0) + 1
        let s := s.modDev fun d => { d with corrected := d.corrected.set core n }
        if n % 4096 = 0 then s.devLog 0x10 (s.locOf core) 0 n else s
      | k + 2 =>
        let ofs := line * 128 + k % 4 * 32
        let s := (s.poisonAt (core * 0x60000000 + ofs) 32).countUE core ofs
        s.contain core ofs owner
    | .n3 kind a b => if kind = 7 ∨ kind = 8 then s.containOther kind a b
      else (s.countUE (if kind = 5 then a else Config.mgmtCore) (if kind = 5 ∨ kind = 6 then b else 0)).containOther kind a b
    | _ => s)

/-- SCRUB_LATE (R428): the pass has missed its 60 s; scrub takes one slot in 16 until it is done. -/
def execScrubLate (s : State) : Host.Outcome State Fault Refusal :=
  .next (match s.ev with
    | .n1 core => (s.modDev fun d => { d with scrubSlow := (core :: d.scrubSlow).eraseDups }).devLog 0x12 (s.locOf core) 0 0
    | _ => s)

/-- OWNER_RECORD_WRITE (R432): OKIND 3 is reserved. -/
def execOwnerRecordWrite (s : State) : Host.Outcome State Fault Refusal :=
  .next (match s.ev with
    | .n3 key kind idx =>
      if 3 ≤ kind ∨ (s.pages.get? key).isNone = true then s.answerHost .badState 0
      else ({ s with owners := s.owners.set key (kind, idx % 256) } : State).answerHost .ok 0
    | _ => s)

/-! ### Degraded operation (R437) -/

/-- Replacement is requested. -/
def State.askReplace (s : State) (loc : Nat) : State := ((s.modDev fun d => { d with replace := true }).devLog 0x30 loc 0 0).devLog 0x31 loc 0 0

/-- RESOURCE_RETIRE (R437): 0 a channel, 1 a core, 2 a FAILED link, 3 a repaired UCIe lane. -/
def execResourceRetire (s : State) : Host.Outcome State Fault Refusal :=
  .next (match s.ev with
    | .n2 0 c => ((s.modCore c fun x => { x with noHome := true }).modDev fun d => { d with rchan := d.rchan + 1 }).askReplace (s.locOf c)
    | .n2 1 c => ((s.modCore c fun x => { x with retired := true }).modDev fun d => { d with rcores := d.rcores + 1 }).askReplace (s.locOf c)
    | .n2 2 n => s.askReplace (s.chip * 2 ^ 32 + n)
    | .n2 _ n => (s.modDev fun d => { d with rlanes := d.rlanes + 1 }).askReplace (s.chip * 2 ^ 32 + n)
    | _ => s)

/-- DEVHEALTH (R437). -/
def Dev.health (d : Dev) : Nat :=
  let rl := d.links.countP fun l => l.2.st == .failed || l.2.st == .degraded
  b2n d.replace * 2 ^ 63 + d.rcores % 256 * 2 ^ 40 + d.rchan % 256 * 2 ^ 32 + rl % 256 * 2 ^ 24 + d.rlanes % 256 * 2 ^ 16 + d.uecount % 65536

/-! ### Fuses, attestation, reset (R424, R438, R439) -/

/-- FUSE_BLOW_REQUEST (R438): rollback fuses blown up to SECVER. -/
def execFuseBlowRequest (s : State) : Host.Outcome State Fault Refusal :=
  .next ((s.modDev fun d => { d with fuses := max d.fuses (min 64 d.secver) }).answerHost .ok 0)

/-- The report of an attestation (R439): the nonce, the digests of the ROM and of the image, SECVER and the fused count, DEVHEALTH and BAND. -/
def Dev.report (d : Dev) (nonce : Nat) : Nat :=
  nonce % 2 ^ 256 + 2 ^ 256 * (Config.romDigest % 2 ^ 256) + 2 ^ 512 * (d.digest % 2 ^ 256) + 2 ^ 768 * (d.secver % 2 ^ 64) + 2 ^ 832 * (d.fuses % 2 ^ 64)
    + 2 ^ 896 * d.health + 2 ^ 960 * d.bandReg.toNat

/-- ATTESTATION_REQUEST (R439): the next leaf signs; before the first of 64 leaves is used the bound after them is in flash. -/
def execAttestationRequest (s : State) : Host.Outcome State Fault Refusal :=
  .next (match s.ev with
    | .n1 nonce =>
      let r := s.dev.report nonce
      let l := s.dev.leaf
      let s := s.modDev fun d => { d with leaf := l + 1, leafMax := if d.leafMax ≤ l then d.leafMax + 64 else d.leafMax }
      s.answerHost .ok (r + 2 ^ 1024 * Config.signature l r)
    | _ => s)

/-- Four words of a fault-log record (R434). -/
def DLog.value (r : DLog) : Nat :=
  r.event * 2 ^ 48 + r.loc % 2 ^ 48 + 2 ^ 64 * (r.time % 2 ^ 64) + 2 ^ 128 * (r.addr % 2 ^ 64) + 2 ^ 192 * (r.info % 2 ^ 64)

/-- FAULT_LOG_READ (R434): the record at a place of the log, oldest first; 0 where there is none. -/
def execFaultLogRead (s : State) : Host.Outcome State Fault Refusal :=
  .next (match s.ev with
    | .n1 i => s.answerHost .ok (match s.dev.log[i]? with
      | some r => r.value
      | none => 0)
    | _ => s)

/-- DEVICE_RESET (R424, R438): everything as after reset but what lasts: fuses, the key's leaves (R439), retired resources and the request
for replacement, and the band that the temperature holds. The image that boots has a SECVER not below the blown fuses, and CHIP is assigned
(R11). -/
def execDeviceReset (s : State) : Host.Outcome State Fault Refusal :=
  .next (match s.ev with
    | .n4 secver digest valid chip =>
      let d := s.dev
      let boots := valid = 1 ∧ d.fuses ≤ secver
      let st : DSt := if d.band = 4 then .ambient else .cooling
      let keep (x : Nat × CoreSt) : Nat × CoreSt := (x.1, { CoreSt.blank with retired := x.2.retired, noHome := x.2.noHome })
      { State.reset with
        chip := chip % 2 ^ 16, turn := s.turn, tick := s.tick, ids := s.ids, inbox := s.inbox
        cores := (s.cores.filter fun x => x.2.retired || x.2.noHome).map keep
        dev := { Dev.blank with
          band := d.band, target := d.band, dstate := st, fuses := d.fuses, leaf := d.leafMax, leafMax := d.leafMax
          secver := if boots then secver else 0, digest := if boots then digest else 0, replace := d.replace, rcores := d.rcores, rchan := d.rchan
          rlanes := d.rlanes, stopped := d.band == 3, clocksOff := d.band == 3 } }
    | _ => s)

end Sys2Proof.Machine
end

