-- ==== Sys2Proof/Machine/Control.lean ====
section
/-! DEFINITION. Control words (05 R87-R97): CTL words but SNAP, branches, calls and jumps, and the prefixes (03 R54, R55). -/

namespace Sys2Proof.Machine
open Sys2Proof

/-- A branch of one lane (R94-R97): the target is checked first; a failing check suppresses the chain in the lane. -/
def State.jump (s : State) (l : LaneRef) (a : Word) : State :=
  s.toward l a.toNat (fun b => s.fail l b.1 b.2.1 b.2.2) (s.modT l.tk fun t => { t with pc := a.setWidth 56 })

/-- The target of a B-format word (R94): its own address + 4 x OFS22. -/
def State.brTarget (s : State) (o : BitVec 22) : Word := s.iss.wpc.setWidth 64 + BitVec.ofInt 64 (4 * sgn 22 o.toNat)

/-- The return address (R94): the first word after the chain. -/
def State.retAddr (s : State) : Word := s.iss.next.setWidth 64

/-- A call of one lane: g31 receives the return address if the target passes. -/
def State.callTo (s : State) (l : LaneRef) (a : Word) : State :=
  s.toward l a.toNat (fun b => s.fail l b.1 b.2.1 b.2.2) (s.modT l.tk fun t => { t.setG 31 s.retAddr with pc := a.setWidth 56 })

/-- The trap of a word whose chain takes effect (R91, R90): the frame PC is the following chain head. -/
def State.nextTrap (s : State) (c : Cause) (info : Word) : TrapInfo :=
  { cause := c, pc := s.iss.next, addr := 0, info := info, word := s.iss.widx }

/-- NOP (R87). -/
def execNop (s : State) : Host.Outcome State Fault Refusal := word .nop s fun s => s

/-- EXIT (R88, R151): the lane leaves every rejoin register and the thread enters the EXIT drain. -/
def execExit (s : State) : Host.Outcome State Fault Refusal :=
  word .exit s fun s => s.eachLane fun s l =>
    let s := match s.iss.crew with
      | some ck => s.modC ck (·.strikeAll l.pos)
      | none => s
    (s.block l.tk (.exitDrain s.iss.pc)).recheck l.tk

/-- YIELD (R89): in no bin in the next cycle. -/
def execYield (s : State) : Host.Outcome State Fault Refusal := word .yield s fun s => s.eachLane fun s l => s.quiet l.tk 1

/-- TRAPF (R90, R245): with LOGPEND set the deferred directory is asked first; the flags are those the chain found (R45). -/
def execTrapf (s : State) : Host.Outcome State Fault Refusal :=
  word .trapf s fun s => s.eachLane fun s l =>
    let t := s.rT l.tk
    let x := t.flags &&& t.trapen
    let i := s.nextTrap .arith (x.setWidth 64)
    if s.logpend s.iss.core t.ctx then
      ((s.block l.tk (.dirTrapf s.iss.pc)).modT l.tk fun t => { t with ptrap := if x = 0 then t.ptrap else t.ptrap ++ [i] }).dirQuery l.tk
        false
    else if x = 0 then s else s.takeTrap l.tk i

/-- TRAP n (R91). -/
def execTrap (f : CtlF) (s : State) : Host.Outcome State Fault Refusal :=
  word (.trap f) s fun s => s.eachLane fun s l => s.takeTrap l.tk (s.nextTrap .software (W f.i.toNat))

/-- SLEEP n (R92). -/
def execSleep (f : CtlF) (s : State) : Host.Outcome State Fault Refusal :=
  word (.sleep f) s fun s => s.eachLane fun s l =>
    (s.block l.tk .sleep).modT l.tk fun t => { t with sleepAt := some (s.clockOf s.iss.core + 16 * f.i.toNat) }

/-- BRK n (R91): escalates whatever the depth. -/
def execBrk (f : CtlF) (s : State) : Host.Outcome State Fault Refusal :=
  word (.brk f) s fun s => s.eachLane fun s l => s.escalate l.tk .software s.iss.next 0 (W (f.i.toNat + 0x2000))

/-- BR (R94). -/
def execBr (f : BrF) (s : State) : Host.Outcome State Fault Refusal :=
  word (.br f) s fun s => s.eachLane fun s l => s.jump l (s.brTarget f.o)

/-- CALL (R94). -/
def execCall (f : BrF) (s : State) : Host.Outcome State Fault Refusal :=
  word (.call f) s fun s => s.eachLane fun s l => s.callTo l (s.brTarget f.o)

/-- The tops of the predicate stacks of the issuing lanes as the chain found them (R95). -/
def State.tops (s : State) : List Bool := s.iss.lanes.map fun l => (s.rT l.tk).top

/-- A branch of the lanes that meet a condition (R95). -/
def State.branchIf (s : State) (f : BrF) (p : LaneRef → Bool) : State :=
  let a := s.brTarget f.o
  s.eachLane fun s' l => if p l then s'.jump l a else s'

/-- BRP.t (R95). -/
def execBrpT (f : BrF) (s : State) : Host.Outcome State Fault Refusal :=
  word (.brpT f) s fun s => s.branchIf f fun l => (s.rT l.tk).top
/-- BRP.f (R95). -/
def execBrpF (f : BrF) (s : State) : Host.Outcome State Fault Refusal :=
  word (.brpF f) s fun s => s.branchIf f fun l => !(s.rT l.tk).top
/-- BRP.any (R95). -/
def execBrpAny (f : BrF) (s : State) : Host.Outcome State Fault Refusal :=
  word (.brpAny f) s fun s => s.branchIf f fun _ => s.tops.any id
/-- BRP.all (R95). -/
def execBrpAll (f : BrF) (s : State) : Host.Outcome State Fault Refusal :=
  word (.brpAll f) s fun s => s.branchIf f fun _ => s.tops.all id
/-- BRP.none (R95). -/
def execBrpNone (f : BrF) (s : State) : Host.Outcome State Fault Refusal :=
  word (.brpNone f) s fun s => s.branchIf f fun _ => !s.tops.any id

/-- JR (R96). -/
def execJr (f : JrF) (s : State) : Host.Outcome State Fault Refusal :=
  word (.jr f) s fun s => s.eachLane fun s' l => if s.active (f.p == 1) l then s'.jump l ((s.rT l.tk).gr f.a.toNat) else s'
/-- RET (R96). -/
def execRet (f : RetF) (s : State) : Host.Outcome State Fault Refusal :=
  word (.ret f) s fun s => s.eachLane fun s' l => if s.active (f.p == 1) l then s'.jump l ((s.rT l.tk).gr 31) else s'
/-- CALLR (R96). -/
def execCallr (f : JrF) (s : State) : Host.Outcome State Fault Refusal :=
  word (.callr f) s fun s => s.eachLane fun s' l => if s.active (f.p == 1) l then s'.callTo l ((s.rT l.tk).gr f.a.toNat) else s'

/-- A prefix (R54): the checks of classes 2 to 4, then it stands before the next word. -/
def prefixWord (i : Instr) (p : Pfx) (s : State) : Host.Outcome State Fault Refusal :=
  .next (match s.staticFault i with
    | some c => s.failAll c 0 0
    | none => { s with iss := { s.iss with pfx := p } })

/-- The prefix of an arithmetic base (R55). -/
def execPrefixArith (f : PfxArithF) (s : State) : Host.Outcome State Fault Refusal := prefixWord (.prefixArith f) (.arith f) s
/-- The prefix of a memory base (R55). -/
def execPrefixMemory (f : PfxMemF) (s : State) : Host.Outcome State Fault Refusal := prefixWord (.prefixMemory f) (.mem f) s

end Sys2Proof.Machine
end

