-- ==== Sys2Proof/Machine/Fetch.lean ====
section
/-! DEFINITION. Fetching a chain and its checks before any word acts (03 R42-R45, R56-R58): fetch faults, ILLEGAL_CHAIN, the static causes of
classes 2 to 4 in their order, lookahead windows. -/

namespace Sys2Proof.Machine
open Sys2Proof

/-! ### Fetch (R58) -/

/-- A fetched chain: its words with their packet positions, or what stands in the way, with the word's address. -/
inductive Chain where
  | ok (ws : List Nat)
  | stop (a : Nat) (w : CodeWord)
  deriving DecidableEq, Repr

/-- The words of a chain from an address: a word that is not tied to the next, or word 2 of its packet, ends it (R42). -/
def State.chainFrom (s : State) (core ctx tk : Nat) : Nat → Nat → Chain
  | 0, _ => .ok []
  | n + 1, a =>
    match s.codeWord core ctx tk a with
    | .word w =>
      if ties w ∧ a / 4 % 3 ≠ 2 then
        match s.chainFrom core ctx tk n (a + 4) with
        | .ok ws => .ok (w :: ws)
        | x => x
      else .ok [w]
    | x => .stop a x

/-- The first of n words that the core must fetch before it can say whether only NOP chains follow in a packet (R42). -/
def State.nopRest (s : State) (core ctx tk : Nat) : Nat → Nat → Option (Nat × CodeWord)
  | 0, _ => none
  | n + 1, a => match s.codeWord core ctx tk a with
    | .word w => if w = 0x02000000 then s.nopRest core ctx tk n (a + 4) else none
    | .fault _ _ => none
    | w => some (a, w)

/-- The chain at the head of the issuing lanes; first its core must hold what tells that the head is one, and whether a NOP chain is skipped. -/
def State.chainHere (s : State) : Chain :=
  let a := s.iss.pc.toNat
  let tk := s.lowLane.tk
  match s.headNeeds s.iss.core s.iss.ctx tk a with
  | some w => .stop (a - 4) w
  | none => match s.chainFrom s.iss.core s.iss.ctx tk 3 a with
    | .ok [0x02000000] => (match s.nopRest s.iss.core s.iss.ctx tk (2 - a / 4 % 3) (a + 4) with
      | some (b, w) => .stop b w
      | none => .ok [0x02000000])
    | x => x

/-- The checks of a chain head in one lane (R58): alignment, then the kernel's code range. -/
def State.headFault (s : State) (t : Thr) (a : Nat) : Option (Cause × Nat) :=
  if a % 4 ≠ 0 then some (.misaligned, 0) else if !s.inCode t a then some (.permission, 5) else none

/-- The lanes whose chain head fails the checks of R58 take their traps. -/
def State.headChecks (s : State) : State :=
  s.eachLane fun s l => match s.headFault (s.T l.tk) s.iss.pc.toNat with
    | some (c, i) => s.fail l c (s.iss.pc.setWidth 64) (W i)
    | none => s

/-- FETCH_FAULT (R58): the chain's first word that cannot be fetched makes every issuing lane trap, wait for a probe, or wait for its line. -/
def State.fetchFault (s : State) : State :=
  match s.chainHere with
  | .ok _ => s
  | .stop a w => s.eachLane fun s l => s.stopFor l a w

/-- FETCH_FAULT (R58). -/
def execFetchFault (s : State) : Host.Outcome State Fault Refusal := .next s.headChecks.fetchFault

/-- ILLEGAL_INSTR (R57): a word that no instruction matches. -/
def execIllegalInstr (s : State) : Host.Outcome State Fault Refusal := .next (s.failAll .illegalInstr 0 0).endWord

/-! ### Class 1 (R44) -/

/-- Whether the words of a chain that starts at a packet position break a rule of R44. -/
def chainBad (pos : Nat) (ws : List Nat) : Bool :=
  let n := ws.length
  let ms := ws.map majorOf
  let pipes := ms.filterMap pipeOf
  (decide (pos + n = 3) && (match ws.getLast? with | some w => bit w 31 || majorOf w == 63 | none => false))
    || ws.any (fun w => majorOf w == 63 && bit w 31)
    || decide (pipes.eraseDups.length ≠ pipes.length)
    || ms.dropLast.any fun m => m == 1 || m == 2 || m == 3 || m == 4 || m == 0x38

/-! ### Classes 2 to 4 (R57) -/

/-- A chain's words decoded in their order: a prefix is read as its base's kind asks (R55); `none` for a word that does not decode. -/
def decodeChain : List Nat → List (Option Instr)
  | [] => []
  | w :: ws =>
    let mem := match ws with
      | b :: _ => memMajor (majorOf b)
      | [] => prefixLooksMem w
    (match decodeWordAt mem w with | .ok i => some i | .error _ => none) :: decodeChain ws

/-- The prefix a word leaves in force. -/
def pfxOf : Option Instr → Pfx
  | some (.prefixArith f) => .arith f
  | some (.prefixMemory f) => .mem f
  | _ => .none

/-- The class of a static cause: 2 for ILLEGAL_INSTR, 3 for PRIVILEGED, 4 for the others. -/
def classOf (c : Cause) : Nat := match c with | .illegalInstr => 2 | .privileged => 3 | _ => 4

/-- The static causes of a chain's words with their positions. -/
def State.staticCauses (s : State) : Nat → Pfx → List (Option Instr) → List (Nat × Cause)
  | _, _, [] => []
  | k, p, i :: r =>
    let s' : State := { s with iss := { s.iss with pfx := p } }
    let rest := s.staticCauses (k + 1) (pfxOf i) r
    match (match i with | some x => s'.staticFault x | none => some .illegalInstr) with
    | some c => (k, c) :: rest
    | none => rest

/-- The first static cause of a chain in the order of R57: by class, then in word order. -/
def State.staticFirst (s : State) (is : List (Option Instr)) : Option (Nat × Cause) :=
  let cs := s.staticCauses 0 .none is
  match cs.find? fun c => classOf c.2 == 2 with
  | some c => some c
  | none => match cs.find? fun c => classOf c.2 == 3 with
    | some c => some c
    | none => cs.head?

/-! ### Class 5 (R56) -/

/-- The registers a long-latency word locks (R56): its destination, and FLAGS when it can set a flag. -/
def lockMask : Instr → Nat
  | .div f | .rem f | .cvtn f => gbit f.d.toNat ||| flagsBit
  | .frcps f | .frsqs f | .fexp2 f | .flog2 f | .fsin f | .fcos f => gbit f.d.toNat ||| flagsBit
  | .ld f | .ldsx f | .ldnm f | .lds f | .ldw f | .ldr f | .ldrna f | .ldp f => gbit f.d.toNat
  | .ldfe f | .ldff f => gbit f.d.toNat
  | .atomAdd f | .atomMin f | .atomMax f | .atomAnd f | .atomOr f | .atomXor f | .atomXchg f | .atomCas f | .atomInc f | .atomDec f =>
    gbit f.d.toNat
  | .atomFadd f | .atomFmin f | .atomFmax f | .atomFaddComb f => gbit f.d.toNat ||| flagsBit
  | .mma f | .mmamCausal f | .accz f | .accrd f | .accwr f | .wbld f | .wbdrop f | .tmset f | .post f | .tcopy f | .layout f | .mcast f =>
    gbit f.g.toNat
  | .mmamTree f => gbit f.g.toNat
  | _ => 0

/-- The lowest register of a mask: a g number, or 32 for FLAGS. -/
def lowestOf (m : Nat) : Nat := ((List.range 33).find? fun n => bit m n).getD 0

/-- Registers that words of a chain touch although an earlier word of the chain locks them. -/
def selfClash : Nat → List Instr → Nat
  | _, [] => 0
  | locked, i :: r => (locked &&& i.touch) ||| selfClash (locked ||| lockMask i) r

/-- What the locks of a lane do to a chain (R56): wait for a word past a window, or a violation at the lowest locked register touched. -/
def Thr.windowCheck (t : Thr) (is : List Instr) : Option (Sum Unit Nat) :=
  let ws := is.filter fun i => i.major != 63
  if t.locks.any fun k => decide (k.left < ws.length) then some (.inl ())
  else
    let m := t.locks.foldl (fun m k => m ||| (k.regs &&& uni (is.map Instr.touch))) 0 ||| selfClash 0 is
    if m = 0 then none else some (.inr (lowestOf m))

/-- The lanes stopped by their windows. -/
def State.windowChecks (s : State) (is : List Instr) : State :=
  s.eachLane fun s l => match (s.T l.tk).windowCheck is with
    | some (.inl _) => s.hold l .window
    | some (.inr n) => s.fail l .lookaheadViolation 0 (W n)
    | none => s

/-- The roaming lanes whose core does not hold a launch constant that the chain reads wait for it (R141, R323); a block that is not sealed makes none wait. -/
def State.constChecks (s : State) (is : List Instr) : State :=
  if !s.roaming then s else
  s.eachLane fun s l =>
    let t := s.T l.tk
    let needs := (is.flatMap Instr.consts).filterMap fun k => (s.constAt t k).bind fun a => match s.sealedAt s.iss.core t.ctx l.tk false a with
      | .probe p => some (a, CodeWord.probe p)
      | .fill k c f => some (a, CodeWord.fill k c f)
      | _ => none
    match needs with
    | (a, w) :: _ => s.stopFor l a w
    | [] => s

end Sys2Proof.Machine
end

