-- ==== Sys2Proof/Machine/Predicate.lean ====
section
/-! DEFINITION. The predicate-stack words PRED (05 R98-R100). -/

namespace Sys2Proof.Machine
open Sys2Proof

/-- A stack operation that needs an entry: PRED_UNDERFLOW at depth 0 (R99, R100), tested on the depth the chain's earlier words left.
Behind a push of the same chain the operation works on the entry just pushed (log 51). -/
def State.needEntry (s : State) (f : Thr → Thr → Thr) : State :=
  s.eachLane fun s l =>
    if (s.T l.tk).pdepth = 0 then s.fail l .predUnderflow 0 0 else s.modT l.tk (f (s.rT l.tk))

/-- PPUSH (R100). -/
def execPpush (f : PredAF) (s : State) : Host.Outcome State Fault Refusal :=
  word (.ppush f) s fun s => s.eachLane fun s l =>
    if 16 ≤ (s.T l.tk).pdepth then s.fail l .predOverflow 0 0
    else
      let t := s.rT l.tk
      s.modT l.tk (·.push (t.gr f.a.toNat != 0 && t.top))

/-- PINV (R100): on the entry that an earlier push of the chain has left (log 51). -/
def execPinv (f : ChainF) (s : State) : Host.Outcome State Fault Refusal :=
  word (.pinv f) s fun s => s.needEntry fun _ t => t.setTop (!t.top && t.below)

/-- PPOP (R100). -/
def execPpop (f : ChainF) (s : State) : Host.Outcome State Fault Refusal :=
  word (.ppop f) s fun s => s.needEntry fun _ t => t.pop

/-- PAND (R100): on the entry that an earlier push of the chain has left (log 51). -/
def execPand (f : PredAF) (s : State) : Host.Outcome State Fault Refusal :=
  word (.pand f) s fun s => s.needEntry fun r t => t.setTop (t.top && r.gr f.a.toNat != 0)

/-- PGET (R100): PSTK as the chain found it (R45). -/
def execPget (f : PredDF) (s : State) : Host.Outcome State Fault Refusal :=
  word (.pget f) s fun s => s.eachLane fun s l => s.wrG l.tk f.d.toNat (s.rT l.tk).pstk

/-- PSET (R98, R100). -/
def execPset (f : PredAF) (s : State) : Host.Outcome State Fault Refusal :=
  word (.pset f) s fun s => s.eachLane fun s l =>
    let v := (s.rT l.tk).gr f.a.toNat
    if 16 < bits v 20 16 then s.fail l .predOverflow 0 0 else s.modT l.tk (·.setPstk v)

end Sys2Proof.Machine
end

