-- ==== Sys2Proof/Machine/Rejoin.lean ====
section
/-! DEFINITION. Rejoin words (06 R146-R154). -/

namespace Sys2Proof.Machine
open Sys2Proof

/-- The set I of the chain's issuing lanes (R147). -/
def State.issueMask (s : State) : BitVec 32 := s.iss.lanes.foldl (fun m l => m ||| BitVec.ofNat 32 (2 ^ l.pos)) 0

/-- A rejoin register of the issuing crew changed. -/
def State.modJ (s : State) (n : Nat) (g : Rejoin → Rejoin) : State :=
  match s.iss.crew with
  | some ck => s.modC ck fun c => c.setJ n (g (c.jr n))
  | none => s

/-- ENROL (R147, R148). -/
def execEnrol (f : RejF) (s : State) : Host.Outcome State Fault Refusal :=
  word (.enrol f) s fun s => s.modJ (f.j.toNat - 168) fun r => { r with enrolled := r.enrolled ||| s.issueMask }

/-- PARK (R149): an enrolled lane is parked; the release of R150 is tested at the end of the cycle. -/
def execPark (f : RejF) (s : State) : Host.Outcome State Fault Refusal :=
  word (.park f) s fun s => 
    match s.iss.crew with
    | some ck => s.eachLane fun s l =>
        let n := f.j.toNat - 168
        if bit ((s.C ck).jr n).enrolled.toNat l.pos then
          (s.modJ n fun r => { r with parked := r.parked ||| BitVec.ofNat 32 (2 ^ l.pos) }).block l.tk (.park n)
        else s
    | none => s

/-- STRIKE (R147). -/
def execStrike (f : RejF) (s : State) : Host.Outcome State Fault Refusal :=
  word (.strike f) s fun s => s.modJ (f.j.toNat - 168) fun r =>
    { enrolled := r.enrolled &&& ~~~s.issueMask, parked := r.parked &&& ~~~s.issueMask }

/-- JMOV (R152): a write tests PARKED as it stands, after what a chain of the same rank did in this cycle (log 51). -/
def execJmov (f : S2F) (s : State) : Host.Outcome State Fault Refusal :=
  word (.jmov f) s fun s => 
    match s.iss.crew with
    | some ck =>
      if isJ f.d then
        let n := f.d.toNat - 168
        if ((s.C ck).jr n).parked ≠ 0 then s.failAll .illegalConvergence 0 0
        else
          let v := s.code f.a s.lowLane.tk
          s.modJ n fun _ => ⟨0, v.setWidth 32⟩
      else
        let r := (s.rC ck).jr (f.a.toNat - 168)
        let v := W (r.parked.toNat * 2 ^ 32 + r.enrolled.toNat)
        if isG f.d then s.eachLane fun s l => s.wrG l.tk (f.d.toNat - 184) v else s.wrUni f.d v
    | none => s

end Sys2Proof.Machine
end

