-- ==== Sys2Proof/Machine/Responses.lean ====
section
/-! DEFINITION. Answers that reach their source (08 R185, 04 R71): data, acknowledgements and refusals, for a thread in its slot, for one in a save area
(17 R366), for a cache, for the host port, for a directory, and for a SPAWN (16 R352). -/

namespace Sys2Proof.Machine
open Sys2Proof

/-- The thread of a core's slot, in either bank, with a transaction outstanding; its banks' number may have changed since it asked. -/
def State.waiter (s : State) (tk id : Nat) : Option Nat :=
  let core := coreOfTk tk
  let n := slotOfTk tk
  let has (k : Nat) : Bool := (s.T k).pend.any (·.id == id) || (s.T k).locks.any (·.id == id)
  [tkOf core 0 n, tkOf core 1 n].find? has

/-- The context whose save area at a core holds the thread that waits for a transaction. -/
def State.savedWaiter (s : State) (core slot id : Nat) : Option Nat :=
  (s.saves.find? fun x => x.1 / 64 == core && x.2.thr.any fun t => t.1 == slot && t.2.pend.any (·.id == id)).map fun x => x.1 % 64

/-- An answer for a thread (R185): in its slot, or in its context's event log (R366). -/
def State.toThread (s : State) (tk id : Nat) (o : ROut) : State :=
  match s.waiter tk id with
  | some k => s.landed k id o
  | none => match s.savedWaiter (coreOfTk tk) (slotOfTk tk) id with
    | some ctx => s.logEvent (coreOfTk tk) ctx (.answer (slotOfTk tk) id o)
    | none => s

/-- An answer to a request: the host port's (R407), an agent's, or a thread's. -/
def State.respond (s : State) (tk id : Nat) (o : ROut) : State :=
  if tk = 2 ^ 31 then s.hostAnswer id o else if tk = agentTk then s.agentAnswer id o else s.toThread tk id o

/-- The answer of a line fill (R253): the line's replica, then the lane. -/
def State.fillDone (s : State) (f : Fill) (o : ROut) (data : Nat) (token : Bool) (key : Nat) : State :=
  let chip := match s.homeAt f.core f.ctx f.lane.ea with
    | some h => h.chip
    | none => s.chip
  (s.fillArrived f o data token key chip).toThread f.lane.tk f.lane.id o

/-- READ_DATA_RESPONSE (R185). -/
def execReadDataResponse (s : State) : Host.Outcome State Fault Refusal :=
  .next (match s.ev with
    | .resp tk id o => s.respond tk id o
    | .fillData f o data token key => s.fillDone f o data token key
    | _ => s)

/-- A SPAWN acknowledged by its kernel's tempo agent (R352): one pawn fewer for which its issuer waits. -/
def State.spawnAcked (s : State) (ctx : Nat) (t : TId) : State :=
  let s : State := { s with spawned := s.spawned.erase (ctx, t) }
  (s.thr.filter fun x => x.2.ctx == ctx && x.2.tid == t).foldl (fun s x => s.recheck x.1) s

/-- ACK_RESPONSE (R71): an acknowledgement with an old value or a refusal, a core's answer to a directory's round (R244), a SPAWN's acknowledgement. -/
def execAckResponse (s : State) : Host.Outcome State Fault Refusal :=
  .next (match s.ev with
    | .resp tk id o => s.respond tk id o
    | .dirAck ctx => s.dirAcked ctx
    | .tnote ctx _ _ _ _ t _ _ => s.spawnAcked ctx t
    | _ => s)

end Sys2Proof.Machine
end

