-- ==== Sys2Proof/Machine/Dispatch.lean ====
section
/-! DEFINITION. The meaning of every constructor of `Instr`: one arm, one call. -/

namespace Sys2Proof.Machine
open Sys2Proof

/-- The meaning of an instruction or event. -/
def exec (i : Instr) (s : State) : Host.Outcome State Fault Refusal :=
  match i with
  | .nop => Sys2Proof.Machine.execNop s
  | .exit => Sys2Proof.Machine.execExit s
  | .yield => Sys2Proof.Machine.execYield s
  | .trapf => Sys2Proof.Machine.execTrapf s
  | .trap f => Sys2Proof.Machine.execTrap f s
  | .sleep f => Sys2Proof.Machine.execSleep f s
  | .snap f => Sys2Proof.Machine.execSnap f s
  | .brk f => Sys2Proof.Machine.execBrk f s
  | .br f => Sys2Proof.Machine.execBr f s
  | .call f => Sys2Proof.Machine.execCall f s
  | .brpT f => Sys2Proof.Machine.execBrpT f s
  | .brpF f => Sys2Proof.Machine.execBrpF f s
  | .brpAny f => Sys2Proof.Machine.execBrpAny f s
  | .brpAll f => Sys2Proof.Machine.execBrpAll f s
  | .brpNone f => Sys2Proof.Machine.execBrpNone f s
  | .jr f => Sys2Proof.Machine.execJr f s
  | .ret f => Sys2Proof.Machine.execRet f s
  | .callr f => Sys2Proof.Machine.execCallr f s
  | .ppush f => Sys2Proof.Machine.execPpush f s
  | .pinv f => Sys2Proof.Machine.execPinv f s
  | .ppop f => Sys2Proof.Machine.execPpop f s
  | .pand f => Sys2Proof.Machine.execPand f s
  | .pget f => Sys2Proof.Machine.execPget f s
  | .pset f => Sys2Proof.Machine.execPset f s
  | .enrol f => Sys2Proof.Machine.execEnrol f s
  | .park f => Sys2Proof.Machine.execPark f s
  | .strike f => Sys2Proof.Machine.execStrike f s
  | .jmov f => Sys2Proof.Machine.execJmov f s
  | .add f => Sys2Proof.Machine.execAdd f s
  | .sub f => Sys2Proof.Machine.execSub f s
  | .mul f => Sys2Proof.Machine.execMul f s
  | .mulh f => Sys2Proof.Machine.execMulh f s
  | .andW f => Sys2Proof.Machine.execAndW f s
  | .orW f => Sys2Proof.Machine.execOrW f s
  | .xorW f => Sys2Proof.Machine.execXorW f s
  | .andn f => Sys2Proof.Machine.execAndn f s
  | .shl f => Sys2Proof.Machine.execShl f s
  | .shr f => Sys2Proof.Machine.execShr f s
  | .sar f => Sys2Proof.Machine.execSar f s
  | .rot f => Sys2Proof.Machine.execRot f s
  | .minW f => Sys2Proof.Machine.execMinW f s
  | .maxW f => Sys2Proof.Machine.execMaxW f s
  | .sel f => Sys2Proof.Machine.execSel f s
  | .addsat f => Sys2Proof.Machine.execAddsat f s
  | .div f => Sys2Proof.Machine.execDiv f s
  | .rem f => Sys2Proof.Machine.execRem f s
  | .mulw f => Sys2Proof.Machine.execMulw f s
  | .absd f => Sys2Proof.Machine.execAbsd f s
  | .clz f => Sys2Proof.Machine.execClz f s
  | .ctz f => Sys2Proof.Machine.execCtz f s
  | .popc f => Sys2Proof.Machine.execPopc f s
  | .brev f => Sys2Proof.Machine.execBrev f s
  | .absW f => Sys2Proof.Machine.execAbsW f s
  | .neg f => Sys2Proof.Machine.execNeg f s
  | .bfx f => Sys2Proof.Machine.execBfx f s
  | .bfi f => Sys2Proof.Machine.execBfi f s
  | .lea f => Sys2Proof.Machine.execLea f s
  | .pack f => Sys2Proof.Machine.execPack f s
  | .unpk f => Sys2Proof.Machine.execUnpk f s
  | .swapb f => Sys2Proof.Machine.execSwapb f s
  | .addi f => Sys2Proof.Machine.execAddi f s
  | .andi f => Sys2Proof.Machine.execAndi f s
  | .ori f => Sys2Proof.Machine.execOri f s
  | .xori f => Sys2Proof.Machine.execXori f s
  | .shli f => Sys2Proof.Machine.execShli f s
  | .shri f => Sys2Proof.Machine.execShri f s
  | .sari f => Sys2Proof.Machine.execSari f s
  | .roti f => Sys2Proof.Machine.execRoti f s
  | .icmp f => Sys2Proof.Machine.execIcmp f s
  | .icmpp f => Sys2Proof.Machine.execIcmpp f s
  | .movz f => Sys2Proof.Machine.execMovz f s
  | .movk f => Sys2Proof.Machine.execMovk f s
  | .movn f => Sys2Proof.Machine.execMovn f s
  | .fadd f => Sys2Proof.Machine.execFadd f s
  | .fsub f => Sys2Proof.Machine.execFsub f s
  | .fmul f => Sys2Proof.Machine.execFmul f s
  | .fmin f => Sys2Proof.Machine.execFmin f s
  | .fmax f => Sys2Proof.Machine.execFmax f s
  | .fminnum f => Sys2Proof.Machine.execFminnum f s
  | .fmaxnum f => Sys2Proof.Machine.execFmaxnum f s
  | .fsgn f => Sys2Proof.Machine.execFsgn f s
  | .fscale f => Sys2Proof.Machine.execFscale f s
  | .fdot2 f => Sys2Proof.Machine.execFdot2 f s
  | .fma f => Sys2Proof.Machine.execFma f s
  | .fnma f => Sys2Proof.Machine.execFnma f s
  | .cvtf f => Sys2Proof.Machine.execCvtf f s
  | .cvtfi f => Sys2Proof.Machine.execCvtfi f s
  | .cvtif f => Sys2Proof.Machine.execCvtif f s
  | .cvtn f => Sys2Proof.Machine.execCvtn f s
  | .cvtw f => Sys2Proof.Machine.execCvtw f s
  | .frnd f => Sys2Proof.Machine.execFrnd f s
  | .frcps f => Sys2Proof.Machine.execFrcps f s
  | .frsqs f => Sys2Proof.Machine.execFrsqs f s
  | .fexp2 f => Sys2Proof.Machine.execFexp2 f s
  | .flog2 f => Sys2Proof.Machine.execFlog2 f s
  | .fsin f => Sys2Proof.Machine.execFsin f s
  | .fcos f => Sys2Proof.Machine.execFcos f s
  | .fcmp f => Sys2Proof.Machine.execFcmp f s
  | .fcmpp f => Sys2Proof.Machine.execFcmpp f s
  | .fclass f => Sys2Proof.Machine.execFclass f s
  | .smov f => Sys2Proof.Machine.execSmov f s
  | .sadd f => Sys2Proof.Machine.execSadd f s
  | .ssub f => Sys2Proof.Machine.execSsub f s
  | .smul f => Sys2Proof.Machine.execSmul f s
  | .sand f => Sys2Proof.Machine.execSand f s
  | .sor f => Sys2Proof.Machine.execSor f s
  | .sxor f => Sys2Proof.Machine.execSxor f s
  | .sshl f => Sys2Proof.Machine.execSshl f s
  | .sshr f => Sys2Proof.Machine.execSshr f s
  | .smin f => Sys2Proof.Machine.execSmin f s
  | .smax f => Sys2Proof.Machine.execSmax f s
  | .sdiv f => Sys2Proof.Machine.execSdiv f s
  | .srdl f => Sys2Proof.Machine.execSrdl f s
  | .sbc f => Sys2Proof.Machine.execSbc f s
  | .smovi f => Sys2Proof.Machine.execSmovi f s
  | .saddi f => Sys2Proof.Machine.execSaddi f s
  | .sandi f => Sys2Proof.Machine.execSandi f s
  | .sori f => Sys2Proof.Machine.execSori f s
  | .sshli f => Sys2Proof.Machine.execSshli f s
  | .sshri f => Sys2Proof.Machine.execSshri f s
  | .mfsr f => Sys2Proof.Machine.execMfsr f s
  | .mtsr f => Sys2Proof.Machine.execMtsr f s
  | .sld f => Sys2Proof.Machine.execSld f s
  | .sst f => Sys2Proof.Machine.execSst f s
  | .shfl f => Sys2Proof.Machine.execShfl f s
  | .shflx f => Sys2Proof.Machine.execShflx f s
  | .shfli f => Sys2Proof.Machine.execShfli f s
  | .bcast f => Sys2Proof.Machine.execBcast f s
  | .redl f => Sys2Proof.Machine.execRedl f s
  | .scanl f => Sys2Proof.Machine.execScanl f s
  | .ballot f => Sys2Proof.Machine.execBallot f s
  | .vany f => Sys2Proof.Machine.execVany f s
  | .vall f => Sys2Proof.Machine.execVall f s
  | .matchL f => Sys2Proof.Machine.execMatchL f s
  | .matchN f => Sys2Proof.Machine.execMatchN f s
  | .popl f => Sys2Proof.Machine.execPopl f s
  | .ld f => Sys2Proof.Machine.execLd f s
  | .ldsx f => Sys2Proof.Machine.execLdsx f s
  | .ldnm f => Sys2Proof.Machine.execLdnm f s
  | .st f => Sys2Proof.Machine.execSt f s
  | .stnm f => Sys2Proof.Machine.execStnm f s
  | .lds f => Sys2Proof.Machine.execLds f s
  | .sts f => Sys2Proof.Machine.execSts f s
  | .ldw f => Sys2Proof.Machine.execLdw f s
  | .stw f => Sys2Proof.Machine.execStw f s
  | .ldfe f => Sys2Proof.Machine.execLdfe f s
  | .stef f => Sys2Proof.Machine.execStef f s
  | .ldff f => Sys2Proof.Machine.execLdff f s
  | .sete f => Sys2Proof.Machine.execSete f s
  | .ldr f => Sys2Proof.Machine.execLdr f s
  | .ldrna f => Sys2Proof.Machine.execLdrna f s
  | .ldp f => Sys2Proof.Machine.execLdp f s
  | .stp f => Sys2Proof.Machine.execStp f s
  | .atomAdd f => Sys2Proof.Machine.execAtomAdd f s
  | .atomFadd f => Sys2Proof.Machine.execAtomFadd f s
  | .atomMin f => Sys2Proof.Machine.execAtomMin f s
  | .atomMax f => Sys2Proof.Machine.execAtomMax f s
  | .atomAnd f => Sys2Proof.Machine.execAtomAnd f s
  | .atomOr f => Sys2Proof.Machine.execAtomOr f s
  | .atomXor f => Sys2Proof.Machine.execAtomXor f s
  | .atomXchg f => Sys2Proof.Machine.execAtomXchg f s
  | .atomCas f => Sys2Proof.Machine.execAtomCas f s
  | .atomInc f => Sys2Proof.Machine.execAtomInc f s
  | .atomDec f => Sys2Proof.Machine.execAtomDec f s
  | .atomFmin f => Sys2Proof.Machine.execAtomFmin f s
  | .atomFmax f => Sys2Proof.Machine.execAtomFmax f s
  | .atomFaddComb f => Sys2Proof.Machine.execAtomFaddComb f s
  | .redAdd f => Sys2Proof.Machine.execRedAdd f s
  | .redFadd f => Sys2Proof.Machine.execRedFadd f s
  | .redMin f => Sys2Proof.Machine.execRedMin f s
  | .redMax f => Sys2Proof.Machine.execRedMax f s
  | .redAnd f => Sys2Proof.Machine.execRedAnd f s
  | .redOr f => Sys2Proof.Machine.execRedOr f s
  | .redXor f => Sys2Proof.Machine.execRedXor f s
  | .redInc f => Sys2Proof.Machine.execRedInc f s
  | .redDec f => Sys2Proof.Machine.execRedDec f s
  | .redFmin f => Sys2Proof.Machine.execRedFmin f s
  | .redFmax f => Sys2Proof.Machine.execRedFmax f s
  | .redFaddComb f => Sys2Proof.Machine.execRedFaddComb f s
  | .migr f => Sys2Proof.Machine.execMigr f s
  | .spawn f => Sys2Proof.Machine.execSpawn f s
  | .homeq f => Sys2Proof.Machine.execHomeq f s
  | .fence f => Sys2Proof.Machine.execFence f s
  | .seal f => Sys2Proof.Machine.execSeal f s
  | .unseal f => Sys2Proof.Machine.execUnseal f s
  | .waitw f => Sys2Proof.Machine.execWaitw f s
  | .send f => Sys2Proof.Machine.execSend f s
  | .recvp f => Sys2Proof.Machine.execRecvp f s
  | .recvw f => Sys2Proof.Machine.execRecvw f s
  | .recvwTest f => Sys2Proof.Machine.execRecvwTest f s
  | .probe f => Sys2Proof.Machine.execProbe f s
  | .mma f => Sys2Proof.Machine.execMma f s
  | .mmamCausal f => Sys2Proof.Machine.execMmamCausal f s
  | .mmamTree f => Sys2Proof.Machine.execMmamTree f s
  | .accz f => Sys2Proof.Machine.execAccz f s
  | .accrd f => Sys2Proof.Machine.execAccrd f s
  | .accwr f => Sys2Proof.Machine.execAccwr f s
  | .wbld f => Sys2Proof.Machine.execWbld f s
  | .wbdrop f => Sys2Proof.Machine.execWbdrop f s
  | .tmset f => Sys2Proof.Machine.execTmset f s
  | .mwait f => Sys2Proof.Machine.execMwait f s
  | .mwaitThru f => Sys2Proof.Machine.execMwaitThru f s
  | .post f => Sys2Proof.Machine.execPost f s
  | .tcopy f => Sys2Proof.Machine.execTcopy f s
  | .layout f => Sys2Proof.Machine.execLayout f s
  | .mcast f => Sys2Proof.Machine.execMcast f s
  | .cpoll f => Sys2Proof.Machine.execCpoll f s
  | .cwait f => Sys2Proof.Machine.execCwait f s
  | .qpop f => Sys2Proof.Machine.execQpop f s
  | .qfree f => Sys2Proof.Machine.execQfree f s
  | .bar f => Sys2Proof.Machine.execBar f s
  | .bara f => Sys2Proof.Machine.execBara f s
  | .barw f => Sys2Proof.Machine.execBarw f s
  | .bexp f => Sys2Proof.Machine.execBexp f s
  | .barb f => Sys2Proof.Machine.execBarb f s
  | .tempo f => Sys2Proof.Machine.execTempo f s
  | .tempoOr f => Sys2Proof.Machine.execTempoOr f s
  | .gqry f => Sys2Proof.Machine.execGqry f s
  | .wopen f => Sys2Proof.Machine.execWopen f s
  | .wdet f => Sys2Proof.Machine.execWdet f s
  | .tret f => Sys2Proof.Machine.execTret f s
  | .xflt f => Sys2Proof.Machine.execXflt f s
  | .replay f => Sys2Proof.Machine.execReplay f s
  | .pinval f => Sys2Proof.Machine.execPinval f s
  | .dropr f => Sys2Proof.Machine.execDropr f s
  | .ctxsw f => Sys2Proof.Machine.execCtxsw f s
  | .halt => Sys2Proof.Machine.execHalt s
  | .prefixArith f => Sys2Proof.Machine.execPrefixArith f s
  | .prefixMemory f => Sys2Proof.Machine.execPrefixMemory f s
  | .trapvSeth f => Sys2Proof.Machine.execTrapvSeth f s
  | .trapvView f => Sys2Proof.Machine.execTrapvView f s
  | .trapvSetpc f => Sys2Proof.Machine.execTrapvSetpc f s
  | .trapvRet => Sys2Proof.Machine.execTrapvRet s
  | .lookaheadResultDelivery => Sys2Proof.Machine.execLookaheadResultDelivery s
  | .takeTrap => Sys2Proof.Machine.execTakeTrap s
  | .knightDeparture => Sys2Proof.Machine.execKnightDeparture s
  | .knightArrival => Sys2Proof.Machine.execKnightArrival s
  | .overflowRecordReload => Sys2Proof.Machine.execOverflowRecordReload s
  | .spawnMessageSend => Sys2Proof.Machine.execSpawnMessageSend s
  | .spawnRecordArrival => Sys2Proof.Machine.execSpawnRecordArrival s
  | .exitDrainComplete => Sys2Proof.Machine.execExitDrainComplete s
  | .sleepDeadline => Sys2Proof.Machine.execSleepDeadline s
  | .feWaitingAccess => Sys2Proof.Machine.execFeWaitingAccess s
  | .permissionProbe => Sys2Proof.Machine.execPermissionProbe s
  | .permissionProbeReply => Sys2Proof.Machine.execPermissionProbeReply s
  | .remoteRead => Sys2Proof.Machine.execRemoteRead s
  | .lineFill => Sys2Proof.Machine.execLineFill s
  | .windowRead => Sys2Proof.Machine.execWindowRead s
  | .readDataResponse => Sys2Proof.Machine.execReadDataResponse s
  | .writeRequest => Sys2Proof.Machine.execWriteRequest s
  | .windowWrite => Sys2Proof.Machine.execWindowWrite s
  | .atomicRequest => Sys2Proof.Machine.execAtomicRequest s
  | .watchRequest => Sys2Proof.Machine.execWatchRequest s
  | .ackResponse => Sys2Proof.Machine.execAckResponse s
  | .sideLogRegistration => Sys2Proof.Machine.execSideLogRegistration s
  | .logpendSet => Sys2Proof.Machine.execLogpendSet s
  | .logpendClear => Sys2Proof.Machine.execLogpendClear s
  | .directoryQuery => Sys2Proof.Machine.execDirectoryQuery s
  | .directoryQueryReply => Sys2Proof.Machine.execDirectoryQueryReply s
  | .sealAtHome => Sys2Proof.Machine.execSealAtHome s
  | .unsealAtHome => Sys2Proof.Machine.execUnsealAtHome s
  | .sealAnswer => Sys2Proof.Machine.execSealAnswer s
  | .recall => Sys2Proof.Machine.execRecall s
  | .tokenReturn => Sys2Proof.Machine.execTokenReturn s
  | .pageGive => Sys2Proof.Machine.execPageGive s
  | .mapFrame => Sys2Proof.Machine.execMapFrame s
  | .unmapFrame => Sys2Proof.Machine.execUnmapFrame s
  | .pageWithdraw => Sys2Proof.Machine.execPageWithdraw s
  | .placementTableInstall => Sys2Proof.Machine.execPlacementTableInstall s
  | .homeChangeForward => Sys2Proof.Machine.execHomeChangeForward s
  | .drainMarkerSend => Sys2Proof.Machine.execDrainMarkerSend s
  | .homeChangeMarker => Sys2Proof.Machine.execHomeChangeMarker s
  | .tierMoveStart => Sys2Proof.Machine.execTierMoveStart s
  | .tierMoveLineCopy => Sys2Proof.Machine.execTierMoveLineCopy s
  | .matrixOpAccept => Sys2Proof.Machine.execMatrixOpAccept s
  | .matrixOpGrant => Sys2Proof.Machine.execMatrixOpGrant s
  | .matrixOpComplete => Sys2Proof.Machine.execMatrixOpComplete s
  | .queueCreate => Sys2Proof.Machine.execQueueCreate s
  | .queuePause => Sys2Proof.Machine.execQueuePause s
  | .queueResume => Sys2Proof.Machine.execQueueResume s
  | .queueReset => Sys2Proof.Machine.execQueueReset s
  | .queueDestroy => Sys2Proof.Machine.execQueueDestroy s
  | .queueNotice => Sys2Proof.Machine.execQueueNotice s
  | .packetConsume => Sys2Proof.Machine.execPacketConsume s
  | .nodeComplete => Sys2Proof.Machine.execNodeComplete s
  | .completionRecordWrite => Sys2Proof.Machine.execCompletionRecordWrite s
  | .ringRegister => Sys2Proof.Machine.execRingRegister s
  | .postPublish => Sys2Proof.Machine.execPostPublish s
  | .cwaitTimeout => Sys2Proof.Machine.execCwaitTimeout s
  | .engineJobAccept => Sys2Proof.Machine.execEngineJobAccept s
  | .engineJobStart => Sys2Proof.Machine.execEngineJobStart s
  | .engineGranule => Sys2Proof.Machine.execEngineGranule s
  | .engineJobEnd => Sys2Proof.Machine.execEngineJobEnd s
  | .stagingGrantWithdraw => Sys2Proof.Machine.execStagingGrantWithdraw s
  | .distributionStart => Sys2Proof.Machine.execDistributionStart s
  | .crewPlacement => Sys2Proof.Machine.execCrewPlacement s
  | .crewStart => Sys2Proof.Machine.execCrewStart s
  | .bindFill => Sys2Proof.Machine.execBindFill s
  | .roamingThreadCreate => Sys2Proof.Machine.execRoamingThreadCreate s
  | .stealRequest => Sys2Proof.Machine.execStealRequest s
  | .stealReply => Sys2Proof.Machine.execStealReply s
  | .crewRetire => Sys2Proof.Machine.execCrewRetire s
  | .kernelEntryClear => Sys2Proof.Machine.execKernelEntryClear s
  | .groupEntryWrite => Sys2Proof.Machine.execGroupEntryWrite s
  | .gangReserve => Sys2Proof.Machine.execGangReserve s
  | .gangReserveAnswer => Sys2Proof.Machine.execGangReserveAnswer s
  | .gangCommit => Sys2Proof.Machine.execGangCommit s
  | .gangRelease => Sys2Proof.Machine.execGangRelease s
  | .windowOpen => Sys2Proof.Machine.execWindowOpen s
  | .windowDeparture => Sys2Proof.Machine.execWindowDeparture s
  | .windowOpenReply => Sys2Proof.Machine.execWindowOpenReply s
  | .barrierArrival => Sys2Proof.Machine.execBarrierArrival s
  | .barrierRelease => Sys2Proof.Machine.execBarrierRelease s
  | .tempoArrival => Sys2Proof.Machine.execTempoArrival s
  | .tempoRelease => Sys2Proof.Machine.execTempoRelease s
  | .tempoPark => Sys2Proof.Machine.execTempoPark s
  | .contextCreate => Sys2Proof.Machine.execContextCreate s
  | .contextStart => Sys2Proof.Machine.execContextStart s
  | .contextStop => Sys2Proof.Machine.execContextStop s
  | .contextResume => Sys2Proof.Machine.execContextResume s
  | .contextDestroy => Sys2Proof.Machine.execContextDestroy s
  | .teardown => Sys2Proof.Machine.execTeardown s
  | .flushMarker => Sys2Proof.Machine.execFlushMarker s
  | .teardownComplete => Sys2Proof.Machine.execTeardownComplete s
  | .partitionWrite => Sys2Proof.Machine.execPartitionWrite s
  | .apertureMap => Sys2Proof.Machine.execApertureMap s
  | .sendMatrixWrite => Sys2Proof.Machine.execSendMatrixWrite s
  | .schedulerDecision => Sys2Proof.Machine.execSchedulerDecision s
  | .quantumExpiry => Sys2Proof.Machine.execQuantumExpiry s
  | .castlingComplete => Sys2Proof.Machine.execCastlingComplete s
  | .spillStart => Sys2Proof.Machine.execSpillStart s
  | .spillComplete => Sys2Proof.Machine.execSpillComplete s
  | .fillComplete => Sys2Proof.Machine.execFillComplete s
  | .castlingCoordination => Sys2Proof.Machine.execCastlingCoordination s
  | .faultRecordWrite => Sys2Proof.Machine.execFaultRecordWrite s
  | .firmwareRequest => Sys2Proof.Machine.execFirmwareRequest s
  | .frameRoute => Sys2Proof.Machine.execFrameRoute s
  | .uetPacketSend => Sys2Proof.Machine.execUetPacketSend s
  | .uetPacketReceive => Sys2Proof.Machine.execUetPacketReceive s
  | .portUnreachable => Sys2Proof.Machine.execPortUnreachable s
  | .chipTableWrite => Sys2Proof.Machine.execChipTableWrite s
  | .hostBar2Access => Sys2Proof.Machine.execHostBar2Access s
  | .linkEnable => Sys2Proof.Machine.execLinkEnable s
  | .linkDisable => Sys2Proof.Machine.execLinkDisable s
  | .linkTrained => Sys2Proof.Machine.execLinkTrained s
  | .linkTrainingFailed => Sys2Proof.Machine.execLinkTrainingFailed s
  | .linkRetrain => Sys2Proof.Machine.execLinkRetrain s
  | .linkRetryRequest => Sys2Proof.Machine.execLinkRetryRequest s
  | .messageArrival => Sys2Proof.Machine.execMessageArrival s
  | .messageFillComplete => Sys2Proof.Machine.execMessageFillComplete s
  | .mreplyArrival => Sys2Proof.Machine.execMreplyArrival s
  | .sensorReading => Sys2Proof.Machine.execSensorReading s
  | .bandChangeBlock => Sys2Proof.Machine.execBandChangeBlock s
  | .band3Entry => Sys2Proof.Machine.execBand3Entry s
  | .band3Exit => Sys2Proof.Machine.execBand3Exit s
  | .coolDownRequest => Sys2Proof.Machine.execCoolDownRequest s
  | .warmUpRequest => Sys2Proof.Machine.execWarmUpRequest s
  | .coldSettleDone => Sys2Proof.Machine.execColdSettleDone s
  | .recalibrationHold => Sys2Proof.Machine.execRecalibrationHold s
  | .levelLow => Sys2Proof.Machine.execLevelLow s
  | .scrubLine => Sys2Proof.Machine.execScrubLine s
  | .scrubLate => Sys2Proof.Machine.execScrubLate s
  | .ownerRecordWrite => Sys2Proof.Machine.execOwnerRecordWrite s
  | .resourceRetire => Sys2Proof.Machine.execResourceRetire s
  | .deviceReset => Sys2Proof.Machine.execDeviceReset s
  | .fuseBlowRequest => Sys2Proof.Machine.execFuseBlowRequest s
  | .attestationRequest => Sys2Proof.Machine.execAttestationRequest s
  | .snapshotRequest => Sys2Proof.Machine.execSnapshotRequest s
  | .snapshotTriggerArrival => Sys2Proof.Machine.execSnapshotTriggerArrival s
  | .captureRead => Sys2Proof.Machine.execCaptureRead s
  | .faultLogRead => Sys2Proof.Machine.execFaultLogRead s
  | .illegalInstr => Sys2Proof.Machine.execIllegalInstr s
  | .fetchFault => Sys2Proof.Machine.execFetchFault s
  | .barrierReleaseAck => Sys2Proof.Machine.execBarrierReleaseAck s
  | .barrierMemberDeparture => Sys2Proof.Machine.execBarrierMemberDeparture s
  | .tempoParticipantNotice => Sys2Proof.Machine.execTempoParticipantNotice s
  | .pcieCompletion => Sys2Proof.Machine.execPcieCompletion s
  | .uetRetransmit => Sys2Proof.Machine.execUetRetransmit s
  | .linkCrcError => Sys2Proof.Machine.execLinkCrcError s
  | .portReachable => Sys2Proof.Machine.execPortReachable s
  | .snapshotCaptureComplete => Sys2Proof.Machine.execSnapshotCaptureComplete s

end Sys2Proof.Machine
end

