-- ==== Sys2Proof/Machine/Chain.lean ====
section
/-! DEFINITION. A core's cycle: bins and ranks (04 R79-R81), the issue of a chain (03 R57), deliveries, waiting full/empty accesses and
sleep deadlines. -/

namespace Sys2Proof.Machine
open Sys2Proof

/-! ### One chain -/

/-- The words of a chain executed in their order. -/
def runWords : Nat → List Instr → State → Host.Outcome State Fault Refusal
  | _, [], s => .next s
  | k, i :: r, s =>
    match exec i { s with iss := { s.iss with wpc := s.iss.pc + BitVec.ofNat 56 (4 * k), widx := k } } with
    | .next s' => runWords (k + 1) r s'
    | .fault f => .fault f
    | .refused f => .refused f

/-- The chain starts in its lanes: each thread's next chain head is the one that follows (R42), its wait under R81 begins anew. -/
def State.startChain (s : State) (n : Nat) : State :=
  let next := s.iss.pc + BitVec.ofNat 56 (4 * n)
  let s : State := { s with iss := { s.iss with next := next, pfx := .none, drops := [] } }
  s.eachLane fun s l => s.modT l.tk fun t => { t with pc := next, readyAt := s.clockOf s.iss.core + 1, fresh := none, got := [] }

/-- The windows of the locks that the lanes held before a chain shrink by its words (R56). -/
def State.shrink (s : State) (before : Tab Thr) (lanes : List LaneRef) (n : Nat) : State :=
  lanes.foldl (fun s l =>
    let old := (((Tab.get? before l.tk).map (·.locks)).getD []).map (·.id)
    s.modT l.tk fun t => { t with locks := t.locks.map fun k => if old.contains k.id then { k with left := k.left - n } else k }) s

/-- A chain issued for the lanes of `iss` (R57): lanes that a word's issue-time cause stops leave it, and the chain acts in the others as if
they had not been there. The number bounds how often lanes leave. -/
def issueChain : Nat → State → Host.Outcome State Fault Refusal
  | 0, s => .next s
  | fuel + 1, s =>
    let s := s.headChecks
    if s.iss.lanes = [] then .next s else
    match s.chainHere with
    | .stop _ _ => exec .fetchFault s
    | .ok ws =>
      if !s.chainHead s.iss.core s.iss.ctx s.lowLane.tk s.iss.pc.toNat || chainBad (s.iss.pc.toNat / 4 % 3) ws then .next (s.failAll .illegalChain 0 0)
      else
        let ds := decodeChain ws
        match s.staticFirst ds with
        | some (k, c) =>
          let s : State := { s with iss := { s.iss with widx := k } }
          if ds.getD k none = none then exec .illegalInstr s else .next (s.failAll c 0 0)
        | none =>
          let is := ds.filterMap id
          let s := (s.windowChecks is).constChecks is
          if s.iss.lanes = [] then .next s else
          match runWords 0 is (s.startChain ws.length) with
          | .next s' =>
            if s'.iss.drops = [] then .next (s'.shrink s.thr s.iss.lanes (is.filter fun i => i.major != 63).length)
            else
              let ds := s'.iss.drops
              let s := ds.foldl (fun s d => s.applyDrop d.1 d.2) s
              issueChain fuel { s with iss := { s.iss with lanes := s.iss.lanes.filter fun l => !ds.any (·.1 == l) } }
          | x => x

/-! ### Bins and ranks (R79, R80) -/

/-- A bin: its crew, context and chain head, and its READY threads. -/
structure Bin where
  crew : Option Nat
  ctx : Nat
  pc : Nat
  ths : List Nat
  deriving DecidableEq, Repr

/-- A thread in its bin. -/
def addBin (crew : Option Nat) (ctx pc tk : Nat) : List Bin → List Bin
  | [] => [⟨crew, ctx, pc, [tk]⟩]
  | b :: r => if b.crew = crew ∧ b.pc = pc ∧ b.ctx = ctx then { b with ths := b.ths ++ [tk] } :: r else b :: addBin crew ctx pc tk r

/-- Whether a thread of a core may be chosen in this cycle. -/
def State.issuable (s : State) (core tk : Nat) (t : Thr) : Bool :=
  coreOfTk tk == core && t.st == .ready && bankOfTk tk == (s.core core).active && decide (t.noIssue ≤ s.clockOf core)
    && (t.fw || s.ctxActive core t.ctx)

/-- The bins of a core. -/
def State.bins (s : State) (core : Nat) : List Bin :=
  s.thr.foldl (fun bs x =>
    if s.issuable core x.1 x.2 then
      addBin (if x.2.kind = 2 then some (ckOfTk x.1) else none) x.2.ctx (s.nextHead x.1) x.1 bs
    else bs) []

/-- Whether a bin's chain has an L word, which the cycle after an f64 word cannot carry (R131). -/
def State.binHasL (s : State) (core : Nat) (b : Bin) : Bool :=
  match s.chainFrom core b.ctx (b.ths.headD 0) 3 b.pc with
  | .ok ws => ws.any fun w => pipeOf (majorOf w) == some 0
  | .stop _ _ => false

/-- The age of a bin (R79). -/
def State.age (s : State) (core : Nat) (b : Bin) : Nat :=
  b.ths.foldl (fun m tk => max m (s.clockOf core - (s.T tk).readyAt)) 0
/-- The population of a bin (R79). -/
def Bin.pop (b : Bin) : Nat := min 32 b.ths.length
/-- The first slot of a bin (R80). -/
def Bin.firstSlot (b : Bin) : Nat :=
  match b.crew with
  | some ck => ck % 16 * 32
  | none => b.ths.foldl (fun m tk => min m (slotOfTk tk)) 512

/-- Whether a bin is picked before another: by age when starved bins are compared, else by population; ties per R80. -/
def State.before (s : State) (core : Nat) (starved : Bool) (a b : Bin) : Bool :=
  let ka := if starved then s.age core a else a.pop
  let kb := if starved then s.age core b else b.pop
  if ka ≠ kb then decide (kb < ka)
  else if s.age core a ≠ s.age core b then decide (s.age core b < s.age core a)
  else if a.pc ≠ b.pc then decide (a.pc < b.pc)
  else decide (a.firstSlot < b.firstSlot)

/-- The pick among some bins (R80). -/
def State.pick (s : State) (core : Nat) (bs : List Bin) : Option Bin :=
  let st := bs.filter fun b => decide (64 ≤ s.age core b)
  let (starved, c) := if st = [] then (false, bs) else (true, st)
  match c with
  | [] => none
  | b :: r => some (r.foldl (fun m x => if s.before core starved x m then x else m) b)

/-- The threads of a bin, oldest first; of equally old ones the lowest slot (log 51). -/
def State.oldest (s : State) (ths : List Nat) : List Nat :=
  isort (fun a b => decide ((s.T a).readyAt < (s.T b).readyAt) || ((s.T a).readyAt == (s.T b).readyAt && decide (a ≤ b))) ths

/-- Lane positions (R80): a crew's lanes keep their own, roaming threads take ascending ones from `base`. -/
def lanesOf (b : Bin) (ths : List Nat) (base : Nat) : List LaneRef :=
  match b.crew with
  | some _ => (isort (fun a b => decide (a ≤ b)) ths).map fun tk => ⟨tk, slotOfTk tk % 32⟩
  | none => (isort (fun a b => decide (a ≤ b)) ths).mapIdx fun i tk => ⟨tk, base + i⟩

/-- One bin's chain issued; every word reads what the rank found (R142). -/
def issueBin (core : Nat) (pre : Tab Thr × Tab Crew) (b : Bin) (lanes : List LaneRef) (s : State) : Host.Outcome State Fault Refusal :=
  let pc := BitVec.ofNat 56 b.pc
  issueChain 33 { s with iss := { core := core, ctx := b.ctx, crew := b.crew, lanes := lanes, pc := pc, wpc := pc, next := pc, widx := 0
                                  pre := some pre, banks := s.iss.banks, loads := s.iss.loads, draws := [], pfx := .none, drops := [] } }

/-- The end of a rank: a core whose chain held SNAP latches (R93), rejoin release in the crew that issued (R142, R150). -/
def State.endRank (s : State) (b : Bin) : State :=
  let s : State := { s with iss := Issue.blank }
  let s := s.snapHere
  match b.crew with
  | some ck => s.rejoinTest ck
  | none => s

/-- One rank (R80): at most two bins, the second compatible with the first. -/
def issueRank (core : Nat) (s : State) : Host.Outcome State Fault Refusal :=
  let bs := s.bins core
  let bs := if (s.core core).lBusy = s.clockOf core then bs.filter fun b => !s.binHasL core b else bs
  match s.pick core bs with
  | none => .next s
  | some b1 =>
    let t1 := (s.oldest b1.ths).take 32
    let rest := bs.filter fun b => b != b1 && (match b1.crew with | some ck => b.crew == some ck | none => b.crew.isNone)
    let pre := (s.thr, s.crews)
    match issueBin core pre b1 (lanesOf b1 t1 0) s with
    | .next s1 =>
      match (if t1.length < 32 then s.pick core rest else none) with
      | none => .next (s1.endRank b1)
      | some b2 =>
        let t2 := (s.oldest b2.ths).take (32 - t1.length)
        match issueBin core pre b2 (lanesOf b2 t2 t1.length) s1 with
        | .next s2 => .next (s2.endRank b1)
        | x => x
    | x => x

/-! ### A cycle -/

/-- The end of a core's cycle: results of fixed latency are delivered (R56) and each bank serves one waiting access (R203). -/
def State.endCycle (s : State) (core : Nat) : State :=
  let now := s.clockOf core
  let due := s.thr.flatMap fun x => if coreOfTk x.1 = core then
      x.2.locks.filterMap fun k => match k.due with
        | some d => if d ≤ now then some (x.1, k.id) else none
        | none => none
    else []
  let s := due.foldl (fun s x => s.deliverDue x.1 x.2) s
  (List.range 32).foldl (fun s b => s.feWaiting core b) s

/-- The deadlines of a core's threads: SLEEP (R92), CWAIT (R296). -/
def State.deadlines (s : State) (core : Nat) : State :=
  (s.thr.filter fun x => coreOfTk x.1 == core && (x.2.wait == .sleep || x.2.wait == .cwait)).foldl
    (fun s x => if x.2.wait = .sleep then s.sleepOver x.1 else s.pollTimeout x.1) s

/-- What a core's banks do in a cycle: a castling, spill or fill that is over ends, and the scheduler decides (R363-R365). -/
def State.residency (s : State) (core : Nat) : State := (((s.castleEnd core).spillEnd core).fillEnd core).schedule core

/-- The start of a core's next cycle: CLOCK advances (R423), deadlines are met, the scheduler decides. -/
def State.nextCycle (s : State) (core : Nat) : State :=
  let s := s.modCore core fun c => { c with clock := c.clock + 1 }
  let s : State := if core = Config.mgmtCore then { s with ncyc := s.ncyc + 1 } else s
  (s.deadlines core).residency core

/-- One cycle of a core: no issue in the pause of a band change (R426), nor while cores are stopped (R424, R427). -/
def coreCycle (core : Nat) (s : State) : Host.Outcome State Fault Refusal :=
  let s := (s.endCycle core).nextCycle core
  if 0 < (s.core core).pause then .next (s.modCore core fun c => { c with pause := c.pause - 1 })
  else if s.dev.stopped && core != Config.mgmtCore then .next s
  else issueRank core s

/-- One cycle of cores, one after another. -/
def coreCycles : List Nat → State → Host.Outcome State Fault Refusal
  | [], s => .next s
  | c :: r, s => match coreCycle c s with
    | .next s' => coreCycles r s'
    | x => x

/-- The cores of a cluster that are not retired. -/
def State.coresIn (s : State) (cl : Nat) : List Nat := ((List.range 4).map (4 * cl + ·)).filter fun c => !(s.core c).retired

/-- One cycle of the cluster that begins with a core: its cores, then, after their ranks (R176), its matrix engine; or one of the management core. The
cores and the engine of a cluster share one clock, so they advance together (log 44). -/
def cycle (core : Nat) (s : State) : Host.Outcome State Fault Refusal :=
  if core = Config.mgmtCore then coreCycle core s
  else match coreCycles (s.coresIn (core / 4)) s with
    | .next s' => .next (s'.mxCycle (core / 4))
    | x => x

end Sys2Proof.Machine
end

