-- ==== Sys2Proof/Machine/Inputs.lean ====
section
/-! DEFINITION. What comes from outside the package (01 R15, 17 R455, 19 R403-R407, 20): which events the inbox may hold, and with which numbers. The
outside is the host driver, Nyend's own records, the host port, other chips, the bath and the links. -/

namespace Sys2Proof.Machine
open Sys2Proof

/-- Whether a page key names a home core of this package. -/
def keyOk (key : Nat) : Bool := decide (ctxOfKey key < 32 ∧ coreOfKey key < 384)

/-- The frames of a tier at a home (R169, R170, R236): 704 of HBM4, 40,960 of LPDDR-6; host frames by address. -/
def frameOk (tier frame : Nat) : Bool := decide (frame < (if tier = 0 then 704 else if tier = 1 then 40960 else 2 ^ 40))

/-- Whether a table has at most 64 entries of 128 bytes (R165). -/
def tabOk (t : List Nat) : Bool := decide (t.length ≤ 64) && t.all fun n => decide (n < 2 ^ 1024)

/-- Whether the pages of a home change are a context's, with frames of their tiers; the new home takes the page in its own page size (R256, R257). -/
def chgOk (ctx : Nat) (c : HChg) : Bool :=
  keyOk c.okey && keyOk c.nkey && decide (ctxOfKey c.okey = ctx ∧ ctxOfKey c.nkey = ctx ∧ tierOfKey c.nkey = tierOfKey c.okey ∧ tierOfKey c.okey < 3)
    && decide (c.ochip < 2 ^ 16 ∧ c.nchip < 2 ^ 16) && frameOk (tierOfKey c.nkey) c.frame

/-- The events that a frame of another chip brings (R394, R405). -/
def isNetEvent (i : Instr) : Bool :=
  match i with
  | .knightArrival | .spawnRecordArrival | .permissionProbe | .permissionProbeReply | .remoteRead | .lineFill | .windowRead | .readDataResponse
  | .writeRequest | .windowWrite | .atomicRequest | .watchRequest | .ackResponse | .sideLogRegistration | .logpendSet | .logpendClear
  | .directoryQuery | .directoryQueryReply | .sealAtHome | .unsealAtHome | .sealAnswer | .recall | .tokenReturn | .homeChangeForward
  | .homeChangeMarker | .queueNotice | .nodeComplete | .distributionStart | .stealRequest | .stealReply | .kernelEntryClear | .gangReserve
  | .gangReserveAnswer | .gangCommit | .gangRelease | .windowOpen | .windowDeparture | .windowOpenReply | .barrierArrival | .barrierRelease
  | .barrierReleaseAck | .barrierMemberDeparture | .tempoArrival | .tempoRelease | .tempoParticipantNotice | .castlingCoordination
  | .faultRecordWrite | .firmwareRequest | .messageArrival | .mreplyArrival | .completionRecordWrite | .postPublish | .engineJobStart | .engineGranule
  | .pcieCompletion => true
  | _ => false

/-- Whether a frame of another chip may carry an event: one of those, a part of an install at another chip (R256, R319), or a queue's creation at its WIDX's
chip (R282). -/
def netOk (e : Ev) : Bool :=
  match e.i, e.a with
  | .placementTableInstall, .n3 _ _ _ | .placementTableInstall, .n4 _ _ _ _ | .placementTableInstall, .kent _ _ _ | .queueCreate, .n3 _ _ _
  | .queueCreate, .n4 _ _ _ _ => true
  | .engineJobStart, .nats _ | .engineGranule, .nats _ | .pcieCompletion, .flush _ _ _ => true
  | .engineJobStart, _ | .engineGranule, _ | .pcieCompletion, _ => false
  | i, _ => isNetEvent i

/-- A request to create a context (R360): its header, table, groups and grants have numbers of their widths. -/
def cnewOk (c : Ctx) (tab : List Nat) (sg : List (Nat × Nat × Nat × Nat)) (wg : List (Nat × Nat × Nat)) : Bool :=
  c.st == .free && c.prev == [] && c.late == [] && c.lateChips == [] && c.ptab == [] && tabOk tab
    && decide (c.part < 16 ∧ c.resv < 16 ∧ c.fqbase < 2 ^ 56 ∧ c.fqlog2 < 32)
    && sg.all (fun g => decide (g.1 < 16 ∧ g.2.1 < 128 ∧ g.2.2.1 < 8 ∧ g.2.2.2 < 16))
    && wg.all (fun g => decide (g.1 < 96 ∧ g.2.1 < 64 ∧ g.2.2 < 128))

/-- Whether a page key counts pages in the size of its region (R236, R237). -/
def State.keySized (s : State) (key : Nat) : Bool := ((s.ctx (ctxOfKey key)).ptab[regionOfKey key]?.map (·.tier)) == some (tierOfKey key)

/-- Whether an event may come from outside, with numbers that name something. -/
def inputOk (s : State) (e : Ev) : Bool :=
  match e.i with
  | .contextCreate => (match e.a with | .cnew c tab _ sg wg => cnewOk c tab sg wg | _ => false)
  | .contextStart | .contextStop | .contextResume | .contextDestroy => (match e.a with | .n1 c => decide (c < 32) | _ => false)
  | .partitionWrite => (match e.a with | .part _ p => decide (p.clmask < 2 ^ 96) | _ => false)
  | .apertureMap => (match e.a with | .aper _ a => decide (a.ctx < 32 ∧ a.base < 2 ^ 56) | _ => false)
  | .queueCreate => (match e.a with | .n2 c d => decide (c < 32 ∧ d < 2 ^ 64) | _ => false)
  | .queuePause | .queueResume | .queueReset | .queueDestroy => (match e.a with | .n2 c q => decide (c < 32 ∧ q < 64) | _ => false)
  | .ringRegister => (match e.a with | .n4 c n hd caddr => decide (c < 32 ∧ n < 64 ∧ hd < 2 ^ 64 ∧ caddr < 2 ^ 64) | _ => false)
  | .groupEntryWrite => (match e.a with | .gent c _ _ => decide (c < 32) | _ => false)
  | .placementTableInstall => (match e.a with
    | .install c tab chg => decide (c < 32) && tabOk tab && chg.all (chgOk c)
    | _ => false)
  | .pageGive => (match e.a with | .give k _ => keyOk k && decide ((s.ctx (ctxOfKey k)).st ≠ .free) && s.keySized k | _ => false)
  | .mapFrame => (match e.a with | .n2 k f => keyOk k && frameOk (tierOfKey k) f | _ => false)
  | .unmapFrame | .pageWithdraw => (match e.a with | .n1 k => keyOk k && (s.pages.get? k).isSome | _ => false)
  | .tierMoveStart => (match e.a with | .tier k n fs => keyOk k && decide (n < 3) && fs.all (frameOk n) | _ => false)
  | .ownerRecordWrite => (match e.a with | .n3 k _ _ => keyOk k | _ => false)
  | .coolDownRequest | .warmUpRequest | .fuseBlowRequest | .coldSettleDone | .levelLow => e.a == .none
  | .attestationRequest | .snapshotRequest => (match e.a with | .n1 _ => true | _ => false)
  | .captureRead => (match e.a with | .n3 _ _ _ => true | _ => false)
  | .faultLogRead => (match e.a with | .n1 _ => true | _ => false)
  | .sendMatrixWrite => (match e.a with | .n3 a b _ => decide (a < 32 ∧ b < 32) | _ => false)
  | .stagingGrantWithdraw => (match e.a with | .n2 c n => decide (c < 32 ∧ n < 16) | _ => false)
  | .hostBar2Access => (match e.a with | .host h => decide (h.op ≤ 4 ∧ h.ofs < 2 ^ 36 ∧ 1 ≤ h.size ∧ h.size ≤ 16) | _ => false)
  | .resourceRetire => (match e.a with
    | .n2 k n => decide (k < 4) && decide (n < (if k ≤ 1 then 384 else if k = 2 then 17 else 4))
    | _ => false)
  | .deviceReset => (match e.a with | .n4 _ _ v c => decide (v < 2 ∧ c < 2 ^ 16) | _ => false)
  | .chipTableWrite => (match e.a with
    | .nats (c :: bs) => decide (c < 2 ^ 16) && (bs == [] || bs.length == 8)
    | _ => false)
  | .portUnreachable | .portReachable => (match e.a with | .n2 c p => decide (c < 2 ^ 16 ∧ p < 8) | _ => false)
  | .linkEnable | .linkDisable | .linkTrainingFailed | .linkRetrain | .linkRetryRequest | .linkCrcError =>
    (match e.a with | .n1 n => decide (n < 17) | _ => false)
  | .linkTrained => (match e.a with | .n2 n cap => decide (n < 17 ∧ cap ≤ 100) | _ => false)
  | .uetPacketReceive =>
    let fs := e.a.frames 129
    decide (0 < fs.length ∧ fs.length ≤ 128) && fs.all fun x => decide (x.1 < 8 ∧ x.2.1 < 512) && netOk x.2.2.2
  | .uetRetransmit => (match e.a with | .n1 n => s.packets.any (·.n == n) | _ => false)
  | .sensorReading => (match e.a with | .nats (t :: rs) => decide (s.dev.time ≤ t ∧ rs.length = 32) | _ => false)
  | .recalibrationHold => (match e.a with | .n2 _ t => decide (s.dev.time ≤ t) | _ => false)
  | .scrubLine => (match e.a with
    | .n4 core line _ owner => decide (core < 384 ∧ line < 12582912 ∧ owner < 32)
    | .n3 kind _ _ => decide (kind < 10)
    | _ => false)
  | .scrubLate => (match e.a with | .n1 core => decide (core < 384) | _ => false)
  | _ => false

/-- The units whose clocks run (R8, R426, R427), each named by its first core: the clusters of this package and the management core. In band 3, and in FAULT,
only the management core's; in band 4 one cluster of each die (log 16). -/
def State.running (s : State) : List Nat :=
  (if s.dev.clocksOff || s.dev.dstate == .fault then []
   else ((List.range 96).filter fun cl => s.dev.band != 4 || cl % 24 == 0).map (4 * ·)) ++ [Config.mgmtCore]

/-- The events of units whose clock stands still in band 3 (R427): the network, the agents, the engines, the distributors and the cores. -/
def clocked (i : Instr) : Bool :=
  match i with
  | .lookaheadResultDelivery | .knightDeparture | .overflowRecordReload | .spawnMessageSend | .exitDrainComplete | .sleepDeadline | .feWaitingAccess
  | .tierMoveStart | .tierMoveLineCopy | .drainMarkerSend | .matrixOpAccept | .matrixOpGrant | .matrixOpComplete | .packetConsume | .postPublish
  | .cwaitTimeout | .engineJobAccept | .engineJobStart | .engineGranule | .engineJobEnd | .crewPlacement | .crewStart | .bindFill
  | .roamingThreadCreate | .crewRetire | .tempoPark | .schedulerDecision | .quantumExpiry | .castlingComplete | .spillStart | .spillComplete
  | .fillComplete | .messageFillComplete | .frameRoute => true
  | i => isNetEvent i && i != .firmwareRequest && i != .faultRecordWrite

end Sys2Proof.Machine
end

