-- ==== Sys2Proof/Machine/Place.lean ====
section
/-! DEFINITION. A word placed where a core fetches it next (log 17): what the host's probe of one instruction stands on. A program comes to run through a queue
and a kernel (12, 14); this stands for that load. -/

namespace Sys2Proof.Machine
open Sys2Proof

/-- The thread that runs a placed word: lane n of a crew, a roaming thread, or a firmware thread. -/
def placedThr (ctx kind n : Nat) : Thr :=
  { Thr.blank with st := .ready, ctx := ctx, fw := ctx == Config.fwCtx, kind := BitVec.ofNat 2 kind, number := BitVec.ofNat 32 n }

/-- The words that follow a placed word in its packet: a prefix needs the word that it modifies (R54, R55), a word with C = 1 its chain (R42); else zeros. -/
def wordsAfter (w : Nat) : List Nat :=
  if majorOf w = 63 then (if prefixLooksMem w then [0x4c000000, 0] else [0x20000250, 0])
  else if bit w 31 then [0x02000000, 0]
  else [0, 0]

/-- The state with an instruction word that a thread fetches in its core's next cycle: core 0, or the management core for a firmware word. The core runs one
crew of 32 lanes, or a single roaming thread for the words that only roaming threads issue, in a LIVE context whose code page at address 0 is sealed; the
core's permission cache and L1 hold it. -/
def State.placeWord (s : State) (w : Nat) : State :=
  let i := (decodeBytes (bytesOf 4 (w % 2 ^ 32))).toOption.getD .nop
  let fw := i.major == 0x38
  let ctx := if fw then Config.fwCtx else 0
  let core := if fw then Config.mgmtCore else 0
  let roam := i.roamOnly
  let key := frameKey 0 0 0 0
  let words := (w :: wordsAfter w).map (· % 2 ^ 32)
  let region : PEnt := { v := true, base := 0, len := 2 ^ 30, chip0 := s.chip, nchip := 1, count := 1, glog := 21, tier := 0, coreset := 1 }
  let page : Page := { st := .sealed, s := true, ord := 1, rd := true, wr := false, ex := true, tier := 0, ntier := 0, frame := 0, tokens := 0
                       nframe := 0, moved := 0 }
  let kent : KEnt := { code := 0, trapv := 0, round := 1, trapen := 0, carry := 0, nscal := 0, lconst := 0, seed := 0, roam := roam, fuse := false
                       chip := s.chip, qid := 0, pkt := 0 }
  let crew : Crew := { Crew.blank with st := .running, ctx := ctx, spSize := 2 ^ 16, pvSize := 2 ^ 10 }
  let ths : Tab Thr := if roam then [(tkOf core 0 0, placedThr ctx 0 0)] else (List.range 32).map fun n => (tkOf core 0 n, placedThr ctx 2 n)
  let others : Tab Thr := s.thr.filter fun x => coreOfTk x.1 != core
  let thr := ths.foldl (fun (t : Tab Thr) x => t.set x.1 x.2) others
  let crews : Tab Crew := s.crews.filter fun x => coreOfCk x.1 != core
  let old := s.core core
  let pk := pgKey ctx 0 0 0
  let perm : PermE := { ctx := ctx, chip := s.chip, key := tagOfKey pk, rd := true, wr := false, ex := true, ord := 1, s := true }
  let cs : CoreSt := { CoreSt.blank with
    clock := old.clock, bank := CoreSt.blank.bank.setIfInBounds 0 (some ctx), noHome := old.noHome, perm := [perm] }
  let code := words.getD 0 0 + 2 ^ 32 * words.getD 1 0 + 2 ^ 64 * words.getD 2 0
  let half : RHalf := { key := pk, chip := s.chip, token := false }
  let mem := memWrN s.mem key 12 code
  let line : Rep := { ctx := ctx, line := 0, holder := core, way := 0, data := memRdN mem key 128, lo := some half, hi := some half }
  let s : State := { s with
    dev := { s.dev with dstate := .run, band := 0, target := 0, pend := false, blocks := [], stopped := false, clocksOff := false }
    ctxs := s.ctxs.set ctx { Ctx.blank with st := .live, snap := true, ptab := [region] }
    pages := s.pages.set pk page, kern := s.kern.set (ctx * 4096) kent
    mem := mem, reps := line :: s.reps.filter fun r => !(r.ctx == ctx && r.line == 0)
    poison := s.poison.filter fun q => !touches q key 12
    thr := thr, crews := if roam then crews else crews.set (ckOf core 0 0) crew
    fe := s.fe.filter fun x => x.1 / 32 != core, cores := s.cores.set core cs }
  let at_ := s.agenda.length + s.flights.length + min 1 s.inbox.length
  { s with turn := at_ + if fw then s.running.length - 1 else 0 }

end Sys2Proof.Machine
end

