-- ==== Sys2Proof/Machine/Step.lean ====
section
/-! DEFINITION. One step of the package: one of the events that can come about next, or one cycle of a cluster. -/

namespace Sys2Proof.Machine
open Sys2Proof

/-- An event performed; what it has read of homes on other chips is used up. -/
def perform (e : Ev) (s : State) : Host.Outcome State Fault Refusal :=
  match exec e.i { s with ev := e.a } with
  | .next s => .next ({ s with ev := .none }.askDone e)
  | x => x

/-- The core at whose arrival port a knight or a creation record stands. -/
def Ev.portOf (e : Ev) : Option Nat :=
  match e.i, e.a with
  | .knightArrival, .knight c _ => some c
  | .spawnRecordArrival, .spawn _ c _ _ _ => some c
  | _, _ => none

/-- The place of the arrived event that is performed for place n: of those at one arrival port the first (R74). -/
def State.placeOf (s : State) (n : Nat) : Nat :=
  match s.agenda[n]?.bind Ev.portOf with
  | some c => (s.agenda.findIdx? fun e => e.portOf == some c).getD n
  | none => n

/-- The step that number n of the possible next events names: an event that has arrived, a frame in the network, a request from outside, or a
cycle of a cluster. An event that a stopped clock holds waits (R427); a request that no field of it can hold is none. -/
def stepAt (n : Nat) (s : State) : Host.Outcome State Fault Refusal :=
  match s.agenda[s.placeOf n]? with
  | some e => if s.dev.clocksOff && clocked e.i then .next s else perform e { s with agenda := s.agenda.eraseIdx (s.placeOf n) }
  | none =>
    let n := n - s.agenda.length
    if n < s.flights.length then perform ⟨.frameRoute, .n1 n⟩ s
    else
      let n := n - s.flights.length
      match n, s.inbox with
      | 0, e :: r => if inputOk s e then perform e { s with inbox := r } else .next { s with inbox := r }
      | _, _ => cycle (s.running.getD (n - min 1 s.inbox.length) Config.mgmtCore) s

/-- How many events can come next. -/
def State.options (s : State) : Nat := s.agenda.length + s.flights.length + min 1 s.inbox.length + s.running.length

/-- One step: the event whose turn it is; which comes after it the spec leaves open (log 9). -/
def step (s : State) : Host.Outcome State Fault Refusal :=
  stepAt (s.turn % s.options) { s with turn := Config.choice s.tick, tick := s.tick + 1 }

/-- The state in which the next step fetches and runs an instruction word (log 17); the DZ7's instructions are 32 bits (R42). -/
def State.withFetchWord (s : State) (nbits w : Nat) : State := s.placeWord (w % 2 ^ min 32 nbits)

end Sys2Proof.Machine
end

