-- ==== Sys2Proof/Safety.lean ====
section
/-! DEFINITION. What counts as a safe run: one that only ever takes next states, from inputs that are well-formed, with its memory in canonical form. -/

namespace Sys2Proof.Safety
open Sys2Proof Machine

/-- The machine's data are in the form that makes equal machines equal data: memory in its canonical form. -/
def Canonical (s : State) : Prop := Memory.wf s.mem = true

/-- No instruction is refused in the next n steps. -/
def NeverRefuses (n : Nat) (s : State) : Prop := ∀ r, core.run n s ≠ .refused r

/-- A run of n steps is safe: it ends in a next state in canonical form. -/
def SafeRun (n : Nat) (s : State) : Prop := ∃ t, core.run n s = .next t ∧ Canonical t

end Sys2Proof.Safety
end

