-- ==== Sys2Proof/Certificates/Slice0/Obligations.lean ====
section
/-! DEFINITION. The statements about the model, rule by rule of the spec: what each instruction and event does, what it leaves alone, and
what every step keeps. The notions they share stand first. -/

namespace Sys2Proof.Claims
open Sys2Proof Machine

/-! ### Notions -/

/-- A word passes the checks of classes 2 to 4 (R57), and its issuing lanes are different threads. -/
def Issues (i : Instr) (s : State) : Prop := s.staticFault i = none ∧ (s.iss.lanes.map (·.tk)).Nodup

/-- An instruction answers a next state that has a property. -/
def Gives (i : Instr) (s : State) (P : State → Prop) : Prop := ∃ t, exec i s = .next t ∧ P t

/-- An event with its payload. -/
def State.carry (s : State) (a : Arg) : State := { s with ev := a }

/-- Every field but the threads is as before; the prefix is used up (R54). -/
def OnlyThreads (s t : State) : Prop := t = { s with thr := t.thr, iss := { s.iss with pfx := .none } }
/-- Every field but the threads and the cores' own registers is as before. -/
def OnlyThreadsCores (s t : State) : Prop := t = { s with thr := t.thr, cores := t.cores, iss := { s.iss with pfx := .none } }
/-- The L pipe of the chain's core is held for the next cycle if the word is an f64 word of it (R131); no other register of a core changes. -/
def HoldsL (s t : State) (f64 : Bool) : Prop :=
  ∀ c, t.core c = if f64 = true ∧ c = s.iss.core then { s.core c with lBusy := (s.core c).clock + 1 } else s.core c
/-- The draws of a chain after a word: in each lane that draws, the generator's new state stands before the earlier ones (R132). -/
def drawsAfter (s : State) (d : LaneRef → Option Word) : List (Nat × Word) :=
  s.iss.lanes.foldl (fun a l => match d l with | some y => (l.tk, y) :: a | none => a) s.iss.draws
/-- Every field but the threads and the crews is as before. -/
def OnlyThreadsCrews (s t : State) : Prop := t = { s with thr := t.thr, crews := t.crews, iss := { s.iss with pfx := .none } }

/-- The threads after a word: each issuing lane's by `f`, every other as before. -/
def EachLane (s t : State) (f : LaneRef → Thr → Thr) : Prop :=
  ∀ tk, t.T tk = match s.iss.lanes.find? (·.tk == tk) with
    | some l => f l (s.T tk)
    | none => s.T tk

/-- The crews after a word: one crew's by `f`, every other as before. -/
def OneCrew (s t : State) (ck : Nat) (f : Crew → Crew) : Prop := ∀ c, t.C c = if c = ck then f (s.C c) else s.C c

/-! ### Words that compute a register in each lane -/

/-- Such a word: its destination, its predicate bit, whether it is an f64 word of the L pipe, and what an active lane computes from its thread
as the chain found it. -/
structure LaneWord where
  d : BitVec 5
  p : BitVec 1
  f64 : Bool
  res : State → Thr → LaneRes

/-- An L3 integer word: an operation on the elements of A and of operand B (R48, R85, R86). -/
def l3 (f : L3F) (op : Nat → Bool → Nat → Nat → FR) : Option LaneWord :=
  some ⟨f.d, f.p, false, fun _ t => intBin f.t.toNat op (t.gr f.a.toNat) (intB f.t.toNat f.m f.b t)⟩
/-- An LI word: i64 with a sign-extended immediate (R110). -/
def li (f : LiF) (op : Nat → Bool → Nat → Nat → FR) : Option LaneWord :=
  some ⟨f.d, f.p, false, fun _ t => intBin 2 op (t.gr f.a.toNat) fun _ => wrapI 64 (sgn 12 f.i.toNat)⟩
/-- A one-source word; without `ext` a 32-bit result is zero-extended (R104). -/
def un (f : UnF) (ext : Bool) (op : Nat → Bool → Nat → FR) : Option LaneWord :=
  some ⟨f.d, f.p, false, fun _ t =>
    let r := intBin f.t.toNat (fun w sg a _ => op w sg a) (t.gr f.a.toNat) fun _ => 0
    if ext || decide (2 ≤ f.t.toNat) then r else { r with v := W (r.v.toNat % 2 ^ 32) }⟩

/-- The integer words with what they compute (R102-R112). -/
def intWord : Instr → Option LaneWord
  | .add f => l3 f addE
  | .sub f => l3 f subE
  | .mul f => l3 f mulE
  | .mulh f => l3 f mulhE
  | .andW f => l3 f andE
  | .orW f => l3 f orE
  | .xorW f => l3 f xorE
  | .andn f => l3 f andnE
  | .shl f => l3 f shlE
  | .shr f => l3 f shrE
  | .sar f => l3 f sarE
  | .rot f => l3 f rotE
  | .minW f => l3 f minE
  | .maxW f => l3 f maxE
  | .addsat f => l3 f addsatE
  | .sel f => some ⟨f.d, 0, false, fun _ t => intBin f.t.toNat (fun w _ a b => ⟨(if t.top then a else b) % 2 ^ w, 0⟩)
      (t.gr f.a.toNat) (intB f.t.toNat f.m f.b t)⟩
  | .mulw f => some ⟨f.d, f.p, false, fun _ t => mulwRes f.t.toNat (t.gr f.a.toNat) (intB f.t.toNat f.m f.b t)⟩
  | .absd f => some ⟨f.d, f.p, false, fun _ t =>
      let r := intBin f.t.toNat absdE (t.gr f.a.toNat) (intB f.t.toNat f.m f.b t)
      if 2 ≤ f.t.toNat then r else { r with v := W (r.v.toNat % 2 ^ 32) }⟩
  | .clz f => un f false fun w _ a => ⟨clzE w a, 0⟩
  | .ctz f => un f false fun w _ a => ⟨ctzGo w a, 0⟩
  | .popc f => un f false fun w _ a => ⟨popGo w a, 0⟩
  | .brev f => un f false fun w _ a => ⟨revGo w a, 0⟩
  | .swapb f => un f true fun w _ a => ⟨swapGo (w / 8) a, 0⟩
  | .absW f => un f true absE
  | .neg f => un f true negE
  | .bfx f => some ⟨f.d, f.p, false, fun _ t => intBin f.t.toNat (fun w sg a c => bfxE w sg a c) (t.gr f.a.toNat)
      fun _ => elemAt (intW f.t.toNat) 0 (t.gr f.b.toNat)⟩
  | .bfi f => some ⟨f.d, f.p, false, fun _ t => intBin f.t.toNat (fun w _ a d => bfiE w d a (elemAt w 0 (t.gr f.b.toNat)))
      (t.gr f.a.toNat) fun k => elemAt (intW f.t.toNat) k (t.gr f.d.toNat)⟩
  | .lea f => some ⟨f.d, f.p, false, fun _ t =>
      ⟨t.gr f.a.toNat + (if f.m.toNat = 2 then BitVec.ofInt 64 (sgn 5 f.b.toNat) else t.gr f.b.toNat) * W (intW f.t.toNat / 8), 0, none⟩⟩
  | .pack f => some ⟨f.d, f.p, false, fun _ t => packRes f.t.toNat (t.gr f.a.toNat) (t.gr f.b.toNat)⟩
  | .unpk f => some ⟨f.d, f.p, false, fun _ t => unpkRes f.t.toNat (t.gr f.a.toNat)⟩
  | .addi f => li f addE
  | .andi f => li f andE
  | .ori f => li f orE
  | .xori f => li f xorE
  | .shli f => li f shlE
  | .shri f => li f shrE
  | .sari f => li f sarE
  | .roti f => li f rotE
  | .movz f => some ⟨f.d, 0, false, fun _ _ => ⟨W f.i.toNat <<< (16 * f.h.toNat), 0, none⟩⟩
  | .movk f => some ⟨f.d, 0, false, fun _ t =>
      ⟨(t.gr f.d.toNat &&& ~~~(0xffff#64 <<< (16 * f.h.toNat))) ||| (W f.i.toNat <<< (16 * f.h.toNat)), 0, none⟩⟩
  | .movn f => some ⟨f.d, 0, false, fun _ _ => ⟨~~~(W f.i.toNat <<< (16 * f.h.toNat)), 0, none⟩⟩
  | .icmp f => some ⟨f.d, f.p, false, fun _ t => icmpRes f.t.toNat f.k.toNat (t.gr f.a.toNat) (t.gr f.b.toNat)⟩
  | _ => none

/-- A float word with one rounded result an element (R113, R116, R118, R126). -/
def fl (d : BitVec 5) (p : BitVec 1) (t : BitVec 3) (op : Fmt → Nat → Nat → Thr → Nat → FR) : Option LaneWord :=
  some ⟨d, p, t.toNat == 1, fun s x => rounded (s.rmode x) (fltF t.toNat).width (fltN t.toNat) x fun k r => op (fltF t.toNat) (s.rmode x) r x k⟩
/-- A float word with one unrounded result an element (R114, R115, R129). -/
def flu (d : BitVec 5) (p : BitVec 1) (t : BitVec 3) (f64 : Bool) (op : Fmt → Thr → Nat → FR) : Option LaneWord :=
  some ⟨d, p, f64 && t.toNat == 1, fun _ x => unrounded (fltF t.toNat).width (fltN t.toNat) fun k => op (fltF t.toNat) x k⟩
/-- Element k of a register under a format. -/
def el (F : Fmt) (x : Thr) (n : BitVec 5) (k : Nat) : Nat := elemAt F.width k (x.gr n.toNat)

/-- The float words that deliver at once, with what they compute (R113-R129). -/
def floatWord : Instr → Option LaneWord
  | .fadd f => fl f.d f.p f.t fun F m r x k => addF F m r (el F x f.a k) (fltB f.t.toNat f.m f.b x k)
  | .fsub f => fl f.d f.p f.t fun F m r x k => subF F m r (el F x f.a k) (fltB f.t.toNat f.m f.b x k)
  | .fmul f => fl f.d f.p f.t fun F m r x k => mulF F m r (el F x f.a k) (fltB f.t.toNat f.m f.b x k)
  | .fmin f => flu f.d f.p f.t true fun F x k => minmaxF F false false (el F x f.a k) (fltB f.t.toNat f.m f.b x k)
  | .fmax f => flu f.d f.p f.t true fun F x k => minmaxF F true false (el F x f.a k) (fltB f.t.toNat f.m f.b x k)
  | .fminnum f => flu f.d f.p f.t true fun F x k => minmaxF F false true (el F x f.a k) (fltB f.t.toNat f.m f.b x k)
  | .fmaxnum f => flu f.d f.p f.t true fun F x k => minmaxF F true true (el F x f.a k) (fltB f.t.toNat f.m f.b x k)
  | .fsgn f => flu f.d f.p f.t false fun F x k => sgnF F (el F x f.a k) (fltB f.t.toNat f.m f.b x k)
  | .fscale f => fl f.d f.p f.t fun F m r x k => scaleF F m r (el F x f.a k) (scaleB f.t.toNat f.m f.b x k)
  | .fdot2 f => some ⟨f.d, f.p, false, fun s x =>
      dot2Res f.t.toNat (s.rmode x) x (x.gr f.a.toNat) (fltB f.t.toNat f.m f.b x) (s.fourth x)⟩
  | .fma f => fl f.d f.p f.t fun F m r x k => fmaF F m r false (el F x f.a k) (el F x f.b k) (el F x f.e k)
  | .fnma f => fl f.d f.p f.t fun F m r x k => fmaF F m r true (el F x f.a k) (el F x f.b k) (el F x f.e k)
  | .cvtf f => some ⟨f.d, f.p, f.t.toNat == 1 || f.b.toNat == 1, fun s x =>
      cvtfRes f.t.toNat f.b.toNat f.m.toNat (s.rmode x) x (x.gr f.a.toNat) (x.gr f.d.toNat)⟩
  | .cvtfi f => some ⟨f.d, f.p, f.b.toNat == 1, fun s x => cvtfiRes f.t.toNat f.b.toNat (s.rmode x) x (x.gr f.a.toNat)⟩
  | .cvtif f => some ⟨f.d, f.p, f.t.toNat == 1, fun s x => cvtifRes f.t.toNat f.b.toNat (s.rmode x) x (x.gr f.a.toNat)⟩
  | .cvtw f => some ⟨f.d, f.p, false, fun _ x => cvtwRes f.t.toNat (x.gr f.a.toNat) (x.gr f.b.toNat)⟩
  | .frnd f => fl f.d f.p f.t fun F m r x k => rndF F m r (el F x f.a k)
  | .fcmp f => some ⟨f.d, f.p, f.t.toNat == 1, fun _ x => fcmpRes f.t.toNat f.k.toNat (x.gr f.a.toNat) (x.gr f.b.toNat)⟩
  | .fclass f => flu f.d f.p f.t false fun F x k => ⟨classF F (el F x f.a k), 0⟩
  | _ => none

/-- What such a word does (R84): an active lane's register takes the result, its sticky flags are raised and a drawing word leaves the
generator's new state; with MZ an inactive lane's register becomes 0; nothing else of a thread changes. -/
def LaneWord.lane (w : LaneWord) (s : State) (l : LaneRef) (x : Thr) : Thr :=
  if s.active (w.p == 1) l then
    let r := w.res s (s.drawT l.tk)
    { x with g := x.g.setIfInBounds w.d.toNat r.v, flags := x.flags ||| r.fl, srng := r.srng.getD x.srng }
  else if s.mz then { x with g := x.g.setIfInBounds w.d.toNat 0 } else x

/-- What a drawing word leaves of an active lane's generator (R132). -/
def LaneWord.draw (w : LaneWord) (s : State) (l : LaneRef) : Option Word :=
  if s.active (w.p == 1) l then (w.res s (s.drawT l.tk)).srng else none

/-- A lane word run: only the issuing lanes change, the chain keeps its draws, and an f64 word holds its core's L pipe for the next cycle (R131). -/
def LaneWord.Run (w : LaneWord) (i : Instr) (s : State) : Prop :=
  Gives i s fun t => t = { s with thr := t.thr, cores := t.cores, iss := { s.iss with pfx := .none, draws := drawsAfter s (w.draw s) } }
    ∧ EachLane s t (w.lane s) ∧ HoldsL s t w.f64

/-- The words of fixed latency: destination, predicate bit, look field, cycles, whether f64, and the result (R109, R124, R127, R130). -/
def slowWord : Instr → Option (LaneWord × Nat × Nat)
  | .div f => some (⟨f.d, f.p, false, fun _ t => intBin f.t.toNat divE (t.gr f.a.toNat) (intB f.t.toNat 0 f.b t)⟩,
      if f.t = 2 ∨ f.t = 3 then 34 else 18, f.l.toNat)
  | .rem f => some (⟨f.d, f.p, false, fun _ t => intBin f.t.toNat remE (t.gr f.a.toNat) (intB f.t.toNat 0 f.b t)⟩,
      if f.t = 2 ∨ f.t = 3 then 34 else 18, f.l.toNat)
  | .cvtn f => some (⟨f.d, f.p, false, fun s t => cvtnRes f.t.toNat (s.rmode t) t (t.gr f.a.toNat) (t.gr f.b.toNat) (t.gr f.d.toNat)⟩, 6, f.l.toNat)
  | .frcps f => spec f 0
  | .frsqs f => spec f 1
  | .fexp2 f => spec f 2
  | .flog2 f => spec f 3
  | .fsin f => spec f 4
  | .fcos f => spec f 5
  | _ => none
where
  spec (f : SpecF) (n : Nat) : Option (LaneWord × Nat × Nat) :=
    some (⟨f.d, f.p, f.t.toNat == 1, fun _ t => unrounded (fltF f.t.toNat).width (fltN f.t.toNat) fun k =>
      specElem n f.t.toNat (el (fltF f.t.toNat) t f.a k)⟩, specCycles n f.t.toNat, f.l.toNat)

/-- The lock that such a word leaves in a lane (R56): it names the destination and FLAGS, is due after the word's cycles (at once when no lane is
active), and carries what delivery writes. -/
def slowLock (w : LaneWord) (n look : Nat) (s : State) (l : LaneRef) : Lock :=
  let on := s.active (w.p == 1) l
  let r := w.res s (s.drawT l.tk)
  { id := s.ids, d := w.d.toNat, regs := gbit w.d.toNat ||| flagsBit, left := look, active := on
    due := some (if s.iss.lanes.any (s.active (w.p == 1)) then s.clockOf s.iss.core + n else s.clockOf s.iss.core)
    val := if on then some r.v else if s.mz then some 0 else none, fl := if on then r.fl else 0 }

/-- What a word of fixed latency does to a lane: only the lock is added, and a drawing word leaves the generator's new state. -/
def slowLane (w : LaneWord) (n look : Nat) (s : State) (l : LaneRef) (x : Thr) : Thr :=
  { x with locks := x.locks ++ [slowLock w n look s l]
           srng := if s.active (w.p == 1) l then (w.res s (s.drawT l.tk)).srng.getD x.srng else x.srng }

/-- The predicate-stack words in one lane (R98-R100): a trap's cause, or the thread after; `r` is the thread as the chain found it. -/
def stackWord (s : State) (l : LaneRef) (r x : Thr) : Instr → Option (Except Cause Thr)
  | .ppush f => push true (r.gr f.a.toNat != 0) 0
  | .icmpp f => push (s.active (f.p == 1) l)
      (icmpE (intW f.t.toNat) (intS f.t.toNat) f.k.toNat (r.gr f.a.toNat).toNat (r.gr f.b.toNat).toNat) 0
  | .fcmpp f =>
      let c := cmpF (fltF f.t.toNat) f.k.toNat (el (fltF f.t.toNat) r f.a 0) (el (fltF f.t.toNat) r f.b 0)
      push (s.active (f.p == 1) l) c.1 c.2
  | .pinv _ => need (x.setTop (!x.top && x.below))
  | .ppop _ => need x.pop
  | .pand f => need (x.setTop (x.top && r.gr f.a.toNat != 0))
  | .pget f => some (.ok { x with g := x.g.setIfInBounds f.d.toNat r.pstk })
  | .pset f => some (if 16 < bits (r.gr f.a.toNat) 20 16 then .error .predOverflow else .ok (x.setPstk (r.gr f.a.toNat)))
  | _ => none
where
  push (on c : Bool) (fl : Flags) : Option (Except Cause Thr) :=
    some (if 16 ≤ x.pdepth then .error .predOverflow
      else .ok (if on then { x.push (c && r.top) with flags := x.flags ||| fl } else x.push false))
  need (y : Thr) : Option (Except Cause Thr) := some (if x.pdepth = 0 then .error .predUnderflow else .ok y)

end Sys2Proof.Claims

open Sys2Proof Machine Claims

/-- R102-R112: every integer word completes, with the result of its table row in each active lane and nothing else changed. -/
def Obligations.IntegerWords : Prop :=
  ∀ i w s, intWord i = some w → Issues i s → w.Run i s

/-- R113-R129: every float word that delivers at once completes, with the result of its rule in each active lane and nothing else changed. -/
def Obligations.FloatWords : Prop :=
  ∀ i w s, floatWord i = some w → Issues i s → w.Run i s

/-- R56, R130: a word of fixed latency completes by locking its destination and FLAGS in every issuing lane until its cycles are over. -/
def Obligations.SlowWords : Prop :=
  ∀ i w n look s, slowWord i = some (w, n, look) → Issues i s →
    Gives i s fun t => t = { s with thr := t.thr, cores := t.cores, ids := s.ids + 1, iss := { s.iss with pfx := .none, draws := drawsAfter s (w.draw s) } }
      ∧ EachLane s t (slowLane w n look s) ∧ HoldsL s t w.f64

/-- R98-R100: the predicate-stack words where no lane's stack overflows or underflows. What a push pushes is the reading of log 23. -/
def Obligations.StackWords : Prop :=
  ∀ i s (f : LaneRef → Thr), Issues i s → (∃ x y l, stackWord s l x y i ≠ none) → (∀ l ∈ s.iss.lanes, stackWord s l (s.rT l.tk) (s.T l.tk) i = some (.ok (f l))) →
    Gives i s fun t => OnlyThreadsCores s t ∧ EachLane s t (fun l _ => f l)

namespace Sys2Proof.Claims
open Sys2Proof Machine

/-! ### Scalar words -/

/-- The scalar words (R143-R145): destination code, and the value with its flags in a lane, from the destination's old value. -/
def scalarWord : Instr → Option (BitVec 8 × (State → LaneRef → Word → Word × Flags))
  | .smov f => salu f fun _ a => a
  | .sadd f => salu f (· + ·)
  | .ssub f => salu f (· - ·)
  | .smul f => salu f (· * ·)
  | .sand f => salu f (· &&& ·)
  | .sor f => salu f (· ||| ·)
  | .sxor f => salu f (· ^^^ ·)
  | .sshl f => salu f fun d a => d <<< a
  | .sshr f => salu f fun d a => d >>> a
  | .smin f => salu f fun d a => if a.toInt < d.toInt then a else d
  | .smax f => salu f fun d a => if d.toInt < a.toInt then a else d
  | .sbc f => salu f fun _ a => W ((List.range 64).countP fun n => a.getLsbD n)
  | .sdiv f => some (f.d, fun s l d =>
      let a := s.code f.a l.tk
      if a = 0 then (ones, fIntDiv)
      else if d.toInt = -2 ^ 63 ∧ a.toInt = -1 then (d, fIntOvf)
      else (BitVec.ofInt 64 (d.toInt.tdiv a.toInt), 0))
  | .smovi f => simm f fun _ a => a
  | .saddi f => simm f (· + ·)
  | .sandi f => simm f (· &&& ·)
  | .sori f => simm f (· ||| ·)
  | .sshli f => simm f fun d a => d <<< a
  | .sshri f => simm f fun d a => d >>> a
  | .mfsr f => some (f.d, fun s l _ => (s.special f.a.toNat l, 0))
  | _ => none
where
  salu (f : S2F) (op : Word → Word → Word) : Option (BitVec 8 × (State → LaneRef → Word → Word × Flags)) :=
    some (f.d, fun s l d => (op d (s.code f.a l.tk), 0))
  simm (f : SiF) (op : Word → Word → Word) : Option (BitVec 8 × (State → LaneRef → Word → Word × Flags)) :=
    some (f.d, fun _ _ d => (op d (f.i.signExtend 64), 0))

/-- Whether a word is SDIV, after which the crew or thread issues no chain for 34 cycles (R140). -/
def isSdiv : Instr → Bool
  | .sdiv _ => true
  | _ => false

/-- A thread that issues no chain for 34 cycles, after an SDIV of its crew or its own (R140). -/
def hush (i : Instr) (s : State) (tk : Nat) (x : Thr) : Thr :=
  let its := match s.iss.crew with
    | some ck => (List.range 32).any fun l => laneTk ck l == tk
    | none => s.iss.lanes.any (·.tk == tk)
  if isSdiv i && its then { x with noIssue := max x.noIssue (s.clockOf (coreOfTk tk) + 1 + 34) } else x

/-- The threads after a scalar word: each issuing lane's by `f`, then SDIV's pause. -/
def EachLaneHushed (i : Instr) (s t : State) (f : LaneRef → Thr → Thr) : Prop :=
  ∀ tk, t.T tk = hush i s tk (match s.iss.lanes.find? (·.tk == tk) with
    | some l => f l (s.T tk)
    | none => s.T tk)

/-- A crew's s or k register written (R134, R135): k0 ignores it. -/
def wrCode (d : BitVec 8) (v : Word) (c : Crew) : Crew :=
  if d.toNat < 160 then { c with s := c.s.setIfInBounds d.toNat v }
  else if d.toNat = 160 then c else { c with k := c.k.setIfInBounds (d.toNat - 160) (v.setWidth 32) }

/-- A special register as MTSR leaves the thread (R25, R28, R33, R69, R98, R145). -/
def wrSr (n : Nat) (v : Word) (x : Thr) : Thr :=
  if n = 10 then { x with carry := v.setWidth 32 }
  else if n = 11 then { x with flags := v.setWidth 7 }
  else if n = 12 then { x with trapen := v.setWidth 7 }
  else if n = 13 then { x with rmode := if v.toNat % 8 = 0 ∨ v.toNat % 8 = 7 then 1 else v.setWidth 3 }
  else if n = 14 then { x with srng := if v = 0 then 1 else v }
  else { x with pdepth := bits v 20 16, pent := BitVec.ofNat 16 (v.toNat % 2 ^ min 16 (bits v 20 16)) }

/-- A TRAPV command in a lane that raises no trap (R376): command 0 writes HANDLER, 1-4 set VIEW, 5 writes the top frame's PC, 6 returns, once the
core holds the word that tells whether the frame's PC is a chain head. -/
def trapvLane (s : State) (tk : Nat) (v : Word) (x : Thr) : Option Thr :=
  let c := bits v 63 61
  if c = 0 ∧ bits v 60 56 = 0 then some { x with handler := v.setWidth 56, view := 0 }
  else if 1 ≤ c ∧ c ≤ 4 ∧ bits v 60 0 = 0 then some { x with view := BitVec.ofNat 3 c }
  else match x.frames with
    | [] => none
    | f :: r =>
      if c = 5 ∧ bits v 60 56 = 0 then some { x with frames := { f with pc := v.setWidth 56 } :: r }
      else if c = 6 ∧ bits v 60 0 = 0 ∧ s.targetFault tk f.pc.toNat = none ∧ s.targetNeeds tk f.pc.toNat = none then some { x with frames := r, view := 0, pc := f.pc, fresh := none, got := [] }
      else none

/-- The value of a TRAPV word: the four commands of the map, and an MTSR to TRAPV (R376). -/
def trapvVal (s : State) (l : LaneRef) : Instr → Option Word
  | .trapvSeth v | .trapvView v | .trapvSetpc v => some v
  | .trapvRet => some 0xc000000000000000
  | .mtsr f => if f.d = 19 then some (s.code f.a l.tk) else none
  | _ => none

/-! ### Cross-lane words -/

/-- The four moves (R157): destination, source register, predicate bit, and the lane an active lane reads. -/
def moveWord (s : State) : Instr → Option (BitVec 5 × BitVec 5 × BitVec 1 × (LaneRef → Nat))
  | .shfl f => some (f.d, f.a, f.p, fun l => moveIdx f.m f.b (s.rT l.tk) % 32)
  | .shflx f => some (f.d, f.a, f.p, fun l => (l.pos ^^^ moveIdx f.m f.b (s.rT l.tk)) % 32)
  | .shfli f => some (f.d, f.a, f.p, fun l => (l.pos + wrapI 5 (sgn 5 f.b.toNat)) % 32)
  | .bcast f => some (f.d, f.a, f.p, fun _ =>
      let act := s.iss.lanes.filter (s.active (f.p == 1))
      (act.foldl (fun a l => if l.pos < a.pos then l else a) (act.headD ⟨0, 0⟩)).pos % 32)
  | _ => none

/-- The votes (R161): the value an active lane at a position takes, from the positions and values of the active lanes. -/
def voteWord : Instr → Option (UnF × (List (Nat × Nat) → Nat × Nat → Word))
  | .ballot f => some (f, fun vs _ => maskOf (fun v => v.2 != 0) vs)
  | .vany f => some (f, fun vs _ => if vs.any (fun v => v.2 != 0) then ones else 0)
  | .vall f => some (f, fun vs _ => if vs.all (fun v => v.2 != 0) then ones else 0)
  | .matchL f => some (f, fun vs x => maskOf (fun v => v.2 == x.2) vs)
  | .matchN f => some (f, fun vs x => W (vs.filter fun v => decide (v.1 < x.1) && v.2 == x.2).length)
  | .popl f => some (f, fun vs x => W (vs.filter fun v => decide (v.1 < x.1) && v.2 != 0).length)
  | _ => none

/-- The value that a vote reads in a lane: the low 32 or all 64 bits of A (R161). -/
def voteVal (s : State) (f : UnF) (l : LaneRef) : Nat × Nat :=
  (l.pos, ((s.rT l.tk).gr f.a.toNat).toNat % 2 ^ (if f.t.toNat ≤ 1 then 32 else 64))

/-- The tree of REDL or SCANL over the active lanes (R38, R158, R159): the identity stands in the others, and the lowest active lane's rounding mode
and generator serve. -/
def tree (s : State) (f : L3NF) (scan : Bool) (low : LaneRef) : RedAcc :=
  let A : RedAcc := { v := s.redInput f.b.toNat f.t.toNat f.a.toNat (s.activeLanes (f.p == 1)), fl := 0, srng := (s.drawT low.tk).srng }
  let m := (s.rT low.tk).rmode.toNat
  if scan then scanTree f.b.toNat f.t.toNat m A else redTree f.b.toNat f.t.toNat m A

end Sys2Proof.Claims

open Sys2Proof Machine Claims

/-- R143-R145, R140: a scalar word writes each lane's g register, or the crew's s or k register once with the lowest lane's value. -/
def Sys2Proof.Claims.ScalarWords : Prop :=
  ∀ i d v s, scalarWord i = some (d, v) → Issues i s →
    (isG d = true → Gives i s fun t => OnlyThreads s t ∧ EachLaneHushed i s t fun l x =>
      { x with g := x.g.setIfInBounds (d.toNat - 184) (v s l (s.code d l.tk)).1, flags := x.flags ||| (v s l (s.code d l.tk)).2 })
    ∧ ∀ ck, isG d = false → s.iss.crew = some ck → Gives i s fun t =>
        let r := v s s.lowLane (s.code d s.lowLane.tk)
        OnlyThreadsCrews s t ∧ OneCrew s t ck (wrCode d r.1) ∧ EachLaneHushed i s t fun _ x => { x with flags := x.flags ||| r.2 }

/-- R25, R28, R33, R69, R98, R145: MTSR of CARRY, FLAGS, TRAPEN, MODE, SRNG and PSTK in each lane, and of CREWST once in the crew. -/
def Sys2Proof.Claims.MtsrWords : Prop :=
  ∀ f s, Issues (.mtsr f) s →
    (f.d.toNat ≤ 15 → (f.d = 15 → ∀ l ∈ s.iss.lanes, bits (s.code f.a l.tk) 20 16 ≤ 16) →
      Gives (.mtsr f) s fun t => OnlyThreads s t ∧ EachLane s t fun l x => wrSr f.d.toNat (s.code f.a l.tk) x)
    ∧ ∀ ck, f.d = 18 → s.iss.crew = some ck → Gives (.mtsr f) s fun t =>
        t = { s with crews := t.crews, iss := { s.iss with pfx := .none } }
        ∧ OneCrew s t ck fun c => { c with empty := (s.code f.a s.lowLane.tk).getLsbD 8 }

/-- R376: the TRAPV commands, given by TRAPV_SETH, VIEW, SETPC and RET or by an MTSR to TRAPV, in lanes where none raises a trap. -/
def Sys2Proof.Claims.TrapvCommands : Prop :=
  ∀ i s (f : LaneRef → Thr), Issues i s →
    (∀ l ∈ s.iss.lanes, ∃ v, trapvVal s l i = some v ∧ trapvLane s l.tk v (s.T l.tk) = some (f l)) → (∃ l, trapvVal s l i ≠ none) →
    Gives i s fun t => OnlyThreads s t ∧ EachLane s t fun l _ => f l

/-- R157, R156: a move gives each active lane the register of the lane it names, 0 of a retired one, while none of those registers is locked. -/
def Sys2Proof.Claims.LaneMoves : Prop :=
  ∀ i d a p src s ck, moveWord s i = some (d, a, p, src) → Issues i s → s.iss.crew = some ck →
    (∀ l ∈ s.iss.lanes, s.active (p == 1) l = true → src l = l.pos ∨ s.laneLocked ck (src l) a.toNat = false) →
    Gives i s fun t => OnlyThreads s t ∧ EachLane s t fun l x =>
      if s.active (p == 1) l then { x with g := x.g.setIfInBounds d.toNat (s.laneReg ck (src l) a.toNat) } else x

/-- R161: a vote gives each active lane the value its operation computes from the active lanes' values. -/
def Sys2Proof.Claims.LaneVotes : Prop :=
  ∀ i f v s, voteWord i = some (f, v) → Issues i s →
    Gives i s fun t => OnlyThreads s t ∧ EachLane s t fun l x =>
      if s.active (f.p == 1) l then
        { x with g := x.g.setIfInBounds f.d.toNat (v ((s.activeLanes (f.p == 1)).map (voteVal s f)) (voteVal s f l)) } else x

/-- R38, R158-R160: REDL writes the tree's result to the crew's s register, SCANL each active lane's to its own register; flags are raised in every
active lane, the lowest one keeps the generator that drew, and CREWST.EMPTY says whether no lane was active. -/
def Sys2Proof.Claims.LaneTrees : Prop :=
  ∀ (f : L3NF) (scan : Bool) s ck, let i : Instr := if scan then .scanl f else .redl f
    Issues i s → s.iss.crew = some ck →
    let act := s.activeLanes (f.p == 1)
    let f64 := redFloat f.b.toNat && f.t == 1
    (act = [] → Gives i s fun t => t = { s with crews := t.crews, cores := t.cores, iss := { s.iss with pfx := .none } } ∧ HoldsL s t f64 ∧ OneCrew s t ck fun c =>
      let v := redExt f.b.toNat f.t.toNat (List.replicate (redShape f.b.toNat f.t.toNat).2 (redIdent f.b.toNat f.t.toNat))
      { c with empty := true, s := if scan then c.s else c.s.setIfInBounds f.d.toNat v })
    ∧ ∀ low ∈ act, (∀ l ∈ act, low.pos ≤ l.pos) → ((act.map (·.pos)).Nodup) → Gives i s fun t =>
        let r := tree s f scan low
        let drew := (s.rT low.tk).rmode = 6 ∧ f.b = 1
        t = { s with thr := t.thr, crews := t.crews, cores := t.cores
                     iss := { s.iss with pfx := .none, draws := if drew then (low.tk, r.srng) :: s.iss.draws else s.iss.draws } } ∧ HoldsL s t f64
        ∧ OneCrew s t ck (fun c =>
            let v := redExt f.b.toNat f.t.toNat (r.v.getD 0 [])
            { c with empty := false, s := if scan then c.s else c.s.setIfInBounds f.d.toNat v })
        ∧ EachLane s t fun l x => if s.active (f.p == 1) l then
            { x with flags := x.flags ||| r.fl
                     g := if scan then x.g.setIfInBounds f.d.toNat (redExt f.b.toNat f.t.toNat (r.v.getD l.pos [])) else x.g
                     srng := if drew ∧ l = low then r.srng else x.srng } else x

/-- R143: SRDL gives s[SD] the register of lane s[SD] mod 32 of the crew, 0 of a retired lane; while it is locked the lanes wait. -/
def Sys2Proof.Claims.ScalarReadLane : Prop :=
  ∀ f s ck, Issues (.srdl f) s → s.iss.crew = some ck →
    let p := ((s.rC ck).sr f.d.toNat).toNat % 32
    (s.laneLocked ck p (f.a.toNat - 184) = false → Gives (.srdl f) s fun t =>
      t = { s with crews := t.crews, iss := { s.iss with pfx := .none } }
      ∧ OneCrew s t ck fun c => { c with s := c.s.setIfInBounds f.d.toNat (s.laneReg ck p (f.a.toNat - 184)) })
    ∧ (s.laneLocked ck p (f.a.toNat - 184) = true → Gives (.srdl f) s fun t =>
        t.mem = s.mem ∧ t.crews = s.crews ∧ t.iss.lanes = [] ∧ EachLane s t fun _ x => { x with st := .blocked, wait := .lockRead })

/-- R147-R149, R152: ENROL and STRIKE change the issuing lanes' bits of a rejoin register, JMOV moves one to or from a code while nobody is parked. -/
def Obligations.RejoinWords : Prop :=
  (∀ f s ck, Issues (.enrol f) s → s.iss.crew = some ck → Gives (.enrol f) s fun t =>
      t = { s with crews := t.crews, iss := { s.iss with pfx := .none } }
      ∧ OneCrew s t ck fun c => c.setJ (f.j.toNat - 168) { c.jr (f.j.toNat - 168) with enrolled := (c.jr (f.j.toNat - 168)).enrolled ||| s.issueMask })
  ∧ (∀ f s ck, Issues (.strike f) s → s.iss.crew = some ck → Gives (.strike f) s fun t =>
      t = { s with crews := t.crews, iss := { s.iss with pfx := .none } }
      ∧ OneCrew s t ck fun c => c.setJ (f.j.toNat - 168) ⟨(c.jr (f.j.toNat - 168)).parked &&& ~~~s.issueMask, (c.jr (f.j.toNat - 168)).enrolled &&& ~~~s.issueMask⟩)
  ∧ (∀ f s ck, Issues (.park f) s → s.iss.crew = some ck → (∀ l ∈ s.iss.lanes, l.pos < 32) → ((s.iss.lanes.map (·.pos)).Nodup) →
      Gives (.park f) s fun t =>
        let n := f.j.toNat - 168
        let e := ((s.C ck).jr n).enrolled
        OnlyThreadsCrews s t
        ∧ OneCrew s t ck (fun c => c.setJ n { c.jr n with parked := (c.jr n).parked ||| (e &&& s.issueMask) })
        ∧ EachLane s t fun l x => if e.getLsbD l.pos then { x with st := .blocked, wait := .park n } else x)
  ∧ (∀ f s ck, Issues (.jmov f) s → s.iss.crew = some ck →
      (isJ f.d = true → ((s.C ck).jr (f.d.toNat - 168)).parked = 0 → Gives (.jmov f) s fun t =>
        t = { s with crews := t.crews, iss := { s.iss with pfx := .none } }
        ∧ OneCrew s t ck fun c => c.setJ (f.d.toNat - 168) ⟨0, (s.code f.a s.lowLane.tk).setWidth 32⟩)
      ∧ (isJ f.d = false → isG f.d = false → Gives (.jmov f) s fun t =>
        t = { s with crews := t.crews, iss := { s.iss with pfx := .none } }
        ∧ OneCrew s t ck (wrCode f.d ((((s.rC ck).jr (f.a.toNat - 168)).parked ++ ((s.rC ck).jr (f.a.toNat - 168)).enrolled).setWidth 64)))
      ∧ (isG f.d = true → Gives (.jmov f) s fun t => OnlyThreads s t ∧ EachLane s t fun _ x =>
        { x with g := x.g.setIfInBounds (f.d.toNat - 184) ((((s.rC ck).jr (f.a.toNat - 168)).parked ++ ((s.rC ck).jr (f.a.toNat - 168)).enrolled).setWidth 64) }))

namespace Sys2Proof.Claims
open Sys2Proof Machine

/-! ### Control words -/

/-- The branches (R94-R96): where a lane goes and whether it links; `none` in a lane that does not branch. -/
def branchWord (s : State) (l : LaneRef) : Instr → Option (Option (Word × Bool))
  | .br f => some (some (rel f, false))
  | .call f => some (some (rel f, true))
  | .brpT f => some (if (s.rT l.tk).top then some (rel f, false) else none)
  | .brpF f => some (if (s.rT l.tk).top then none else some (rel f, false))
  | .brpAny f => some (if s.iss.lanes.any fun m => (s.rT m.tk).top then some (rel f, false) else none)
  | .brpAll f => some (if s.iss.lanes.all fun m => (s.rT m.tk).top then some (rel f, false) else none)
  | .brpNone f => some (if s.iss.lanes.any fun m => (s.rT m.tk).top then none else some (rel f, false))
  | .jr f => some (if s.active (f.p == 1) l then some ((s.rT l.tk).gr f.a.toNat, false) else none)
  | .ret f => some (if s.active (f.p == 1) l then some ((s.rT l.tk).gr 31, false) else none)
  | .callr f => some (if s.active (f.p == 1) l then some ((s.rT l.tk).gr f.a.toNat, true) else none)
  | _ => none
where
  rel (f : BrF) : Word := s.iss.wpc.setWidth 64 + 4 * f.o.signExtend 64

/-- A lane after its branch: the pc, and g31 of a call (R94). -/
def branchLane (s : State) (b : Option (Word × Bool)) (x : Thr) : Thr :=
  match b with
  | none => x
  | some (a, link) => { x with pc := a.setWidth 56, g := if link then x.g.setIfInBounds 31 (s.iss.next.setWidth 64) else x.g }

/-- The trap of a word whose chain keeps its effects (R90, R91): the frame PC is the following chain head. -/
def softTrap (s : State) (c : Cause) (info : Word) : TrapInfo := { cause := c, pc := s.iss.next, addr := 0, info := info, word := s.iss.widx }

/-- The first issue-time cause of a word in a lane, with ADDR and INFO (R57 classes 5 and 6): branch targets (R97), stack depth (R99, R100),
PSTK (R98), a uniform destination of a roaming thread (R141), JMOV to a register with parked lanes (R152), TRAPV (R376), scalar offsets (R145). -/
def laneTrap (s : State) (l : LaneRef) (i : Instr) : Option (Cause × Word × Word) :=
  match branchWord s l i with
  | some (some (a, _)) => s.targetFault l.tk a.toNat
  | some none => none
  | none => match stackWord s l (s.rT l.tk) (s.T l.tk) i with
    | some (.error c) => some (c, 0, 0)
    | some (.ok _) => none
    | none => match i with
      | .jmov f => if isJ f.d then (match s.iss.crew with
          | some ck => if ((s.C ck).jr (f.d.toNat - 168)).parked ≠ 0 then some (.illegalConvergence, 0, 0) else none
          | none => none) else none
      | .mtsr f =>
        if f.d = 15 then (if 16 < bits (s.code f.a l.tk) 20 16 then some (.predOverflow, 0, 0) else none)
        else if f.d = 19 then trapv (s.code f.a l.tk) else none
      | .sld f => off (s.code f.a s.lowLane.tk)
      | .sst f => off (s.code f.d s.lowLane.tk)
      | _ => match scalarWord i with
        | some (d, _) => if isG d = false ∧ s.roaming then some (.uniformWrite, 0, 0) else none
        | none => none
where
  trapv (v : Word) : Option (Cause × Word × Word) :=
    let c := bits v 63 61
    if c = 7 then some (.illegalInstr, 0, 0x300)
    else if (if c = 0 ∨ c = 5 then bits v 60 56 else bits v 60 0) ≠ 0 then some (.illegalInstr, 0, 0x300)
    else if (c = 5 ∨ c = 6) ∧ (s.T l.tk).frames = [] then some (.illegalInstr, 0, 0x301)
    else none
  off (o : Word) : Option (Cause × Word × Word) := match s.iss.crew with
    | none => none
    | some ck => if o.toNat % 8 ≠ 0 then some (.misaligned, o, 0)
      else if (s.rC ck).spSize ≤ o.toNat then some (.permission, o, 0) else none

/-! ### Words on the crew's own memory -/

/-- A lane's offset into the share or its private slice: base register plus the scaled immediate (R182). -/
def ofsOf (s : State) (a : BitVec 5) (o : BitVec 5) (size : Nat) (l : LaneRef) : Nat :=
  ((s.rT l.tk).gr a.toNat + (o.signExtend 64) * W size).toNat

/-- The local words (R177, R179, R198): predicate bit, size, lane offset, limit, and the key of a lane's byte. -/
structure LocalWord where
  p : BitVec 1
  size : Nat
  ofs : LaneRef → Nat
  limit : Nat
  key : LaneRef → Nat
  d : BitVec 5
  look : Nat

/-- The loads LDS and LDP and the stores STS and STP, each with whether it stores. -/
def localWord (s : State) : Instr → Option (LocalWord × Bool)
  | .lds f => some (⟨f.p, 2 ^ f.s.toNat, ofsOf s f.a f.o (2 ^ f.s.toNat), (s.C s.ck).spSize,
      fun l => spadKey s.iss.core ((s.C s.ck).spBase + ofsOf s f.a f.o (2 ^ f.s.toNat) l), f.d, f.l.toNat⟩, false)
  | .ldp f => some (⟨f.p, 2 ^ f.s.toNat, ofsOf s f.a f.o (2 ^ f.s.toNat), (s.C s.ck).pvSize,
      fun l => privKey s.iss.core l.pos ((s.C s.ck).pvBase + ofsOf s f.a f.o (2 ^ f.s.toNat) l), f.d, f.l.toNat⟩, false)
  | .sts f => some (⟨f.p, 2 ^ f.s.toNat, ofsOf s f.a f.o (2 ^ f.s.toNat), (s.C s.ck).spSize,
      fun l => spadKey (coreOfCk s.ck) ((s.C s.ck).spBase + ofsOf s f.a f.o (2 ^ f.s.toNat) l), f.d, 0⟩, true)
  | .stp f => some (⟨f.p, 2 ^ f.s.toNat, ofsOf s f.a f.o (2 ^ f.s.toNat), (s.C s.ck).pvSize,
      fun l => privKey s.iss.core l.pos ((s.C s.ck).pvBase + ofsOf s f.a f.o (2 ^ f.s.toNat) l), f.d, 0⟩, true)
  | _ => none

/-- Whether a lane takes part: active, its offset aligned and inside. -/
def LocalWord.passes (w : LocalWord) (s : State) : Prop :=
  ∀ l ∈ s.iss.lanes, s.active (w.p == 1) l = true → w.ofs l % w.size = 0 ∧ w.ofs l < w.limit

/-- The scratchpad words that a local word's active lanes reach (R174). -/
def LocalWord.words (w : LocalWord) (s : State) : Instr → List Nat
  | .lds _ | .sts _ => (s.iss.lanes.filter (s.active (w.p == 1))).map fun l => w.ofs l / 8
  | _ => []

/-- When the loads of a rank deliver that has reached some words more: after 4 cycles and one for each further bank cycle (R174, R199). -/
def bankDelivery (s : State) (words : List Nat) : Nat := s.clockOf s.iss.core + 4 + (bankCycles (s.iss.banks ++ words) - 1)

/-- The loads that the rank has made before are served with the words it reaches now (R174, R199). -/
def reached (s : State) (words : List Nat) (tk : Nat) (x : Thr) : Thr :=
  { x with locks := x.locks.map fun k =>
      if s.iss.loads.contains (tk, k.id) ∧ k.due.isSome then { k with due := some (bankDelivery s words) } else k }

/-- The issue after a word that reaches the banks (R174): their words, the loads they serve, no prefix. -/
def bankIss (s : State) (words : List Nat) (tks : List Nat) : Issue :=
  { s.iss with pfx := .none, banks := s.iss.banks ++ words, loads := s.iss.loads ++ tks.map fun tk => (tk, s.ids) }

/-- A load that the banks serve, outstanding until it delivers (R216). -/
def bankAcc (s : State) (d ea : Nat) : Acc :=
  { id := s.ids, kind := .bank, line := none, pkind := 3, acq := false, rel := false, scope := 0, held := [], out := 0, pc := s.iss.pc
    d := d, ea := ea, heldAt := none, recd := false }

/-- The lock that a load leaves in a lane. -/
def LocalWord.lock (w : LocalWord) (s : State) (i : Instr) (l : LaneRef) : Lock :=
  let act := s.iss.lanes.filter (s.active (w.p == 1))
  let on := s.active (w.p == 1) l
  { id := s.ids, d := w.d.toNat, regs := gbit w.d.toNat, left := w.look, active := on
    due := if on then some (bankDelivery s (w.words s i)) else if act ≠ [] then none else some (s.clockOf s.iss.core)
    val := if on then some (W (memRdN s.mem (w.key l) w.size)) else if s.mz then some 0 else none
    fl := 0 }

end Sys2Proof.Claims

open Sys2Proof Machine Claims

/-- R94-R97: a branch, call or return whose targets pass the checks moves its lanes' pc and links where it calls; a lane whose core lacks the word
before its target waits for it and goes nowhere. -/
def Sys2Proof.Claims.Branches : Prop :=
  ∀ i s (b : LaneRef → Option (Word × Bool)), Issues i s → (∀ l, branchWord s l i = some (b l)) →
    ((∀ l ∈ s.iss.lanes, ∀ x, b l = some x → s.targetFault l.tk x.1.toNat = none ∧ s.targetNeeds l.tk x.1.toNat = none) →
      Gives i s fun t => OnlyThreads s t ∧ EachLane s t fun l => branchLane s (b l))
    ∧ ∀ w : LaneRef → CodeWord,
      (∀ l ∈ s.iss.lanes, ∃ x, b l = some x ∧ s.targetFault l.tk x.1.toNat = none ∧ s.targetNeeds l.tk x.1.toNat = some (w l)) →
      Gives i s fun t => t.mem = s.mem ∧ t.crews = s.crews ∧ t.iss.lanes = [] ∧ EachLane s t fun l _ => (s.seek l.tk (w l)).T l.tk

/-- R54, R87-R92, R151: NOP, the prefixes, YIELD, SLEEP, TRAP, BRK, TRAPF without LOGPEND, and EXIT. -/
def Sys2Proof.Claims.ControlWords : Prop :=
  (∀ s, Issues .nop s → exec .nop s = .next { s with iss := { s.iss with pfx := .none } })
  ∧ (∀ f s, Issues (.prefixArith f) s → exec (.prefixArith f) s = .next { s with iss := { s.iss with pfx := .arith f } })
  ∧ (∀ f s, Issues (.prefixMemory f) s → exec (.prefixMemory f) s = .next { s with iss := { s.iss with pfx := .mem f } })
  ∧ (∀ s, Issues .yield s → Gives .yield s fun t => OnlyThreads s t ∧ EachLane s t fun l x =>
      { x with noIssue := max x.noIssue (s.clockOf (coreOfTk l.tk) + 2) })
  ∧ (∀ f s, Issues (.sleep f) s → Gives (.sleep f) s fun t => OnlyThreads s t ∧ EachLane s t fun _ x =>
      { x with st := .blocked, wait := .sleep, sleepAt := some (s.clockOf s.iss.core + 16 * f.i.toNat) })
  ∧ (∀ f s, Issues (.trap f) s → Gives (.trap f) s fun t => t.mem = s.mem ∧ t.crews = s.crews ∧ EachLane s t fun l _ =>
      (s.takeTrap l.tk (softTrap s .software (W f.i.toNat))).T l.tk)
  ∧ (∀ f s, Issues (.brk f) s → Gives (.brk f) s fun t => t.mem = s.mem ∧ t.crews = s.crews ∧ EachLane s t fun _ x =>
      { x with st := .trapped, wait := .none, pc := s.iss.next, esc := some ⟨Cause.software.num, 0, W (f.i.toNat + 0x2000)⟩ })
  ∧ (∀ s, Issues .trapf s → (∀ l ∈ s.iss.lanes, s.logpend s.iss.core (s.rT l.tk).ctx = false) →
      Gives .trapf s fun t => t.mem = s.mem ∧ t.crews = s.crews ∧ EachLane s t fun l x =>
        let f := (s.rT l.tk).flags &&& (s.rT l.tk).trapen
        if f = 0 then x else (s.takeTrap l.tk (softTrap s .arith (f.setWidth 64))).T l.tk)
  ∧ (∀ s, Issues .exit s → Gives .exit s fun t => t.mem = s.mem ∧ ∀ l ∈ s.iss.lanes,
      (t.T l.tk).st = .blocked ∧ ((t.T l.tk).wait = .exitDrain s.iss.pc ∨ (t.T l.tk).wait = .exitDir s.iss.pc)
      ∧ (t.T l.tk).g = (s.T l.tk).g ∧ (t.T l.tk).pc = (s.T l.tk).pc)

/-- R57: a word that fails the checks of classes 2 to 4 has no effect but the trap of its cause, with ADDR and INFO 0, in every issuing lane. -/
def Sys2Proof.Claims.StaticTraps : Prop :=
  ∀ i s c, encode i ≠ none → s.staticFault i = some c → (s.iss.lanes.map (·.tk)).Nodup →
    Gives i s fun t => t.mem = s.mem ∧ t.crews = s.crews ∧ t.iss.lanes = [] ∧ EachLane s t fun l _ =>
      (s.takeTrap l.tk { cause := c, pc := s.iss.pc, addr := 0, info := 0, word := s.iss.widx }).T l.tk

/-- R57, R97-R100, R141, R145, R152, R376: a word that finds an issue-time cause in every issuing lane has no effect but their traps. -/
def Sys2Proof.Claims.LaneTraps : Prop :=
  ∀ i s (c : LaneRef → Cause × Word × Word), Issues i s → (∃ l, laneTrap s l i ≠ none) →
    (∀ l ∈ s.iss.lanes, laneTrap s l i = some (c l)) →
    Gives i s fun t => t.mem = s.mem ∧ t.crews = s.crews ∧ t.iss.lanes = [] ∧ EachLane s t fun l _ =>
      (s.takeTrap l.tk { cause := (c l).1, pc := s.iss.pc, addr := (c l).2.1, info := (c l).2.2, word := s.iss.widx }).T l.tk

/-- R373-R375, R379: a thread without locks takes a trap by pushing the frame and going to HANDLER, once its core holds the word before HANDLER; it
escalates, keeping its frames, when the cause is UNCORRECTABLE, four frames stand, or HANDLER is 0 or no branch target. -/
def Obligations.TakingATrap : Prop :=
  ∀ (s : State) tk (i : TrapInfo), (s.T tk).locks = [] → (s.T tk).ptrap = [] → (s.T tk).st ≠ .trapped →
    let x := s.T tk
    let stops := i.cause = .uncorrectable ∨ x.frames.length ≥ 4 ∨ x.handler = 0 ∨ s.targetFault tk x.handler.toNat ≠ none
    (¬ stops → s.targetNeeds tk x.handler.toNat = none → s.takeTrap tk i = { s with thr := (s.takeTrap tk i).thr } ∧ (s.takeTrap tk i).T tk = { x with
        frames := ⟨i.pc, i.word, i.cause, i.addr, i.info⟩ :: x.frames, view := 0, pc := x.handler, st := .ready, wait := .none
        readyAt := s.clockOf (coreOfTk tk), fresh := none, got := [] })
    ∧ (¬ stops → s.targetNeeds tk x.handler.toNat ≠ none →
        ((s.takeTrap tk i).T tk).st = .blocked ∧ ((s.takeTrap tk i).T tk).ptrap = [i] ∧ ((s.takeTrap tk i).T tk).pc = x.pc)
    ∧ (stops → ((s.takeTrap tk i).T tk).st = .trapped ∧ ((s.takeTrap tk i).T tk).frames = x.frames ∧ ((s.takeTrap tk i).T tk).pc = i.pc
        ∧ ((s.takeTrap tk i).T tk).esc = some ⟨if i.cause ≠ .uncorrectable ∧ x.frames.length ≥ 4 then Cause.trapStackOverflow.num else i.cause.num, i.addr,
            if i.cause ≠ .uncorrectable ∧ x.frames.length ≥ 4 then W i.cause.num else i.info⟩)

/-- R198, R199, R174, R216: LDS and LDP, whose active lanes' offsets all pass, lock the destination in every issuing lane with the bytes that stand at their
offsets; they are outstanding until the banks have served all the words of the rank. -/
def Sys2Proof.Claims.LocalLoads : Prop :=
  ∀ i w s, localWord s i = some (w, false) → Issues i s → w.passes s → s.poison = [] →
    let act := s.iss.lanes.filter (s.active (w.p == 1))
    Gives i s fun t => t = { s with thr := t.thr, ids := s.ids + 1, iss := bankIss s (w.words s i) (act.map (·.tk)) }
      ∧ ∀ tk, t.T tk =
          let x := reached s (w.words s i) tk (s.T tk)
          match s.iss.lanes.find? (·.tk == tk) with
          | some l => { x with locks := x.locks ++ [w.lock s i l]
                               pend := x.pend ++ if s.active (w.p == 1) l then [bankAcc s w.d.toNat (w.ofs l)] else [] }
          | none => x

/-- R198, R177, R179: STS and STP, whose active lanes' offsets all pass, write register D of each active lane in ascending lane order; every other
byte of memory, every thread but the loads that wait for the same banks, and every crew but its marks of written words stay as they are. -/
def Sys2Proof.Claims.LocalStores : Prop :=
  ∀ i w s, localWord s i = some (w, true) → Issues i s → w.passes s → s.poison = [] → Memory.wf s.mem = true →
    Gives i s fun t =>
      let act := s.iss.lanes.filter (s.active (w.p == 1))
      t = { s with mem := t.mem, thr := t.thr, crews := t.crews, iss := bankIss s (w.words s i) [] }
      ∧ (∀ tk, t.T tk = match i with | .sts _ => reached s (w.words s i) tk (s.T tk) | _ => s.T tk)
      ∧ t.mem = act.foldl (fun m l => memWrN m (w.key l) w.size ((s.rT l.tk).gr w.d.toNat).toNat) s.mem
      ∧ (∀ a, (∀ l ∈ act, ¬ (w.key l ≤ a ∧ a < w.key l + w.size)) → memRd t.mem a = memRd s.mem a)
      ∧ (∀ l, act = [l] → memRdN t.mem (w.key l) w.size = ((s.rT l.tk).gr w.d.toNat).toNat % 256 ^ w.size)
      ∧ ∀ c, (t.C c) = { s.C c with bind := (t.C c).bind }

/-- R145: SLD reads 8 bytes of the share into an s, k or g register, SST writes them, where the offset is a multiple of 8 inside the share. -/
def Obligations.ScalarShareWords : Prop :=
  (∀ f s ck, Issues (.sld f) s → s.iss.crew = some ck → s.sOffset ck (s.code f.a s.lowLane.tk) = none →
    let v := W (memRdN s.mem (spadKey (coreOfCk ck) ((s.C ck).spBase + (s.code f.a s.lowLane.tk).toNat)) 8)
    (isG f.d = true → Gives (.sld f) s fun t => OnlyThreads s t ∧ EachLane s t fun _ x => { x with g := x.g.setIfInBounds (f.d.toNat - 184) v })
    ∧ (isG f.d = false → Gives (.sld f) s fun t =>
        t = { s with crews := t.crews, iss := { s.iss with pfx := .none } } ∧ OneCrew s t ck (wrCode f.d v)))
  ∧ ∀ f s ck, Issues (.sst f) s → s.iss.crew = some ck → s.sOffset ck (s.code f.d s.lowLane.tk) = none → Memory.wf s.mem = true →
    Gives (.sst f) s fun t =>
      let k := spadKey (coreOfCk ck) ((s.C ck).spBase + (s.code f.d s.lowLane.tk).toNat)
      t = { s with mem := t.mem, crews := t.crews, iss := { s.iss with pfx := .none } }
      ∧ memRdN t.mem k 8 = (s.code f.a s.lowLane.tk).toNat
      ∧ (∀ a, ¬ (k ≤ a ∧ a < k + 8) → memRd t.mem a = memRd s.mem a)
      ∧ ∀ c, (t.C c) = { s.C c with bind := (t.C c).bind }

namespace Sys2Proof.Claims
open Sys2Proof Machine

/-! ### Full/empty words -/

/-- The full/empty words (R201): operation (0 LDFE, 1 STEF, 2 LDFF), predicate bit, base register, offset, and the register of the value. -/
def feWord : Instr → Option (Nat × BitVec 1 × BitVec 5 × BitVec 5 × BitVec 5 × Nat)
  | .ldfe f => some (0, f.p, f.a, f.o, f.d, f.l.toNat)
  | .stef f => some (1, f.p, f.a, f.o, f.d, 0)
  | .ldff f => some (2, f.p, f.a, f.o, f.d, f.l.toNat)
  | _ => none

/-- The scratchpad key that a lane's offset names in its crew's share (R177). -/
def shareKey (s : State) (a o : BitVec 5) (l : LaneRef) : Nat := spadKey s.iss.core ((s.C s.ck).spBase + ofsOf s a o 8 l)

/-- Whether an access proceeds on EMPTY words `e` (R201): STEF when its word is EMPTY, the loads when it is FULL. -/
def feGo (op : Nat) (e : List Nat) (key : Nat) : Bool := if op = 1 then e.contains key else !e.contains key

/-- One access's effect on memory and on the EMPTY words (R201). -/
def feDo (op : Nat) (m : List Host.Cell × List Nat) (x : Nat × Nat) : List Host.Cell × List Nat :=
  if feGo op m.2 x.1 then
    (if op = 0 then (m.1, x.1 :: m.2) else if op = 1 then (memWrN m.1 x.1 8 x.2, m.2.filter (· != x.1)) else m)
  else m

/-! ### Global memory words -/

/-- A global memory word: predicate bit, size, rights (read, write, seal), tiers it reaches, address, kind of access, operation at the home, the
registers it locks, its destination and lookahead. -/
structure MemWord where
  p : BitVec 1
  size : Nat
  need : Need
  tier : Nat → Bool
  ea : State → LaneRef → Word
  kind : AKind
  op : MOp
  regs : Nat
  d : Nat
  look : Nat

/-- The memory words with their rows (R189-R192, R204, R183). -/
def memWord : Instr → Option MemWord
  | .ld f => load f false false
  | .ldsx f => load f true false
  | .ldnm f => load f false false
  | .ldr f => load f false true
  | .ldrna f => load f false true
  | .st f => store f
  | .stnm f => store f
  | .atomAdd f => atom f 0
  | .atomFadd f => atom f 1
  | .atomMin f => atom f 2
  | .atomMax f => atom f 3
  | .atomAnd f => atom f 4
  | .atomOr f => atom f 5
  | .atomXor f => atom f 6
  | .atomXchg f => atom f 7
  | .atomCas f => atom f 8
  | .atomInc f => atom f 9
  | .atomDec f => atom f 10
  | .atomFmin f => atom f 11
  | .atomFmax f => atom f 12
  | .atomFaddComb f => atom f 13
  | .redAdd f => red f 0
  | .redFadd f => red f 1
  | .redMin f => red f 2
  | .redMax f => red f 3
  | .redAnd f => red f 4
  | .redOr f => red f 5
  | .redXor f => red f 6
  | .redInc f => red f 9
  | .redDec f => red f 10
  | .redFmin f => red f 11
  | .redFmax f => red f 12
  | .redFaddComb f => red f 13
  | _ => none
where
  load (f : LmF) (sx strict : Bool) : Option MemWord :=
    some { p := f.p, size := 2 ^ f.s.toNat, need := ⟨true, false, strict⟩, tier := fun _ => true, ea := fun s l => (s.rT l.tk).gr f.a.toNat + f.o.signExtend 64 * W (2 ^ f.s.toNat)
           kind := .load, op := .load sx, regs := gbit f.d.toNat, d := f.d.toNat, look := f.l.toNat }
  store (f : StF) : Option MemWord :=
    some { p := f.p, size := 2 ^ f.s.toNat, need := ⟨false, true, false⟩, tier := fun _ => true, ea := fun s l => (s.rT l.tk).gr f.a.toNat + f.o.signExtend 64 * W (2 ^ f.s.toNat)
           kind := .store, op := .store, regs := 0, d := f.d.toNat, look := 0 }
  tiers (op n : Nat) : Bool := n ≠ 2 ∨ op = 0 ∨ op = 7 ∨ op = 8
  atom (f : AtomF) (op : Nat) : Option MemWord :=
    some { p := 0, size := if f.t = 1 then 8 else 4, need := ⟨true, true, false⟩, tier := tiers op, ea := fun s l => (s.rT l.tk).gr f.a.toNat
           kind := .atom, op := .atom op (f.t = 1) true false
           regs := gbit f.d.toNat ||| (if op = 1 ∨ 11 ≤ op then flagsBit else 0), d := f.d.toNat, look := f.l.toNat }
  red (f : RedF) (op : Nat) : Option MemWord :=
    some { p := 0, size := if f.t = 1 then 8 else 4, need := ⟨false, true, false⟩, tier := tiers op, ea := fun s l => (s.rT l.tk).gr f.a.toNat
           kind := .store, op := .atom op (f.t = 1) false false, regs := 0, d := 0, look := 0 }

/-- Whether a lane's load departs instead (R70, R185): LD or LDSX of a roaming thread without frames at another home, on a page not sealed. -/
def departs (s : State) (i : Instr) (l : LaneRef) (h : HomeLoc) (e : PermE) : Bool :=
  (match i with | .ld _ | .ldsx _ => true | _ => false) && s.roaming && !e.s && !(h.chip == s.chip && h.core == s.iss.core) && (s.rT l.tk).frames.isEmpty

/-- Whether a lane's access goes to a cached line instead: a load of a sealed page (R171). -/
def cached (w : MemWord) (e : PermE) : Bool := w.kind == .load && e.s

/-- An event on its way to a core, or one that has arrived there: it waits for its lanes, is a frame in the network, or waits to be performed. -/
def Carried (t : State) (e : Ev) (chip core : Nat) : Prop :=
  e ∈ t.agenda ∨ (∃ f ∈ t.flights, f.ev = e ∧ f.chip = chip ∧ f.dst = core) ∨ ∃ o ∈ t.outs, o.2.ev = e ∧ o.2.chip = chip ∧ o.2.core = core

/-- The same, gone: no lane holds it. -/
def Sent (t : State) (e : Ev) (chip core : Nat) : Prop := e ∈ t.agenda ∨ ∃ f ∈ t.flights, f.ev = e ∧ f.chip = chip ∧ f.dst = core

/-- One operation whatever the combining (R192, R207). -/
def sameOp (a b : MOp) : Prop := match a, b with
  | .atom o w r _, .atom o' w' r' _ => o = o' ∧ w = w' ∧ r = r'
  | _, _ => a = b

/-- The address of a lane passed the checks of R183. -/
def okAt (w : MemWord) (s : State) (l : LaneRef) (h : HomeLoc) (e : PermE) : Prop := s.check l (w.ea s l) w.size w.need w.tier = .ok h e

/-- What memory words leave alone: all bytes, the cores, and every crew but its marks of words written back by a release (R178). -/
def MemFrame (s t : State) : Prop :=
  t.mem = s.mem ∧ t.cores = s.cores ∧ t.pages = s.pages ∧ t.reps = s.reps ∧ t.chip = s.chip ∧ t.iss = { s.iss with pfx := .none }
  ∧ ∀ c, t.C c = { s.C c with bind := (t.C c).bind }

end Sys2Proof.Claims

open Sys2Proof Machine Claims

/-- R201-R203: LDFE, STEF and LDFF whose offsets pass, lane after lane: an access proceeds on the FULL or EMPTY word it needs, or joins its bank's
waiting list. -/
def Sys2Proof.Claims.FullEmptyWords : Prop :=
  ∀ i op p a o d la s, feWord i = some (op, p, a, o, d, la) → Issues i s → s.poison = [] →
    let act := s.iss.lanes.filter (s.active (p == 1))
    (∀ l ∈ act, ofsOf s a o 8 l % 8 = 0 ∧ ofsOf s a o 8 l < (s.C s.ck).spSize) →
    let arg (l : LaneRef) : Nat × Nat := (shareKey s a o l, ((s.rT l.tk).gr d.toNat).toNat)
    let words := act.map fun l => ofsOf s a o 8 l / 8
    let was (tk : Nat) : Thr := reached s words tk (s.T tk)
    Gives i s fun t =>
      (t.mem, t.empt) = (act.map arg).foldl (feDo op) (s.mem, s.empt)
      ∧ t = { s with mem := t.mem, empt := t.empt, thr := t.thr, crews := t.crews, fe := t.fe, ids := s.ids + 1
                     iss := { bankIss s words [] with loads := t.iss.loads } }
      ∧ (∀ c, (t.C c) = { s.C c with bind := (t.C c).bind })
      ∧ (∀ tk, tk ∉ s.iss.lanes.map (·.tk) → t.T tk = was tk)
      ∧ ∀ n l, act[n]? = some l →
        let e := ((act.take n).map arg).foldl (feDo op) (s.mem, s.empt)
        if feGo op e.2 (shareKey s a o l) then
          if op = 1 then t.T l.tk = was l.tk
          else (∃ k ∈ (t.T l.tk).locks, k.id = s.ids ∧ k.d = d.toNat ∧ k.left = la ∧ k.val = some (W (memRdN s.mem (shareKey s a o l) 8))
              ∧ k.due = some (bankDelivery s words))
            ∧ (l.tk, s.ids) ∈ t.iss.loads
            ∧ t.T l.tk = { s.T l.tk with locks := (t.T l.tk).locks, pend := (s.T l.tk).pend ++ [bankAcc s d.toNat (ofsOf s a o 8 l)] }
        else (∃ x ∈ (t.fe.get? (feBank s.iss.core (shareKey s a o l))).getD [],
              x.tk = l.tk ∧ x.id = s.ids ∧ x.key = shareKey s a o l ∧ x.op = op ∧ x.joined = s.clockOf s.iss.core ∧ x.data = (if op = 1 then (arg l).2 else 0))
          ∧ if op = 1 then t.T l.tk = { was l.tk with st := .blocked, wait := .fe }
            else (∃ k ∈ (t.T l.tk).locks, k.id = s.ids ∧ k.d = d.toNat ∧ k.due = none) ∧ (∃ b ∈ (t.T l.tk).pend, b.id = s.ids ∧ b.kind = .fe)
              ∧ t.T l.tk = { s.T l.tk with locks := (t.T l.tk).locks, pend := (t.T l.tk).pend }

/-- R201: SETE empties the word of each active lane; R203: a bank performs the oldest waiting access that can proceed, one a cycle. -/
def Sys2Proof.Claims.FullEmptyBank : Prop :=
  (∀ f s, Issues (.sete f) s →
    let act := s.iss.lanes.filter (s.active (f.p == 1))
    (∀ l ∈ act, ofsOf s f.a f.o 8 l % 8 = 0 ∧ ofsOf s f.a f.o 8 l < (s.C s.ck).spSize) →
    let words := act.map fun l => ofsOf s f.a f.o 8 l / 8
    Gives (.sete f) s fun t => t = { s with empt := t.empt, thr := t.thr, iss := bankIss s words [] } ∧ (∀ tk, t.T tk = reached s words tk (s.T tk))
      ∧ ∀ k, k ∈ t.empt ↔ k ∈ s.empt ∨ ∃ l ∈ act, k = shareKey s f.a f.o l)
  ∧ (∀ (s : State) c b, s.fePick (s.clockOf c) ((s.fe.get? (c * 32 + b)).getD []) = none →
      exec .feWaitingAccess (State.carry s (.bank c b)) = .next (State.carry s (.bank c b)))
  ∧ ∀ (s : State) c b w, s.ev = .bank c b → s.fePick (s.clockOf c) ((s.fe.get? (c * 32 + b)).getD []) = some w →
      Gives .feWaitingAccess s fun t =>
        (t.mem, t.empt) = feDo w.op (s.mem, s.empt) (w.key, w.data)
        ∧ (∀ tk, tk ≠ w.tk → t.T tk = s.T tk)
        ∧ (w.op = 1 → (s.T w.tk).ptrap = [] → t.T w.tk = { s.T w.tk with st := .ready, wait := .none, readyAt := s.clockOf (coreOfTk w.tk) })
        ∧ (w.op ≠ 1 → t.T w.tk = { s.T w.tk with locks := (s.T w.tk).locks.map fun k =>
            if k.id = w.id then { k with due := some (s.clockOf c + 4), val := some (W (memRdN s.mem w.key 8)) } else k })

/-- R182-R185, R192, R207: a memory word whose active lanes all pass the checks sends each lane's request toward its home, locks the destination, and
records the access, held behind the earlier ones that R194-R197 name; no byte of memory and no register changes yet. -/
def Obligations.MemoryRequests : Prop :=
  ∀ i w s (h : LaneRef → HomeLoc) (e : LaneRef → PermE), memWord i = some w → Issues i s →
    let act := s.iss.lanes.filter (s.active (w.p == 1))
    (∀ l ∈ act, okAt w s l (h l) (e l) ∧ departs s i l (h l) (e l) = false ∧ cached w (e l) = false) →
    Gives i s fun t => MemFrame s t
      ∧ (∀ tk, tk ∉ s.iss.lanes.map (·.tk) → t.T tk = s.T tk)
      ∧ (∀ l ∈ s.iss.lanes, t.T l.tk = { s.T l.tk with
          pend := (t.T l.tk).pend, posted := (t.T l.tk).posted
          locks := (s.T l.tk).locks ++ if w.regs = 0 then [] else
            [{ id := s.ids, d := w.d, regs := w.regs, left := w.look, active := act.contains l
               due := if act = [] then some (s.clockOf s.iss.core) else none, val := if s.mz ∧ l ∉ act then some 0 else none, fl := 0 }] })
      ∧ ∀ l ∈ act,
        (∃ b ∈ (t.T l.tk).pend, b.id = s.ids ∧ b.kind = w.kind ∧ b.line = some ((w.ea s l).toNat / 128) ∧ b.pkind = (e l).ord ∧ b.pc = s.iss.pc
          ∧ ∀ b' ∈ (s.T l.tk).pend, b'.holds b = true → b'.id ∈ b.held)
        ∧ ∃ r ml, Carried t ⟨r.event, .req r⟩ (h l).chip (h l).core ∧ sameOp r.op w.op ∧ r.ctx = s.iss.ctx ∧ r.home = (h l).core ∧ r.chip = s.chip
          ∧ r.core = s.iss.core ∧ ml ∈ r.lanes ∧ ml.tk = l.tk ∧ ml.id = s.ids ∧ ml.ea = (w.ea s l).toNat ∧ ml.size = w.size ∧ ml.tid = (s.rT l.tk).tid
          ∧ (w.op = .store → ml.data = ((s.rT l.tk).gr w.d).toNat)

/-- R70, R71, R185: LD or LDSX of a roaming thread without frames, at another home on a page not sealed, sends nothing: the thread departs. -/
def Sys2Proof.Claims.MigratingLoads : Prop :=
  ∀ i w s (h : LaneRef → HomeLoc) (e : LaneRef → PermE), memWord i = some w → Issues i s →
    let act := s.iss.lanes.filter (s.active (w.p == 1))
    (∀ l ∈ act, okAt w s l (h l) (e l) ∧ departs s i l (h l) (e l) = true) →
    Gives i s fun t => t.mem = s.mem ∧ ((∀ l ∈ act, (s.T l.tk).kind ≠ 2) → t.flights = s.flights) ∧ ∀ l ∈ act, (s.T l.tk).kind ≠ 2 →
      (∃ g, t.T l.tk = { s.T l.tk with st := .blocked, wait := .depart, mig := some g } ∧ g.ea = (w.ea s l).toNat ∧ g.d = w.d ∧ g.mg = false)
      ∧ ((s.T l.tk).locks = [] → (s.T l.tk).pend = [] → ⟨.knightDeparture, .thread l.tk⟩ ∈ t.agenda)

/-- R171, R173, R190, R223: a load of a sealed page takes a replica's bytes after its hit latency, and is outstanding until then; a hit in the L2 slice
brings the line into the L1 as a miss does, which asks the home for the line; LDRNA brings no line in. -/
def Sys2Proof.Claims.SealedLoads : Prop :=
  ∀ i w s l (h : HomeLoc) (e : PermE), memWord i = some w → w.kind = .load → Issues i s →
    s.iss.lanes.filter (s.active (w.p == 1)) = [l] → okAt w s l h e → e.s = true → (s.T l.tk).pend = [] →
    let ea := (w.ea s l).toNat
    let l1 := s.l1Of s.iss.core (ea / 128)
    let alloc := match i with | .ldrna _ => false | _ => true
    Gives i s fun t => t.mem = s.mem ∧ t.crews = s.crews ∧ t.reps = s.reps ∧ match s.replica s.iss.core s.iss.ctx ea with
      | some (r, n) => (∃ k ∈ (t.T l.tk).locks, k.id = s.ids ∧ k.d = w.d ∧ k.due = some (s.clockOf s.iss.core + n)
          ∧ k.val = some (loadVal (match i with | .ldsx _ => true | _ => false) w.size (r.bytes ea w.size)))
        ∧ (∃ b ∈ (t.T l.tk).pend, b.id = s.ids ∧ b.kind = .load ∧ b.line = some (ea / 128))
        ∧ if r.holder = l1 ∨ alloc = false then t.flights = s.flights ∧ t.agenda = s.agenda
          else ∃ f : Fill, Sent t ⟨.lineFill, .fill f⟩ h.chip h.core ∧ f.holder = some l1 ∧ f.ctx = s.iss.ctx ∧ f.lane.ea = ea
      | none => ∃ f : Fill, Sent t ⟨.lineFill, .fill f⟩ h.chip h.core ∧ f.ctx = s.iss.ctx ∧ f.core = s.iss.core
          ∧ f.holder = (if alloc then some l1 else none) ∧ f.strict = w.need.sealed ∧ f.lane.tk = l.tk ∧ f.lane.ea = ea

/-- R183, R184: a lane whose address fails a check takes the trap of its first cause with ADDR the address; one whose page the permission cache does not
hold waits while a probe goes to the home. -/
def Obligations.MemoryChecks : Prop :=
  (∀ i w s (c : LaneRef → Cause), memWord i = some w → Issues i s →
    (∀ l ∈ s.iss.lanes, s.active (w.p == 1) l = true ∧ s.check l (w.ea s l) w.size w.need w.tier = .fault (c l)) →
    Gives i s fun t => t.mem = s.mem ∧ t.crews = s.crews ∧ t.iss.lanes = []
      ∧ ((∀ l ∈ s.iss.lanes, s.targetNeeds l.tk (s.T l.tk).handler.toNat = none) → t.flights = s.flights) ∧ EachLane s t fun l _ =>
      (s.takeTrap l.tk { cause := c l, pc := s.iss.pc, addr := w.ea s l, info := 0, word := s.iss.widx }).T l.tk)
  ∧ (∀ i w s l p, memWord i = some w → Issues i s → s.iss.lanes = [l] → s.active (w.p == 1) l = true →
      s.check l (w.ea s l) w.size w.need w.tier = .probe p →
      Gives i s fun t => t.mem = s.mem ∧ t.crews = s.crews ∧ t.iss.lanes = []
        ∧ (if p.again = false ∧ ∃ x ∈ s.thr, coreOfTk x.1 = s.iss.core ∧ x.2.ctx = s.iss.ctx ∧ x.2.st = .blocked ∧ x.2.wait = .probe p.chip p.key false
           then t.flights = s.flights ∧ t.agenda = s.agenda else Sent t ⟨.permissionProbe, .probe p⟩ p.chip p.home)
        ∧ t.T l.tk = { s.T l.tk with st := .blocked, wait := .probe p.chip p.key p.again })
  ∧ ∀ (s : State) l ea size n tier,
      (s.check l ea size n tier = .fault .misaligned ↔ bits ea 63 56 = 0 ∧ ea.toNat % size ≠ 0)
      ∧ (bits ea 63 56 ≠ 0 → s.check l ea size n tier = .fault .permission)
      ∧ (bits ea 63 56 = 0 → ea.toNat % size = 0 → s.homeAt s.iss.core s.iss.ctx ea.toNat = none → s.check l ea size n tier = .fault .permission)

namespace Sys2Proof.Claims
open Sys2Proof Machine

/-! ### Homes and answers -/

/-- Only frames in the network, arrived events and the transaction counter differ. -/
def Net (s t : State) : Prop := t = { s with flights := t.flights, agenda := t.agenda, ids := t.ids }

/-- A request of threads whose lanes' addresses are homed at the home it reached, in one page there: the home of the first lane's and the page. -/
def AtHome (s : State) (r : MemReq) (l0 : MLane) (h : HomeLoc) (p : Page) : Prop :=
  r.lanes.head? = some l0 ∧ s.homeOf r.ctx l0.ea = some h ∧ h.chip = s.chip ∧ h.core = r.home ∧ s.pages.get? (h.key r.ctx) = some p
  ∧ ∀ l ∈ r.lanes, l.agent = false ∧ ∃ h', s.homeOf r.ctx l.ea = some h' ∧ h'.key r.ctx = h.key r.ctx

/-- A page that is present and may be read or written as asked (R238, R242). -/
def Grants (p : Page) (rd wr : Bool) : Prop :=
  p.st ≠ .retired ∧ p.st ≠ .unmapped ∧ p.st ≠ .rehoming ∧ (rd = true → p.rd = true) ∧ (wr = true → p.wr = true ∧ p.s = false)

/-- Where the page keeps the byte of an address (R237, R259). -/
def at_ (s : State) (r : MemReq) (l0 : MLane) (h : HomeLoc) (p : Page) (ea : Nat) : Nat := s.byteKey (h.key r.ctx) p (ea - (l0.ea - h.pofs))

/-- The cause with which a lane of a request is refused: a poisoned word of a page that containment has retired escalates its reader (R433). -/
def lost (s : State) (r : MemReq) (l0 : MLane) (h : HomeLoc) (p : Page) (l : MLane) (c : Cause) : Cause :=
  if p.st = .retired ∧ s.poisoned (p.key (coreOfKey (h.key r.ctx)) (l.ea - (l0.ea - h.pofs))) l.size = true then .uncorrectable else c

/-- A lane's answer on its way to the core that asked. -/
def Answered (t : State) (i : Instr) (r : MemReq) (l : MLane) (o : ROut) : Prop := Sent t ⟨i, .resp l.tk l.id o⟩ r.chip r.core

/-- A thread's value delivered: the register and flags, and neither lock nor access left. -/
def Delivered (s t : State) (tk id : Nat) (d : Nat) (v : Option Word) (fl : Flags) : Prop :=
  (t.T tk).g = (match v with | some v => (s.T tk).g.setIfInBounds d v | none => (s.T tk).g) ∧ (t.T tk).flags = (s.T tk).flags ||| fl
  ∧ (∀ k ∈ (t.T tk).locks, k.id ≠ id) ∧ ∀ a ∈ (t.T tk).pend, a.id = id → a.kind = .flush

end Sys2Proof.Claims

open Sys2Proof Machine Claims

/-- R186, R187, R189: a REMOTE_READ of a present page answers each lane with its bytes, little-endian, sign-extended where the word asks; nothing at the
home changes. -/
def Sys2Proof.Claims.HomeReads : Prop :=
  ∀ (s : State) r sx l0 h p, s.ev = .req r → r.op = .load sx → AtHome s r l0 h p → Grants p true false → p.tier ≠ 2 → s.poison = [] →
    Gives .remoteRead s fun t => Net s t ∧ ∀ l ∈ r.lanes, Answered t .readDataResponse r l
      (.data (if sx then BitVec.ofInt 64 (sgn (8 * l.size) (memRdN s.mem (at_ s r l0 h p l.ea) l.size)) else W (memRdN s.mem (at_ s r l0 h p l.ea) l.size)) 0)

/-- R192, R302: a WRITE_REQUEST writes each lane's bytes in ascending lane order, acknowledges every lane and wakes the watches whose word differs; no other
byte changes. An engine's request writes the bytes that it names of its granule. -/
def Sys2Proof.Claims.HomeWrites : Prop :=
  (∀ (s : State) r l h p, s.ev = .req r → r.op = .store → r.lanes = [l] → l.agent = true → l.mode = 0 → s.homeOf r.ctx l.ea = some h → h.chip = s.chip → h.core = r.home →
    s.pages.get? (h.key r.ctx) = some p → Grants p false true → p.tier ≠ 2 → s.poison = [] → Memory.wf s.mem = true →
    let k := at_ s r l h p l.ea
    Gives .writeRequest s fun t => (∀ n, n < l.size → memRd t.mem (k + n) = if l.cmp.testBit n then BitVec.ofNat 8 (l.data / 2 ^ (8 * n)) else memRd s.mem (k + n))
      ∧ (∀ a, ¬ (k ≤ a ∧ a < k + l.size) → memRd t.mem a = memRd s.mem a) ∧ Answered t .ackResponse r l .ack) ∧
  ∀ (s : State) r l0 h p, s.ev = .req r → r.op = .store → AtHome s r l0 h p → Grants p false true → p.tier ≠ 2 → s.poison = [] →
    Gives .writeRequest s fun t =>
      t = { s with mem := t.mem, hooks := t.hooks, watches := t.watches, flights := t.flights, agenda := t.agenda, ids := t.ids }
      ∧ t.mem = r.lanes.foldl (fun m l => memWrN m (at_ s r l0 h p l.ea) l.size l.data) s.mem
      ∧ (Memory.wf s.mem = true → ∀ a, (∀ l ∈ r.lanes, ¬ (at_ s r l0 h p l.ea ≤ a ∧ a < at_ s r l0 h p l.ea + l.size)) → memRd t.mem a = memRd s.mem a)
      ∧ (Memory.wf s.mem = true → r.lanes = [l0] → memRdN t.mem (at_ s r l0 h p l0.ea) l0.size = l0.data % 256 ^ l0.size)
      ∧ ∀ l ∈ r.lanes, Answered t .ackResponse r l .ack

/-- R204, R207, R210: an ATOMIC_REQUEST with no request at the unit's other input applies its lanes' operations one after another to the word; each lane
of an ATOM receives the value before its own, a RED's an acknowledgement; a combined fadd group adds its tree's sum once (R208). -/
def Sys2Proof.Claims.HomeAtomics : Prop :=
  ∀ (s : State) r op w64 ret grp l0 h p, s.ev = .req r → r.op = .atom op w64 ret grp → AtHome s r l0 h p → Grants p ret true → p.tier ≠ 2 → s.poison = [] →
    s.agenda.any (s.otherInput r.home (r.chip == s.chip && r.core == r.home)) = false →
    let k := at_ s r l0 h p l0.ea
    let w := memRdN s.mem k l0.size
    let run (ls : List MLane) : Nat := ls.foldl (fun w l => (atomNew op w64 l.mode w l.data l.cmp).1) w
    let comb := op = 13 ∧ grp = true
    Gives .atomicRequest s fun t =>
      t = { s with mem := t.mem, hooks := t.hooks, watches := t.watches, flights := t.flights, agenda := t.agenda, ids := t.ids }
      ∧ (¬ comb → t.mem = memWrN s.mem k l0.size (run r.lanes)
        ∧ ∀ n l, r.lanes[n]? = some l → let old := run (r.lanes.take n)
          Answered t .ackResponse r l (if ret then .data (if w64 ∨ op = 1 ∨ 11 ≤ op ∧ op ≤ 13 then W old else BitVec.ofInt 64 (sgn 32 old))
            (if op = 1 ∨ 11 ≤ op ∧ op ≤ 13 then (atomNew op w64 l.mode old l.data l.cmp).2 else 0) else .ack))
      ∧ (comb → let F := if w64 then f64F else f32F
        let m := if l0.mode = 6 then 1 else l0.mode
        t.mem = memWrN s.mem k l0.size (addF F m 0 w r.sum).bits
        ∧ ∀ l ∈ r.lanes, if ret then ∃ fl, Answered t .ackResponse r l (.data (W (addF F m 0 w l.data).bits) fl) else Answered t .ackResponse r l .ack)

/-- R218: a WATCH_REQUEST answers a lane whose word already differs; otherwise its home records the watch, while it holds fewer than 256. -/
def Sys2Proof.Claims.HomeWatches : Prop :=
  ∀ (s : State) r l h p, s.ev = .req r → r.op = .watch → r.lanes = [l] → AtHome s r l h p → Grants p true false → p.tier ≠ 2 → s.poison = [] →
    Gives .watchRequest s fun t =>
      if memRdN s.mem (at_ s r l h p l.ea) l.size ≠ l.data % 2 ^ (8 * l.size) ∨ 256 ≤ ((s.watches.get? r.home).getD []).length
      then Net s t ∧ Answered t .ackResponse r l .woken
      else t = { s with watches := t.watches } ∧ t.watches.get? r.home = some ((s.watches.get? r.home).getD [] ++ [⟨r.ctx, r.chip, r.core, l⟩])

/-- R242, R243, R248, R257: a home refuses a request that its entry does not allow and holds one for a page that is not present: a load is told so, a store or
RED goes to the page's side log while the log has room; it holds every access to a page that changes home. -/
def Sys2Proof.Claims.HomeRefusals : Prop :=
  (∀ (s : State) r l0 h p, s.ev = .req r → AtHome s r l0 h p → (∃ sx, r.op = .load sx) → r.core ≠ 0x1ff →
    (p.st = .retired ∨ (p.st ≠ .rehoming ∧ p.rd = false) → Gives .remoteRead s fun t => Net s t
      ∧ ∀ l ∈ r.lanes, Answered t .readDataResponse r l (.refused (lost s r l0 h p l .permission) 0))
    ∧ (p.st = .rehoming → Gives .remoteRead s fun t => t = { s with heldP := t.heldP }
        ∧ (t.heldP.get? (h.key r.ctx)).getD [] = (s.heldP.get? (h.key r.ctx)).getD [] ++ [⟨.remoteRead, .req r⟩])
    ∧ (p.st = .unmapped → p.rd = true → Gives .remoteRead s fun t =>
        t = { s with heldP := t.heldP, flights := t.flights, agenda := t.agenda, ids := t.ids }
        ∧ (t.heldP.get? (h.key r.ctx)).getD [] = (s.heldP.get? (h.key r.ctx)).getD [] ++ [⟨.remoteRead, .req r⟩]
        ∧ ∀ l ∈ r.lanes, Answered t .readDataResponse r l (.heldAt (h.key r.ctx))))
  ∧ ∀ (s : State) r l0 h p, s.ev = .req r → AtHome s r l0 h p → r.op = .store → r.core ≠ 0x1ff → let d := s.dirHome r.ctx
    ((p.st = .retired ∨ (p.st ≠ .rehoming ∧ (p.wr = false ∨ p.s = true))) → Gives .writeRequest s fun t => Net s t
      ∧ ∀ l ∈ r.lanes, Sent t ⟨.sideLogRegistration, .dirMsg r.ctx (.refused ⟨l.tid, l.ea, l.pcw,
          lost s r l0 h p l (if p.st ≠ .retired ∧ p.wr = true then .sealedWrite else .permission), 0⟩ [⟨r.chip, r.core, l.tk, l.id⟩])⟩ d.1 d.2)
    ∧ (p.st = .rehoming → Gives .writeRequest s fun t => t = { s with heldP := t.heldP }
        ∧ (t.heldP.get? (h.key r.ctx)).getD [] = (s.heldP.get? (h.key r.ctx)).getD [] ++ [⟨.writeRequest, .req r⟩])
    ∧ (p.st = .unmapped → p.wr = true → p.s = false → r.lanes = [l0] → s.slogCount r.home < 524288 → Gives .writeRequest s fun t =>
        t.mem = s.mem ∧ t.thr = s.thr ∧ t.pages = s.pages
        ∧ (t.slog.get? (h.key r.ctx)).getD [] = (s.slog.get? (h.key r.ctx)).getD [] ++ [⟨l0.ea, false, l0.size, 0, l0.data, l0.tid, 0, l0.pcw⟩]
        ∧ Sent t ⟨.sideLogRegistration, .dirMsg r.ctx (.entry l0.tid [⟨r.chip, r.core, l0.tk, l0.id⟩])⟩ d.1 d.2)

/-- R56, R71, R185: an answer with data writes the destination of the lock that waits for it and raises the flags; an acknowledgement ends the access;
a result of fixed latency is written when its delivery comes. -/
def Obligations.Answers : Prop :=
  (∀ (s : State) tk id v fl i k, s.ev = .resp tk id (.data v fl) → i = .readDataResponse ∨ i = .ackResponse → tk ≠ 2 ^ 31 → tk ≠ 2 ^ 30 → s.waiter tk id = some tk →
      (s.T tk).cq = none → (s.T tk).locks.find? (·.id == id) = some k →
      Gives i s fun t => t.mem = s.mem ∧ Delivered s t tk id k.d (some v) fl)
  ∧ (∀ (s : State) tk id, s.ev = .resp tk id .ack → tk ≠ 2 ^ 31 → tk ≠ 2 ^ 30 → s.waiter tk id = some tk → (s.T tk).cq = none → (s.T tk).kind ≠ 2 → (s.T tk).st = .ready →
      Gives .ackResponse s fun t => t.mem = s.mem ∧ t.crews = s.crews ∧ (∀ tk', tk' ≠ tk → t.T tk' = s.T tk')
        ∧ t.T tk = { s.T tk with pend := ((s.T tk).pend.filter (·.id != id)).map fun a => { a with held := a.held.filter (· != id) } })
  ∧ (∀ (s : State) tk id k, s.ev = .lock tk id → (s.T tk).locks.find? (·.id == id) = some k →
      Gives .lookaheadResultDelivery s fun t => t.mem = s.mem ∧ Delivered s t tk id k.d k.val k.fl)
  ∧ ∀ (s : State) tk id c info a, s.ev = .resp tk id (.refused c info) → tk ≠ 2 ^ 31 → tk ≠ 2 ^ 30 → s.waiter tk id = some tk → (s.T tk).cq = none →
      (s.T tk).pend.find? (·.id == id) = some a → (s.T tk).ptrap = [] → (s.T tk).st = .ready → (s.T tk).locks.all (·.id == id) = true →
      Gives .ackResponse s fun t => t.mem = s.mem ∧ (t.T tk).g = (s.T tk).g ∧
        (((s.T tk).frames.length < 4 ∧ (s.T tk).handler ≠ 0 ∧ s.targetFault tk (s.T tk).handler.toNat = none ∧ s.targetNeeds tk (s.T tk).handler.toNat = none
            ∧ (∀ b ∈ (s.T tk).pend, b.acq = false) ∧ c ≠ .uncorrectable) →
          ∃ f, (t.T tk).frames = f :: (s.T tk).frames ∧ f.cause = c ∧ f.addr = W a.ea ∧ f.pc = a.pc ∧ (t.T tk).pc = (s.T tk).handler)

namespace Sys2Proof.Claims
open Sys2Proof Machine

/-! ### Threads -/

/-- A register file that carries some registers and zeros. -/
def carriedRegs (l : List (Nat × Word)) : Vector Word 32 := l.foldl (fun g r => g.setIfInBounds r.1 r.2) (Vector.replicate 32 0)

/-- The thread that a knight carries, before its load or MIGR finishes (R72, R73). -/
def carriedThread (s : State) (k : Knight) (x : Thr) : Prop :=
  x.ctx = k.ctx ∧ x.pdepth = k.pdepth ∧ x.pent = k.pent ∧ x.flags = k.flags ∧ x.trapen = k.trapen ∧ x.rmode = k.round ∧ x.srng = k.srng ∧ x.carry = k.carry
  ∧ x.number = k.number ∧ x.posted = k.posted ∧ x.ktab = BitVec.ofNat 12 k.kern ∧ x.kind = (if k.pw then 1 else 0) ∧ x.frames = [] ∧ x.view = 0
  ∧ (∀ e, s.kent k.ctx k.kern = some e → x.pc = BitVec.ofNat 56 (e.code.toNat + 4 * k.pcw) ∧ x.handler = e.trapv
      ∧ x.qid = BitVec.ofNat 6 e.qid ∧ x.pkt = BitVec.ofNat 32 e.pkt)

/-- A created thread in its slot, READY (R83, R214, R322). -/
def createdThread (s : State) (c : Spawn) (tk : Nat) (x : Thr) : Prop :=
  x.st = .ready ∧ x.ctx = c.ctx ∧ x.g = ((Vector.replicate 32 0).setIfInBounds 0 c.g0).setIfInBounds 1 c.g1 ∧ x.srng = c.srng ∧ x.number = c.number
  ∧ x.kind = (if c.ln then 0 else 1) ∧ x.pdepth = 0 ∧ x.flags = 0 ∧ x.frames = [] ∧ x.locks = [] ∧ x.pend = [] ∧ x.readyAt = s.clockOf (coreOfTk tk)
  ∧ ∀ e, s.kent c.ctx c.kern = some e → x.pc = BitVec.ofNat 56 (e.code.toNat + 4 * c.pcw) ∧ x.trapen = e.trapen ∧ x.rmode = e.round ∧ x.carry = e.carry
      ∧ x.handler = e.trapv

/-- An address is homed at a core of this chip, or nowhere. -/
def HomedHere (s : State) (ctx ea core : Nat) : Prop := ∀ h, homeIn (s.ctx ctx).ptab ea = some h → h.chip = s.chip ∧ h.core = core

/-- A record is parked: its context has not ended and is not ACTIVE at the core, has something parked there, or finds no slot; the area has room. -/
def Parks (s : State) (core : Nat) (r : ORec) : Prop :=
  s.ctxGone r.ctx = false ∧ (s.ctxActive core r.ctx = false ∨ s.ovfOf core r.ctx ≠ [] ∨ s.freeSlot core = none) ∧ s.unitsUsed core none + r.units ≤ 2 ^ 21

/-- A record that is taken in at once: its context has not ended, is ACTIVE at the core with nothing parked, and a slot is free. -/
def Taken (s : State) (core ctx n : Nat) : Prop :=
  s.ctxGone ctx = false ∧ s.ctxActive core ctx = true ∧ s.ovfOf core ctx = [] ∧ s.freeSlot core = some n

/-- HOMEQ's value (R212): bit 62 says that the home is this core; chip and core; bit 63 alone where the address has no home. -/
def homeqVal (s : State) (core ctx : Nat) (a : Word) : Word :=
  match (if bits a 63 56 ≠ 0 then none else s.homeAt core ctx a.toNat) with
  | none => 0x8000000000000000
  | some h => W ((if h.chip = s.chip ∧ h.core = core then 2 ^ 62 else 0) + h.chip * 2 ^ 32 + h.core)

end Sys2Proof.Claims

open Sys2Proof Machine Claims

/-- R70-R77, R257: a drained thread departs as a knight with its masked registers, unless a trap waits for it; at its home it takes a slot and performs its load
or finishes its MIGR, or is parked at the tail of its context's list; at a former home it is forwarded. -/
def Sys2Proof.Claims.Knights : Prop :=
  (∀ (s : State) tk m h, s.ev = .thread tk → (s.T tk).mig = some m → (s.T tk).st = .blocked → (s.T tk).wait = .depart → (s.T tk).locks = [] →
      (s.T tk).pend = [] → s.homeAt (coreOfTk tk) (s.T tk).ctx m.ea = some h →
      ((s.T tk).ptrap ≠ [] → Gives .knightDeparture s fun t => t.mem = s.mem ∧ (t.T tk).mig = none ∧ (∀ j, j ≠ tk → t.T j = s.T j)
        ∧ (m.mg = true → (t.T tk).g = (s.T tk).g.setIfInBounds m.d (homeqVal s (coreOfTk tk) (s.T tk).ctx (W m.ea))))
      ∧ ((s.T tk).ptrap = [] → Gives .knightDeparture s fun t => t.mem = s.mem ∧ t.thr = s.thr.del tk ∧ ∃ k : Knight, Sent t ⟨.knightArrival, .knight h.core k⟩ h.chip h.core
        ∧ k.mig = m ∧ k.ctx = (s.T tk).ctx ∧ k.kern = (s.T tk).ktab.toNat ∧ k.number = (s.T tk).number ∧ k.pw = ((s.T tk).kind == 1)
        ∧ k.srng = (s.T tk).srng ∧ k.flags = (s.T tk).flags ∧ k.pdepth = (s.T tk).pdepth ∧ k.pent = (s.T tk).pent ∧ k.trapen = (s.T tk).trapen
        ∧ k.round = (s.T tk).rmode ∧ k.carry = (s.T tk).carry ∧ k.posted = (s.T tk).posted
        ∧ k.pcw = ((s.T tk).pc.toNat - s.codeBase (s.T tk)) / 4 % 2 ^ 28
        ∧ ∀ r v, (r, v) ∈ k.regs ↔ r < 32 ∧ (s.T tk).carry.getLsbD r = true ∧ r ≠ m.d ∧ v = (s.T tk).gr r))
  ∧ (∀ (s : State) core k n, s.ev = .knight core k → HomedHere s k.ctx k.mig.ea core → Taken s core k.ctx n →
      Gives .knightArrival s fun t => let tk := tkOf core (s.core core).active n
        t.mem = s.mem ∧ (∀ j, j ≠ tk → t.T j = s.T j) ∧ carriedThread s k (t.T tk)
        ∧ (k.mig.mg = true → (t.T tk).st = .ready ∧ (t.T tk).g = (carriedRegs k.regs).setIfInBounds k.mig.d (homeqVal s core k.ctx (W k.mig.ea)))
        ∧ (k.mig.mg = false → (t.T tk).st = .blocked ∧ (t.T tk).g = carriedRegs k.regs ∧ ∃ r l, ⟨.remoteRead, .req r⟩ ∈ t.agenda ∧ r.op = .load k.mig.sx
            ∧ r.lanes = [l] ∧ l.tk = tk ∧ l.ea = k.mig.ea ∧ l.size = 2 ^ k.mig.sz ∧ ∃ c ∈ (t.T tk).locks, c.id = l.id ∧ c.d = k.mig.d))
  ∧ (∀ (s : State) core k, s.ev = .knight core k → HomedHere s k.ctx k.mig.ea core → Parks s core (.knight k) →
      Gives .knightArrival s fun t => t.mem = s.mem ∧ t.thr = s.thr ∧ t.ovfOf core k.ctx = s.ovfOf core k.ctx ++ [(.knight k, false)])
  ∧ ∀ (s : State) core k h, s.ev = .knight core k → homeIn (s.ctx k.ctx).ptab k.mig.ea = some h → ¬ (h.chip = s.chip ∧ h.core = core) →
      Gives .knightArrival s fun t => t.mem = s.mem ∧ t.thr = s.thr ∧ Sent t ⟨.homeChangeForward, .fwd s.chip core .knightArrival (.knight h.core k)⟩ h.chip h.core

/-- R83, R214, R322, R352, R74-R77: SPAWN counts and numbers a pawn for each issuing lane, draws from its generator, and keeps the creation record behind the
lane's earlier writes; the record leaves for the home of its address, becomes a thread there, reported to the tempo agent if it is a pawn, or is parked or
forwarded; the first parked record of a context takes a free slot. -/
def Sys2Proof.Claims.Pawns : Prop :=
  (∀ f s (kern : BitVec 12) (h : LaneRef → HomeLoc), Issues (.spawn f) s →
      let a (l : LaneRef) : Word := (s.rT l.tk).gr f.a.toNat
      let p (l : LaneRef) : Nat := ((s.rT l.tk).gr f.d.toNat).toNat
      (∀ l ∈ s.iss.lanes, (s.rT l.tk).ctx = s.iss.ctx ∧ (s.rT l.tk).ktab = kern ∧ p l % 4 = 0 ∧ s.inCode (s.rT l.tk) (p l) = true ∧ p l < 2 ^ 56
        ∧ bits (a l) 63 56 = 0 ∧ s.homeAt s.iss.core s.iss.ctx (a l).toNat = some (h l)) →
      let pk := (s.iss.core * 64 + s.iss.ctx) * 4096 + kern.toNat
      let num (k : Nat) : Nat := Nat.repeat (fun n => (n + 1) % 2 ^ 23) k ((s.pawns.get? pk).getD 0)
      Gives (.spawn f) s fun t => t.mem = s.mem ∧ t.crews = s.crews ∧ t.spawned = s.spawned ++ s.iss.lanes.map (fun l => (s.iss.ctx, (s.rT l.tk).tid))
        ∧ (s.iss.lanes ≠ [] → t.pawns.get? pk = some (num s.iss.lanes.length)) ∧ (∀ j, j ≠ pk → t.pawns.get? j = s.pawns.get? j)
        ∧ (∀ tk, tk ∉ s.iss.lanes.map (·.tk) → t.T tk = s.T tk)
        ∧ ∀ k l, s.iss.lanes[k]? = some l →
          t.T l.tk = { s.T l.tk with srng := (nextDraw (s.drawT l.tk).srng).1, pend := (t.T l.tk).pend }
          ∧ ∃ (c : Spawn) (id : Nat), Carried t ⟨.spawnMessageSend, .spawn (h l).chip (h l).core l.tk id c⟩ s.chip s.iss.core ∧ c.g0 = a l
            ∧ c.g1 = (s.rT l.tk).gr f.b.toNat ∧ c.ln = false ∧ c.ctx = s.iss.ctx ∧ c.kern = kern.toNat ∧ c.srng = splitSeed (s.drawT l.tk).srng (a l)
            ∧ c.addr = (a l).toNat ∧ c.pcw = (p l - s.codeBase (s.rT l.tk)) / 4 ∧ c.number = BitVec.ofNat 32 (s.iss.core * 2 ^ 23 + num k)
            ∧ ∃ b ∈ (t.T l.tk).pend, b.id = id ∧ b.kind = .spawn ∧ ∀ b' ∈ (s.T l.tk).pend, b'.kind = .store ∨ b'.kind = .atom → b'.id ∈ b.held)
  ∧ (∀ (s : State) chip core tk id c, s.ev = .spawn chip core tk id c → (s.T tk).waiting = false → (s.T tk).kind ≠ 2 →
      Gives .spawnMessageSend s fun t => t.mem = s.mem ∧ Sent t ⟨.spawnRecordArrival, .spawn chip core tk id c⟩ chip core
        ∧ (∀ a ∈ (t.T tk).pend, a.id ≠ id) ∧ (t.T tk).g = (s.T tk).g)
  ∧ (∀ (s : State) chip core tk id c, s.ev = .spawn chip core tk id c → HomedHere s c.ctx c.addr core → Parks s core (.spawn c) →
      Gives .spawnRecordArrival s fun t => t.mem = s.mem ∧ t.thr = s.thr ∧ t.ovfOf core c.ctx = s.ovfOf core c.ctx ++ [(.spawn c, false)])
  ∧ (∀ (s : State) chip core tk id c h, s.ev = .spawn chip core tk id c → homeIn (s.ctx c.ctx).ptab c.addr = some h → ¬ (h.chip = s.chip ∧ h.core = core) →
      Gives .spawnRecordArrival s fun t => t.mem = s.mem ∧ t.thr = s.thr
        ∧ Sent t ⟨.homeChangeForward, .fwd s.chip core .spawnRecordArrival (.spawn h.chip h.core tk id c)⟩ h.chip h.core)
  ∧ (∀ (s : State) chip core tk id c n, s.ev = .spawn chip core tk id c → HomedHere s c.ctx c.addr core → Taken s core c.ctx n →
      Gives .spawnRecordArrival s fun t => t.mem = s.mem ∧ createdThread s c (tkOf core (s.core core).active n) (t.T (tkOf core (s.core core).active n))
        ∧ (∀ j, j ≠ tkOf core (s.core core).active n → t.T j = s.T j)
        ∧ (c.ln = false → Sent t ⟨.tempoParticipantNotice, .tnote c.ctx c.kern true c.chip c.core ⟨c.kern, 1, c.number.toNat⟩ (some c.tid) none⟩
            (s.kernChip c.ctx c.kern) 504))
  ∧ ∀ (s : State) core ctx n r b rest, s.ev = .core core → (s.core core).bank.getD (s.core core).active none = some ctx → s.freeSlot core = some n →
      s.ovfOf core ctx = (r, b) :: rest → s.ctxActive core ctx = true →
      Gives .overflowRecordReload s fun t => t.mem = s.mem ∧ t.ovf = (s.setOvf core ctx rest).ovf
        ∧ (∀ c, r = .spawn c → createdThread s c (tkOf core (s.core core).active n) (t.T (tkOf core (s.core core).active n)))
        ∧ ∀ k, r = .knight k → carriedThread s k (t.T (tkOf core (s.core core).active n))

/-- R212, R213: HOMEQ says where an address lives; MIGR does the same at its home, traps from a thread with frames, and otherwise departs. -/
def Sys2Proof.Claims.WhereAndMove : Prop :=
  (∀ f s, Issues (.homeq f) s → Gives (.homeq f) s fun t => OnlyThreads s t ∧ EachLane s t fun l x =>
      { x with g := x.g.setIfInBounds f.d.toNat (homeqVal s s.iss.core s.iss.ctx ((s.rT l.tk).gr f.a.toNat)) })
  ∧ (∀ f s, Issues (.migr f) s → (∀ l ∈ s.iss.lanes, ∃ h, bits ((s.rT l.tk).gr f.a.toNat) 63 56 = 0
        ∧ s.homeAt s.iss.core s.iss.ctx ((s.rT l.tk).gr f.a.toNat).toNat = some h ∧ h.chip = s.chip ∧ h.core = s.iss.core) →
      Gives (.migr f) s fun t => OnlyThreads s t ∧ EachLane s t fun l x =>
        { x with g := x.g.setIfInBounds f.d.toNat (homeqVal s s.iss.core s.iss.ctx ((s.rT l.tk).gr f.a.toNat)) })
  ∧ ∀ f s l h, Issues (.migr f) s → s.iss.lanes = [l] → let a := (s.rT l.tk).gr f.a.toNat
      bits a 63 56 = 0 → s.homeAt s.iss.core s.iss.ctx a.toNat = some h → ¬ (h.chip = s.chip ∧ h.core = s.iss.core) →
      Gives (.migr f) s fun t => t.mem = s.mem ∧
        if (s.rT l.tk).frames ≠ [] then t.T l.tk =
            (s.takeTrap l.tk { cause := .permission, pc := s.iss.pc, addr := a, info := 1, word := s.iss.widx }).T l.tk
        else ∃ m, t.T l.tk = { s.T l.tk with st := .blocked, wait := .depart, mig := some m } ∧ m.mg = true ∧ m.ea = a.toNat ∧ m.d = f.d.toNat
            ∧ ((s.T l.tk).locks = [] → (s.T l.tk).pend = [] → ⟨.knightDeparture, .thread l.tk⟩ ∈ t.agenda)

/-- R67, R88, R92, R138, R374, R352: the EXIT drain frees a roaming thread's slot or retires a crew's lane; a trap that waited for locks is taken; a sleeper
wakes at its deadline; the tempo agent counts participants, and hears of a unit's retirement once its pawns have been added. -/
def Sys2Proof.Claims.ThreadEvents : Prop :=
  (∀ (s : State) tk pc, s.ev = .thread tk → (s.T tk).st = .blocked → (s.T tk).wait = .exitDrain pc → (s.T tk).pend = [] → (s.T tk).locks = [] →
      (s.T tk).kind ≠ 2 → (s.T tk).fw = false → (s.T tk).dying = false → s.spawnsOut (s.T tk).ctx (s.T tk).tid = false →
      Gives .exitDrainComplete s fun t => t.mem = s.mem ∧ t.thr = s.thr.del tk ∧ t.crews = s.crews
        ∧ Sent t ⟨.tempoParticipantNotice, .tnote (s.T tk).ctx (s.T tk).ktab.toNat false s.chip (coreOfTk tk) (s.T tk).tid none none⟩
            (s.kernChip (s.T tk).ctx (s.T tk).ktab.toNat) 504)
  ∧ (∀ (s : State) tk pc, s.ev = .thread tk → (s.T tk).st = .blocked → (s.T tk).wait = .exitDrain pc → (s.T tk).pend = [] → (s.T tk).locks = [] →
      (s.T tk).kind = 2 → (s.T tk).dying = false → (s.C (ckOfTk tk)).live ≠ BitVec.ofNat 32 (2 ^ (slotOfTk tk % 32)) →
      Gives .exitDrainComplete s fun t => t.mem = s.mem ∧ (t.T tk).st = .retired
        ∧ (t.C (ckOfTk tk)).live = (s.C (ckOfTk tk)).live &&& ~~~ BitVec.ofNat 32 (2 ^ (slotOfTk tk % 32)))
  ∧ (∀ (s : State) tk i, s.ev = .thread tk → (s.T tk).st = .blocked → (s.T tk).wait = .trap → (s.T tk).locks = [] → (s.T tk).ptrap = [i] →
      i.cause ≠ .uncorrectable → (s.T tk).frames.length < 4 → (s.T tk).handler ≠ 0 → s.targetFault tk (s.T tk).handler.toNat = none →
      s.targetNeeds tk (s.T tk).handler.toNat = none → Gives .takeTrap s fun t => t = { s with thr := t.thr } ∧ (∀ j, j ≠ tk → t.T j = s.T j) ∧ t.T tk = { s.T tk with
        frames := ⟨i.pc, i.word, i.cause, i.addr, i.info⟩ :: (s.T tk).frames, view := 0, pc := (s.T tk).handler, st := .ready, wait := .none, ptrap := []
        readyAt := s.clockOf (coreOfTk tk), fresh := none, got := [] })
  ∧ (∀ (s : State) tk d, s.ev = .thread tk → (s.T tk).sleepAt = some d → (s.T tk).st = .blocked → (s.T tk).wait = .sleep → (s.T tk).ptrap = [] →
      Gives .sleepDeadline s fun t => t = { s with thr := t.thr } ∧ (∀ j, j ≠ tk → t.T j = s.T j)
        ∧ t.T tk = if d ≤ s.clockOf (coreOfTk tk) then
            { s.T tk with sleepAt := none, st := .ready, wait := .none, readyAt := s.clockOf (coreOfTk tk) } else s.T tk)
  ∧ (∀ (s : State) ctx kern core p i, s.ev = .tnote ctx kern true s.chip core p (some i) none → (s.tagent ctx kern).gone = [] →
      Gives .tempoParticipantNotice s fun t => t.thr = s.thr ∧ t.mem = s.mem ∧ (t.tagent ctx kern).live = (s.tagent ctx kern).live + 1
        ∧ Sent t ⟨.ackResponse, .tnote ctx kern true s.chip core i none none⟩ s.chip core)
  ∧ (∀ (s : State) ctx kern core p f, s.ev = .tnote ctx kern false s.chip core p none f → s.spawnsOut ctx p = true →
      Gives .tempoParticipantNotice s fun t => t = { s with agenda := s.agenda ++ [⟨.tempoParticipantNotice, s.ev⟩] })
  ∧ ∀ (s : State) ctx kern chip core p f, s.ev = .tnote ctx kern false chip core p none f → p.kind ≠ 1 →
      (chip = s.chip → s.spawnsOut ctx p = false ∧ s.kernChip ctx kern = s.chip) →
      Gives .tempoParticipantNotice s fun t => t.thr = s.thr ∧ t.mem = s.mem ∧ (t.tagent ctx kern).live = (s.tagent ctx kern).live - 1

namespace Sys2Proof.Claims
open Sys2Proof Machine

/-! ### Seals, line fills and probes -/

/-- A home's answer to a SEAL or UNSEAL, on its way to the issuing core. -/
def SealAnswered (t : State) (q : SealQ) (o : ROut) : Prop := Sent t ⟨.sealAnswer, .sealAns q o⟩ q.chip q.core

/-- A home's answer to a line fill. -/
def FillAnswered (t : State) (f : Fill) (o : ROut) (data : Nat) (tok : Bool) (key : Nat) : Prop :=
  Sent t ⟨.readDataResponse, .fillData f o data tok key⟩ f.chip f.core

end Sys2Proof.Claims

open Sys2Proof Machine Claims

/-- R215-R217: FENCE blocks a thread until what it waits for is done, except at THREAD scope; WAITW sends a watch for each active lane, which blocks. -/
def Obligations.FenceAndWatch : Prop :=
  (∀ f s, Issues (.fence f) s →
    (∀ l ∈ s.iss.lanes, (s.T l.tk).ptrap = [] ∧ ((s.T l.tk).kind = 2 → ∀ b ∈ (s.C (ckOfTk l.tk)).bind, b.wb = true → b.marks = [])) →
    Gives (.fence f) s fun t => t.mem = s.mem ∧ (∀ tk, tk ∉ s.iss.lanes.map (·.tk) → t.T tk = s.T tk) ∧ ∀ l ∈ s.iss.lanes,
      if f.s = 0 then t.T l.tk = s.T l.tk
      else if (if f.d = 1 then (s.T l.tk).noLoads = true else (s.T l.tk).pend = []) ∧ ¬ (f.d ≠ 1 ∧ f.s = 5 ∧ (s.T l.tk).posted ≠ []) then
        t.T l.tk = { s.T l.tk with st := .ready, wait := .none, readyAt := s.clockOf (coreOfTk l.tk) }
      else (t.T l.tk).st = .blocked ∧ (t.T l.tk).wait = .fence f.d.toNat f.s.toNat ∧ (t.T l.tk).g = (s.T l.tk).g ∧ (t.T l.tk).pc = (s.T l.tk).pc)
  ∧ ∀ f s (h : LaneRef → HomeLoc) (e : LaneRef → PermE), Issues (.waitw f) s →
      let size := if f.s = 1 then 8 else 4
      let ea (l : LaneRef) : Word := (s.rT l.tk).gr f.a.toNat + f.o.signExtend 64 * W size
      let act := s.iss.lanes.filter (s.active (f.p == 1))
      (∀ l ∈ act, s.check l (ea l) size ⟨true, false, false⟩ (fun _ => true) = .ok (h l) (e l)) →
      Gives (.waitw f) s fun t => MemFrame s t ∧ (∀ tk, tk ∉ act.map (·.tk) → t.T tk = s.T tk) ∧ ∀ l ∈ act,
        t.T l.tk = { s.T l.tk with st := .blocked, wait := .watch, pend := (t.T l.tk).pend, posted := (t.T l.tk).posted }
        ∧ (∃ b ∈ (t.T l.tk).pend, b.id = s.ids ∧ b.kind = .watch)
        ∧ ∃ r ml, Carried t ⟨.watchRequest, .req r⟩ (h l).chip (h l).core ∧ r.op = .watch ∧ r.home = (h l).core ∧ r.lanes = [ml] ∧ ml.tk = l.tk
          ∧ ml.ea = (ea l).toNat ∧ ml.size = size ∧ ml.data = ((s.rT l.tk).gr f.d.toNat).toNat

/-- R249-R251: SEAL and UNSEAL: a length of 0 does nothing, a range outside one region traps at its address, and otherwise the lane waits for the
homes of the range's pages; the last answer lets it go on, or trap where a page was refused. -/
def Sys2Proof.Claims.SealWords : Prop :=
  (∀ f un s, let i : Instr := if un then .unseal f else .seal f
    let tab := s.tabOf s.iss.core s.iss.ctx
    let a (l : LaneRef) : Word := (s.rT l.tk).gr f.a.toNat
    let n (l : LaneRef) : Nat := ((s.rT l.tk).gr f.d.toNat).toNat
    Issues i s →
    ((∀ l ∈ s.iss.lanes, s.active (f.p == 1) l = true → bits (a l) 63 56 = 0 ∧ inRegion tab (a l).toNat (n l) = true ∧ n l = 0) →
      exec i s = .next { s with iss := { s.iss with pfx := .none } })
    ∧ ((∀ l ∈ s.iss.lanes, s.active (f.p == 1) l = true ∧ ¬ (bits (a l) 63 56 = 0 ∧ inRegion tab (a l).toNat (n l) = true)) →
      Gives i s fun t => t.mem = s.mem ∧ EachLane s t fun l _ =>
        (s.takeTrap l.tk { cause := .permission, pc := s.iss.pc, addr := a l, info := 0, word := s.iss.widx }).T l.tk)
    ∧ ((∀ l ∈ s.iss.lanes, s.active (f.p == 1) l = true → bits (a l) 63 56 = 0 ∧ inRegion tab (a l).toNat (n l) = true ∧ n l ≠ 0) →
      Gives i s fun t => t.mem = s.mem ∧ (∀ tk, tk ∉ s.iss.lanes.map (·.tk) → t.T tk = s.T tk) ∧ ∀ l ∈ s.iss.lanes,
        if s.active (f.p == 1) l then
          (t.T l.tk).st = .blocked ∧ (t.T l.tk).wait = .pages ∧ (t.T l.tk).g = (s.T l.tk).g
          ∧ ∀ p ∈ s.pagesOf tab s.iss.ctx (a l).toNat (n l), ∃ q : SealQ,
              Carried t ⟨if un then .unsealAtHome else .sealAtHome, .seal q⟩ p.1.chip p.1.core ∧ q.key = p.1.key s.iss.ctx ∧ q.addr = p.2 ∧ q.tk = l.tk
              ∧ q.un = un ∧ ∃ b ∈ (t.T l.tk).pend, b.id = q.id ∧ b.kind = .seal
        else t.T l.tk = s.T l.tk))
  ∧ (∀ (s : State) q, s.ev = .sealAns q .ack → (s.T q.tk).st = .blocked → (s.T q.tk).wait = .pages → (s.T q.tk).ptrap = [] →
      (∀ a ∈ (s.T q.tk).pend, a.kind = .seal → a.id = q.id) →
      Gives .sealAnswer s fun t => t.mem = s.mem ∧ (t.T q.tk).st = .ready ∧ (t.T q.tk).g = (s.T q.tk).g
        ∧ (q.un = true → ∀ h, homeIn (s.tabOf q.core q.ctx) q.addr = some h → ∀ e ∈ (t.core q.core).perm, e.ctx = q.ctx → e.key = tagOfKey (h.key q.ctx) →
            e.chip = q.hchip → e.s = false))
  ∧ ∀ (s : State) q c info a, s.ev = .sealAns q (.refused c info) → (s.T q.tk).st = .blocked → (s.T q.tk).wait = .pages → (s.T q.tk).ptrap = [] →
      (s.T q.tk).locks = [] → (s.T q.tk).pend = [a] → a.id = q.id → a.kind = .seal → c = .permission →
      Gives .sealAnswer s fun t => t.mem = s.mem ∧ t.T q.tk =
        (({ s with thr := s.thr.set q.tk { s.T q.tk with pend := [] } } : State).takeTrap q.tk
          { cause := c, pc := a.pc, addr := W a.ea, info := 0, word := 0 }).T q.tk

/-- R250, R254: SEAL at a home seals a MAPPED page whose frame no other entry maps, holds the message of a page that is not present, and refuses one
without the right; R251: UNSEAL of a SEALED page recalls its lines, and of a MAPPED page is answered at once; R257: a message that reaches a former home is
forwarded. -/
def Sys2Proof.Claims.SealHomes : Prop :=
  (∀ (s : State) q h p, s.ev = .seal q → s.homeOf q.ctx q.addr = some h → h.chip = s.chip → h.core = q.home → s.pages.get? (h.key q.ctx) = some p →
    let key := h.key q.ctx
    let r : SealQ := { q with key := key }
    (p.st = .mapped → p.wr = true → s.frameShared key p = false → Gives .sealAtHome s fun t =>
      t = { s with pages := t.pages, flights := t.flights, agenda := t.agenda, ids := t.ids } ∧ SealAnswered t r .ack
      ∧ t.pages.get? key = some { p with st := .sealed, s := true } ∧ ∀ k, k ≠ key → t.pages.get? k = s.pages.get? k)
    ∧ ((p.wr = false ∨ p.st = .retired ∨ s.frameShared key p = true) → Gives .sealAtHome s fun t => Net s t ∧ SealAnswered t r (.refused .permission 0))
    ∧ (p.st = .unmapped → p.wr = true → Gives .sealAtHome s fun t => t.pages = s.pages ∧ SealAnswered t r (.heldAt key)
      ∧ (t.heldP.get? key).getD [] = (s.heldP.get? key).getD [] ++ [⟨.sealAtHome, .seal r⟩])
    ∧ (p.st = .mapped → p.wr = true → Gives .unsealAtHome s fun t => Net s t ∧ SealAnswered t r .ack)
    ∧ ((p.wr = false ∨ p.st = .retired) → Gives .unsealAtHome s fun t => Net s t ∧ SealAnswered t r (.refused .permission 0))
    ∧ (p.st = .sealed → p.wr = true → 0 < p.tokens → Gives .unsealAtHome s fun t => t.mem = s.mem ∧ t.thr = s.thr
        ∧ t.pages.get? key = some { p with st := .unsealing }
        ∧ (∀ i, i < 96 → let c := dieOf (coreOfKey key) * 96 + i
            Sent t ⟨.recall, .n2 key c⟩ s.chip c)
        ∧ ∀ i, i < 24 → let d := dieOf (coreOfKey key)
            Sent t ⟨.recall, .n2 key (1000 + d * 24 + i)⟩ s.chip (d * 96 + 4 * i)))
  ∧ ∀ (s : State) (un : Bool) q h, s.ev = .seal q → s.homeOf q.ctx q.addr = some h → ¬ (h.chip = s.chip ∧ h.core = q.home) →
    let i : Instr := if un then .unsealAtHome else .sealAtHome
    Gives i s fun t => t.mem = s.mem ∧ t.pages = s.pages ∧ t.thr = s.thr
      ∧ Sent t ⟨.homeChangeForward, .fwd s.chip q.home i (.seal { q with home := h.core, hchip := h.chip, key := h.key q.ctx })⟩ h.chip h.core

/-- R171, R190, R253, R58: a recalled holder drops the page's lines and returns their tokens; the last token makes the page MAPPED and answers its UNSEALs; a
line fill of a SEALED page carries the bytes of the line that the home holds, with one token for a cache of the home's own die; nothing is allocated from a
page that is UNSEALING, and a page that is not sealed gives the one value asked for, or a refusal. -/
def Sys2Proof.Claims.TokensAndFills : Prop :=
  (∀ (s : State) key holder, s.ev = .n2 key holder →
    let gone (r : Rep) (h : RHalf) : Bool := r.holder == holder && h.key == key && h.chip == s.chip
    let cut (r : Rep) : Rep := { r with lo := r.lo.filter fun h => !gone r h, hi := r.hi.filter fun h => !gone r h }
    let n := (s.reps.flatMap fun r => r.lo.toList.map (r, ·) ++ r.hi.toList.map (r, ·)).countP fun x => gone x.1 x.2 && x.2.token
    Gives .recall s fun t => t.mem = s.mem ∧ t.pages = s.pages ∧ t.reps = (s.reps.map cut).filter (fun r => r.lo.isSome || r.hi.isSome)
      ∧ (0 < n → Sent t ⟨.tokenReturn, .n2 key n⟩ s.chip (coreOfKey key)))
  ∧ (∀ (s : State) key n p, s.ev = .n2 key n → s.pages.get? key = some p → ¬ (p.st = .unsealing ∧ p.tokens ≤ n) →
      Gives .tokenReturn s fun t => t = { s with pages := t.pages } ∧ t.pages.get? key = some { p with tokens := p.tokens - n })
  ∧ (∀ (s : State) key n p, s.ev = .n2 key n → s.pages.get? key = some p → p.st = .unsealing → p.tokens ≤ n →
      Gives .tokenReturn s fun t => t.mem = s.mem ∧ t.thr = s.thr ∧ t.pages.get? key = some { p with tokens := 0, s := false, st := .mapped }
        ∧ ∀ q, ⟨.unsealAtHome, .seal q⟩ ∈ (s.heldP.get? key).getD [] → SealAnswered t q .ack)
  ∧ ∀ (s : State) f h p, s.ev = .fill f → s.homeOf f.ctx f.lane.ea = some h → h.chip = s.chip → h.core = f.home → s.pages.get? (h.key f.ctx) = some p →
      (if f.code then p.ex else p.rd) = true → s.poison = [] →
      let key := h.key f.ctx
      let unit := if h.glog = 6 then 64 else 128
      let data := memRdN s.mem (s.byteKey key p (h.pofs / unit * unit)) unit * 2 ^ (8 * (f.lane.ea / unit * unit % 128))
      let o : ROut := .data (loadVal f.sx f.lane.size (data / 2 ^ (8 * (f.lane.ea % 128)) % 2 ^ (8 * f.lane.size))) 0
      let own := f.holder.isSome = true ∧ f.chip = s.chip ∧ dieOf f.core = dieOf h.core
      (p.st = .sealed → p.s = true → own → Gives .lineFill s fun t =>
        t = { s with pages := t.pages, flights := t.flights, agenda := t.agenda, ids := t.ids }
        ∧ t.pages.get? key = some { p with tokens := p.tokens + 1 } ∧ FillAnswered t f o data true key)
      ∧ (p.st = .sealed → p.s = true → ¬ own → Gives .lineFill s fun t => Net s t ∧ FillAnswered t f o data false key)
      ∧ (p.st = .unsealing → p.s = true → Gives .lineFill s fun t => Net s t ∧ FillAnswered t { f with holder := none } o data false key)
      ∧ (p.st = .mapped → p.s = false → Gives .lineFill s fun t => Net s t ∧ FillAnswered t f (if f.strict then .refused .permission (if f.code then 4 else 0) else
          .unsealed (loadVal f.sx f.lane.size (memRdN s.mem (s.byteKey key p h.pofs) f.lane.size))) 0 false key)

/-- R184, R240, R241: a probe answers with the page's rights, none where no page is or it is RETIRED; the reply fills the core's permission cache and lets
every lane that waits for it try again. -/
def Sys2Proof.Claims.Probes : Prop :=
  (∀ (s : State) p, s.ev = .probe p → Gives .permissionProbe s fun t => Net s t ∧ ∃ e : PermE, Sent t ⟨.permissionProbeReply, .probeReply p e⟩ p.schip p.src
      ∧ e.ctx = p.ctx ∧ e.chip = p.chip ∧ e.key = tagOfKey p.key ∧ match s.entryOf p.key with
      | some x => if x.st = .retired then (e.rd || e.wr || e.ex || e.s) = false else e.rd = x.rd ∧ e.wr = x.wr ∧ e.ex = x.ex ∧ e.ord = x.ord ∧ e.s = x.s
      | none => (e.rd || e.wr || e.ex || e.s) = false)
  ∧ ∀ (s : State) p e, s.ev = .probeReply p e → e.ctx = p.ctx → e.chip = p.chip → e.key = tagOfKey p.key →
      Gives .permissionProbeReply s fun t => t.mem = s.mem ∧ t.crews = s.crews ∧ t.permEntry p.src p.ctx p.chip p.key = some e
        ∧ (∀ x ∈ s.thr, s.thr.get? x.1 = some x.2 → coreOfTk x.1 = p.src → x.2.ctx = p.ctx → x.2.st = .blocked →
            (x.2.wait = .probe p.chip p.key false ∨ (x.1 = p.tk ∧ x.2.wait = .probe p.chip p.key true)) → x.2.ptrap = [] →
            (t.T x.1).st = .ready ∧ (t.T x.1).g = x.2.g ∧ (t.T x.1).pc = x.2.pc)

/-- R244, R245, R378: the directory counts side-log entries and keeps deferred records; the first makes it announce LOGPEND to every core; cores take
newer notices; a query is answered with the thread's oldest record, which TRAPF and EXIT deliver. -/
def Sys2Proof.Claims.Directory : Prop :=
  (∀ (s : State) ctx x k, s.ev = .dirMsg ctx (.entry x k) → (s.dir ctx).waiting = [] →
    Gives .sideLogRegistration s fun t => t.mem = s.mem ∧ t.thr = s.thr ∧ (t.dir ctx).count x = (s.dir ctx).count x + 1
      ∧ (∀ y, y ≠ x → (t.dir ctx).count y = (s.dir ctx).count y) ∧ (t.dir ctx).set = true
      ∧ ((s.dir ctx).set = false → ∀ ch ∈ (s.ctx ctx).chips, ∀ c, c < Config.numCores →
          Sent t ⟨.logpendSet, .logpend c ctx ((s.dir ctx).seq + 1) (s.dirHome ctx).1 (s.dirHome ctx).2⟩ ch c))
  ∧ (∀ (s : State) (b : Bool) core ctx seq chip home, s.ev = .logpend core ctx seq chip home →
      Gives (if b then .logpendSet else .logpendClear) s fun t => t.mem = s.mem ∧ t.thr = s.thr
        ∧ ((∀ y ∈ (s.core core).logpend, y.1 = ctx → y.2.1 < seq) → 0 < seq → t.logpend core ctx = b)
        ∧ (b = true → Sent t ⟨.ackResponse, .dirAck ctx⟩ chip home))
  ∧ (∀ (s : State) ctx q, s.ev = .dirQ ctx q → (s.dir ctx).waiting = [] → (q.exit = false ∨ (s.dir ctx).count q.tid = 0) →
      Gives .directoryQuery s fun t => t.mem = s.mem ∧ t.thr = s.thr
        ∧ Sent t ⟨.directoryQueryReply, .dirReply q.tk ((s.dir ctx).recs.find? (·.tid == q.tid))⟩ q.chip q.core)
  ∧ (∀ (s : State) tk pc, s.ev = .dirReply tk none → (s.T tk).ptrap = [] →
      ((s.T tk).wait = .dirTrapf pc → Gives .directoryQueryReply s fun t => t = { s with thr := t.thr }
        ∧ t.T tk = { s.T tk with st := .ready, wait := .none, readyAt := s.clockOf (coreOfTk tk) })
      ∧ ((s.T tk).wait = .exitDir pc → exec .directoryQueryReply s = .next { s with agenda := s.agenda ++ [⟨.exitDrainComplete, .thread tk⟩] }))
  ∧ ∀ (s : State) tk r pc, s.ev = .dirReply tk (some r) → ((s.T tk).wait = .dirTrapf pc ∨ ((s.T tk).wait = .exitDir pc ∧ (s.T tk).dying = false)) →
      (s.T tk).ptrap = [] → (s.T tk).locks = [] → (s.T tk).frames.length < 4 → (s.T tk).handler ≠ 0 →
      s.targetFault tk (s.T tk).handler.toNat = none → s.targetNeeds tk (s.T tk).handler.toNat = none →
      Gives .directoryQueryReply s fun t => t = { s with thr := t.thr } ∧ ∃ f, (t.T tk).frames = f :: (s.T tk).frames ∧ f.cause = .deferredStore
        ∧ f.pc = pc ∧ f.addr = W r.addr ∧ f.info = W (r.pcw * 2 ^ 36 + r.info * 2 ^ 8 + r.cause.num) ∧ (t.T tk).pc = (s.T tk).handler

namespace Sys2Proof.Claims
open Sys2Proof Machine

/-! ### Groups, windows, barriers, tempos -/

/-- The issuers are lanes of a crew, each the thread of its lane position. -/
def CrewLanes (s : State) (ck : Nat) : Prop := s.iss.crew = some ck ∧ ∀ l ∈ s.iss.lanes, l.pos < 32 ∧ l.tk = laneTk ck l.pos

/-- The group that a word names, with the crew's membership of it (R330, R332, R338). -/
def GroupOf (s : State) (ck : Nat) (sb : BitVec 8) (g : Nat) (e : GEnt) (b : Memb) : Prop :=
  s.sreg sb.toNat = W g ∧ g < 256 ∧ s.groups.get? ((s.C ck).ctx * 256 + g) = some e ∧ e.v = true ∧ (s.C ck).memb.find? (·.g == g) = some b

/-- Everything of a crew but its membership states is as before. -/
def OnlyMemb (c d : Crew) : Prop := d = { c with memb := d.memb, bind := d.bind }

/-- A barrier word: ARMED, OVER-RUN and the signed 48-bit REMAIN (R349). -/
def barWord64 (armed ovr : Bool) (r : BitVec 48) : Nat := (if armed then 2 ^ 63 else 0) + (if ovr then 2 ^ 62 else 0) + r.toNat

end Sys2Proof.Claims

open Sys2Proof Machine Claims

/-- R338-R341: GQRY gives every issuing lane what the crew's membership record says, 0 for a group of which it is no member. WOPEN of a member that has opened
no window opens this one and waits; one of the window that the crew is opening waits with it, one of the window that it holds gives the same result again, and
the other cases give a status. WDET waits, and the crew departs from its window as soon as no lane of it has a window access outstanding: at once, or with the
answer to the last one; of a crew without a window it does nothing. A group index with a reserved bit traps. -/
def Obligations.GroupWords : Prop :=
  (∀ f s ck g e b, Issues (.gqry f) s → s.iss.crew = some ck → GroupOf s ck f.s g e b → Gives (.gqry f) s fun t => OnlyThreads s t ∧ EachLane s t fun _ x =>
      { x with g := x.g.setIfInBounds f.g.toNat (W (2 ^ 63 + (if e.gang then 2 ^ 62 else 0) + (if e.win then 2 ^ 61 else 0)
        + (match (s.C ck).att with | .none => 0 | .opening => 1 | .attached => 2 | .departed => 3) * 2 ^ 59 + e.nmem * 2 ^ 32 + b.m)) })
  ∧ (∀ f s ck g, Issues (.gqry f) s → s.iss.crew = some ck → s.sreg f.s.toNat = W g → g < 256 →
      (∀ e, s.groups.get? ((s.C ck).ctx * 256 + g) = some e → e.v = false ∨ (s.C ck).memb.find? (·.g == g) = none) →
      Gives (.gqry f) s fun t => OnlyThreads s t ∧ EachLane s t fun _ x => { x with g := x.g.setIfInBounds f.g.toNat 0 })
  ∧ (∀ f s ck g e b, Issues (.wopen f) s → s.iss.crew = some ck → GroupOf s ck f.s g e b → e.win = true →
      ((s.C ck).att = .none → Gives (.wopen f) s fun t => t.mem = s.mem
        ∧ (EachLane s t fun _ x => { x with st := .blocked, wait := .wopen g })
        ∧ t.C ck = { s.C ck with att := .opening, winG := g, wopen := (s.C ck).wopen ++ s.iss.lanes.map fun l => (l.pos, f.g.toNat) }
        ∧ Sent t ⟨.windowOpen, .n6 (s.C ck).ctx g b.m s.chip s.iss.core (ck * 2 ^ 20 + (s.C ck).spSize)⟩ b.chip 504)
      ∧ ((s.C ck).att = .opening → (s.C ck).winG = g → Gives (.wopen f) s fun t => OnlyThreadsCrews s t
        ∧ (EachLane s t fun _ x => { x with st := .blocked, wait := .wopen g })
        ∧ OneCrew s t ck fun c => { c with wopen := c.wopen ++ s.iss.lanes.map fun l => (l.pos, f.g.toNat) })
      ∧ ((s.C ck).att = .attached → (s.C ck).winG = g → Gives (.wopen f) s fun t => OnlyThreads s t ∧ EachLane s t fun _ x =>
          { x with g := x.g.setIfInBounds f.g.toNat (W (e.nmem * 2 ^ 32 + b.m)) })
      ∧ (((s.C ck).att = .opening ∨ (s.C ck).att = .attached) → (s.C ck).winG ≠ g → Gives (.wopen f) s fun t => OnlyThreads s t ∧ EachLane s t fun _ x =>
          { x with g := x.g.setIfInBounds f.g.toNat 0xc000000000000000 })
      ∧ ((s.C ck).att = .departed → Gives (.wopen f) s fun t => OnlyThreads s t ∧ EachLane s t fun _ x =>
          { x with g := x.g.setIfInBounds f.g.toNat 0x8000000000000000 }))
  ∧ (∀ f s ck g, Issues (.wopen f) s → s.iss.crew = some ck → s.sreg f.s.toNat = W g → g < 256 →
      (∀ e, s.groups.get? ((s.C ck).ctx * 256 + g) = some e → e.v = false ∨ e.win = false ∨ (s.C ck).memb.find? (·.g == g) = none) →
      Gives (.wopen f) s fun t => OnlyThreads s t ∧ EachLane s t fun _ x => { x with g := x.g.setIfInBounds f.g.toNat 0x4000000000000000 })
  ∧ (∀ (q : Bool) f s, let i : Instr := if q then .gqry f else .wopen f
      Issues i s → bits (s.sreg f.s.toNat) 63 8 ≠ 0 → Gives i s fun t => t.mem = s.mem ∧ t.crews = s.crews ∧ EachLane s t fun l _ =>
        (s.takeTrap l.tk { cause := .illegalInstr, pc := s.iss.pc, addr := 0, info := 0x100, word := s.iss.widx }).T l.tk)
  ∧ (∀ f s ck, Issues (.wdet f) s → CrewLanes s ck → s.iss.lanes ≠ [] → ((s.C ck).att = .opening ∨ (s.C ck).att = .attached) →
      let out := ∃ l, l < 32 ∧ ∃ a ∈ (s.T (laneTk ck l)).pend, a.kind = .ldw ∨ a.kind = .stw
      Gives (.wdet f) s fun t => t.mem = s.mem ∧ (EachLane s t fun _ x => { x with st := .blocked, wait := .wdet })
        ∧ (t.C ck).wdet = (s.C ck).wdet ++ s.iss.lanes.map (·.pos)
        ∧ (out → OnlyThreadsCrews s t ∧ (t.C ck).att = (s.C ck).att)
        ∧ (¬ out → (t.C ck).att = .departed ∧ (t.C ck).wmem = (s.C ck).wmem ∧ ∀ b, (s.C ck).memb.find? (·.g == (s.C ck).winG) = some b →
            Sent t ⟨.windowDeparture, .n6 (s.C ck).ctx b.g b.m s.chip (coreOfCk ck) ck⟩ b.chip 504))
  ∧ (∀ (s : State) ck tk id, s.ev = .resp tk id .ack → tk ≠ 2 ^ 31 → tk ≠ 2 ^ 30 → s.waiter tk id = some tk → (s.T tk).cq = none → (s.T tk).kind = 2 → ckOfTk tk = ck →
      (s.C ck).wdet ≠ [] → ((s.C ck).att = .opening ∨ (s.C ck).att = .attached) →
      (∀ l, l < 32 → ∀ a ∈ (s.T (laneTk ck l)).pend, a.kind = .ldw ∨ a.kind = .stw → laneTk ck l = tk ∧ a.id = id) →
      Gives .ackResponse s fun t => t.mem = s.mem ∧ (t.C ck).att = .departed ∧ (t.C ck).wmem = (s.C ck).wmem ∧ ∀ b, (s.C ck).memb.find? (·.g == (s.C ck).winG) = some b →
        Sent t ⟨.windowDeparture, .n6 (s.C ck).ctx b.g b.m s.chip (coreOfCk ck) ck⟩ b.chip 504)
  ∧ ∀ f s ck, Issues (.wdet f) s → s.iss.crew = some ck → ((s.C ck).att = .none ∨ (s.C ck).att = .departed) →
      exec (.wdet f) s = .next { s with iss := { s.iss with pfx := .none } }

/-- R180, R198, R200, R337: LDW and STW send each active lane's access to the member its address names; the member's core reads or writes its crew's share. -/
def Sys2Proof.Claims.WindowAccess : Prop :=
  (∀ (ld : Bool) (fl : LmF) (fs : StF) s ck (m : LaneRef → Nat × Nat × Nat × Nat × Nat), let i : Instr := if ld then .ldw fl else .stw fs
    let (p, a, o, n, d) := if ld then (fl.p, fl.a, fl.o, 2 ^ fl.s.toNat, fl.d) else (fs.p, fs.a, fs.o, 2 ^ fs.s.toNat, fs.d)
    let ea (l : LaneRef) : Word := (s.rT l.tk).gr a.toNat + o.signExtend 64 * W n
    Issues i s → s.iss.crew = some ck → (s.C ck).att = .attached →
    (∀ l ∈ s.iss.lanes, s.active (p == 1) l = true → (ea l).toNat % n = 0 ∧ bits (ea l) 63 44 = 0 ∧ bits (ea l) 31 19 = 0
      ∧ (s.C ck).wmem.find? (·.1 == bits (ea l) 43 32) = some (m l) ∧ bits (ea l) 18 0 < (m l).2.2.2.2) →
    Gives i s fun t => t.mem = s.mem ∧ t.crews = s.crews ∧ (∀ tk, tk ∉ s.iss.lanes.map (·.tk) → t.T tk = s.T tk)
      ∧ (∀ l ∈ s.iss.lanes, t.T l.tk = { s.T l.tk with locks := (t.T l.tk).locks, pend := (t.T l.tk).pend })
      ∧ ∀ l ∈ s.iss.lanes, s.active (p == 1) l = true →
        (∃ b ∈ (t.T l.tk).pend, b.id = s.ids ∧ b.kind = if ld then .ldw else .stw) ∧ (ld = true → ∃ k ∈ (t.T l.tk).locks, k.id = s.ids ∧ k.d = d.toNat)
        ∧ ∃ r x, Carried t ⟨if ld then .windowRead else .windowWrite, .req r⟩ (m l).2.1 (m l).2.2.1 ∧ r.home = (m l).2.2.1 ∧ r.sum = (s.C ck).winG
          ∧ r.op = (if ld then .load false else .store) ∧ r.lanes = [x] ∧ x.ea = (ea l).toNat ∧ x.size = n ∧ x.tk = l.tk
          ∧ (ld = false → x.data = ((s.rT l.tk).gr d.toNat).toNat))
  ∧ (∀ (s : State) r x ck, s.ev = .req r → r.lanes = [x] → s.memberAt r.home r.ctx r.sum (x.ea / 2 ^ 32 % 4096) = some ck → (s.C ck).att ≠ .departed →
      (s.C ck).st ≠ .suspended → (s.C ck).st ≠ .placed →
      let k := spadKey (coreOfCk ck) ((s.C ck).spBase + x.ea % 2 ^ 19)
      ((∃ sx, r.op = .load sx) → Gives .windowRead s fun t => Net s t ∧ Answered t .readDataResponse r x (.data (W (memRdN s.mem k x.size)) 0))
      ∧ (r.op = .store → Gives .windowWrite s fun t => t = { s with mem := t.mem, crews := t.crews, flights := t.flights, agenda := t.agenda, ids := t.ids }
          ∧ t.mem = memWrN s.mem k x.size x.data ∧ (∀ c, t.C c = { s.C c with bind := (t.C c).bind }) ∧ Answered t .ackResponse r x .ack))
  ∧ ∀ (s : State) r x ck, s.ev = .req r → r.lanes = [x] → s.memberAt r.home r.ctx r.sum (x.ea / 2 ^ 32 % 4096) = some ck → (s.C ck).att = .departed →
      (∃ sx, r.op = .load sx) → Gives .windowRead s fun t => Net s t ∧ Answered t .readDataResponse r x (.refused .windowDeparted 0)

/-- R335, R336: the window agent collects opens until the last member's, then tells every member; a departure is confirmed, once the agent has taken the open before it, and the members' lanes go on. -/
def Sys2Proof.Claims.WindowAgent : Prop :=
  (∀ (s : State) ctx g m chip core x e, s.ev = .n6 ctx g m chip core x → s.gent ctx g = some e →
      let a := s.gagent ctx g
      let old := a.mem.filter (·.m != m)
      let me : WMem := { m := m, chip := chip, core := core, ck := x / 2 ^ 20, size := x % 2 ^ 20, att := .opening }
      (a.opened = false ∨ a.win = .opening) → Gives .windowOpen s fun t => t.thr = s.thr ∧ t.crews = s.crews ∧ t.mem = s.mem ∧
        if old.length + 1 = e.nmem then (t.gagent ctx g).win = .attached ∧ ∀ y ∈ old ++ [me], ∃ l,
            Sent t ⟨.windowOpenReply, .wmem ((y.core * 64 + ctx) * 256 + g) 0 ({ y with att := .attached } :: l)⟩ y.chip y.core
            ∧ l = (old ++ [me]).map fun z => { z with att := .attached }
        else t.gagent ctx g = { a with win := .opening, opened := true, mem := old ++ [me] } ∧ t.flights = s.flights ∧ t.agenda = s.agenda)
  ∧ (∀ (s : State) ctx g m chip core ck, s.ev = .n6 ctx g m chip core ck → (s.gagent ctx g).admitted = true → (∀ x ∈ (s.gagent ctx g).mem, x.m ≠ m) →
      Gives .windowDeparture s fun t => t = { s with agenda := s.agenda ++ [⟨.windowDeparture, s.ev⟩] })
  ∧ (∀ (s : State) ctx g m chip core ck, s.ev = .n6 ctx g m chip core ck → ((s.gagent ctx g).admitted = false ∨ ∃ x ∈ (s.gagent ctx g).mem, x.m = m) →
      Gives .windowDeparture s fun t => t.thr = s.thr ∧ t.crews = s.crews ∧ t.mem = s.mem
      ∧ (∃ me : WMem, me.m = m
        ∧ Sent t ⟨.windowOpenReply, .wmem ((core * 64 + ctx) * 256 + g) (if (s.gagent ctx g).win = .opening then 6 else 3) [me]⟩ chip core)
      ∧ ((s.gagent ctx g).win = .opening → (t.gagent ctx g).win = .closed)
      ∧ ((s.gagent ctx g).win = .attached → (t.gagent ctx g).win =
          if ((s.gagent ctx g).mem.any fun x => x.m != m && x.att == .attached) then .detaching else .closed))
  ∧ ∀ (s : State) ctx g me mem ck core, s.ev = .wmem ((core * 64 + ctx) * 256 + g) 0 (me :: mem) → ctx < 64 → g < 256 → s.memberAt core ctx g me.m = some ck → (s.C ck).att ≠ .departed →
      (∀ x ∈ (s.C ck).wopen, (s.T (laneTk ck x.1)).ptrap = []) → (((s.C ck).wopen.map fun x => laneTk ck x.1).Nodup) →
      Gives .windowOpenReply s fun t => t.mem = s.mem
        ∧ t.C ck = { s.C ck with att := .attached, wopen := [], wmem := mem.map fun x => (x.m, x.chip, x.core, x.ck, x.size) }
        ∧ ∀ x ∈ (s.C ck).wopen, (t.T (laneTk ck x.1)).st = .ready
          ∧ (t.T (laneTk ck x.1)).g = (s.T (laneTk ck x.1)).g.setIfInBounds x.2 (W (mem.length * 2 ^ 32 + me.m))

/-- R344-R348: BAR and BARA join the crew's gathering, the last live lane's join sends the arrival; BARW waits for the release of a gathering that the
lane joined, and passes where none is in progress. -/
def Sys2Proof.Claims.BarrierWords : Prop :=
  (∀ (bar : Bool) f s ck g e b, let i : Instr := if bar then .bar f else .bara f
    Issues i s → CrewLanes s ck → ((s.iss.lanes.map (·.pos)).Nodup) → s.iss.lanes ≠ [] → GroupOf s ck f.s g e b → f.f.getLsbD 3 = false → b.st ≠ .arrived →
    (b.st = .gathering → ∀ l ∈ s.iss.lanes, b.joined.any (·.lane == l.pos) = false) →
    let J := (if b.st = .gathering then b.joined.map (·.lane) else []) ++ s.iss.lanes.map (·.pos)
    let full := maskOfLanes J &&& (s.C ck).live = (s.C ck).live ∧ (b.st = .gathering → s.needDone b.need = true)
    Gives i s fun t => t.mem = s.mem ∧ (∀ c, OnlyMemb (s.C c) (t.C c))
      ∧ (EachLane s t fun _ x => if bar then { x with st := .blocked, wait := .bar g } else x)
      ∧ ∃ b', (t.C ck).memb.find? (·.g == g) = some b' ∧ b'.joined.map (·.lane) = J ∧ (full → b'.st = .arrived
          ∧ Sent t ⟨.barrierArrival, .n6 (s.C ck).ctx g b.m s.chip (coreOfCk ck) ck⟩ b.chip 504) ∧ (¬ full → (∀ c ∈ (s.C ck).memb, c.g = g → c = b) → b'.st = .gathering))
  ∧ (∀ f s ck g e b, Issues (.barw f) s → CrewLanes s ck → GroupOf s ck f.s g e b →
      (b.st = .none ∨ b.st = .done → f.f.getLsbD 3 = false → exec (.barw f) s = .next { s with iss := { s.iss with pfx := .none } })
      ∧ (b.st = .gathering ∨ b.st = .arrived → (∀ l ∈ s.iss.lanes, b.joined.any (·.lane == l.pos) = true) →
        Gives (.barw f) s fun t => t.mem = s.mem ∧ (∀ c, OnlyMemb (s.C c) (t.C c)) ∧ EachLane s t fun _ x => { x with st := .blocked, wait := .bar g })
      ∧ (b.st = .gathering ∨ b.st = .arrived → (∀ l ∈ s.iss.lanes, b.joined.any (·.lane == l.pos) = false) →
        Gives (.barw f) s fun t => t.mem = s.mem ∧ EachLane s t fun l _ =>
          (s.takeTrap l.tk { cause := .illegalConvergence, pc := s.iss.pc, addr := 0, info := 0, word := s.iss.widx }).T l.tk))
  ∧ ∀ (bar : Nat) fb fw s ck g, let i : Instr := if bar = 0 then .bar fb else if bar = 1 then .bara fb else .barw fw
      let sb := if bar ≤ 1 then fb.s else fw.s
      Issues i s → s.iss.crew = some ck → s.sreg sb.toNat = g →
      (bits g 63 8 ≠ 0 → Gives i s fun t => t.mem = s.mem ∧ EachLane s t fun l _ =>
        (s.takeTrap l.tk { cause := .illegalInstr, pc := s.iss.pc, addr := 0, info := 0x100, word := s.iss.widx }).T l.tk)
      ∧ (bits g 63 8 = 0 → s.membOf ck g.toNat = none → Gives i s fun t => t.mem = s.mem ∧ EachLane s t fun l _ =>
        (s.takeTrap l.tk { cause := .permission, pc := s.iss.pc, addr := 0, info := 0, word := s.iss.widx }).T l.tk)

/-- R347, R366: the barrier agent counts arrivals, releases all members when COUNT reaches EXPECT, holds arrivals until the releases are acknowledged,
and lowers EXPECT when a member departs; a release wakes the crew's lanes and is acknowledged. -/
def Sys2Proof.Claims.BarrierAgent : Prop :=
  (∀ (s : State) ctx g m chip core ck, s.ev = .n6 ctx g m chip core ck → let a := s.bagent ctx g
      Gives .barrierArrival s fun t => t.thr = s.thr ∧ t.mem = s.mem ∧ t.crews = s.crews ∧
        if m ∈ a.gone then t.bagent ctx g = a ∧ t.flights = s.flights
        else if a.st = .releasing then t.bagent ctx g = { a with held := a.held ++ [(m, chip, core, ck)] }
        else if a.arr.length + 1 = a.expect then t.bagent ctx g = { a with st := .releasing, arr := a.arr ++ [(m, chip, core, ck)], acks := a.arr.length + 1 }
          ∧ ∀ x ∈ a.arr ++ [(m, chip, core, ck)], Sent t ⟨.barrierRelease, .n6 ctx g x.1 s.chip x.2.2.1 x.2.2.2⟩ x.2.1 x.2.2.1
        else t.bagent ctx g = { a with st := .collecting, arr := a.arr ++ [(m, chip, core, ck)] } ∧ t.flights = s.flights)
  ∧ (∀ (s : State) ctx g m, s.ev = .n3 ctx g m → (s.bagent ctx g).held = [] → let a := s.bagent ctx g
      Gives .barrierReleaseAck s fun t => t = { s with bagents := t.bagents } ∧ t.bagent ctx g =
        if a.acks ≤ 1 then { a with st := .idle, arr := [], acks := 0, held := [] } else { a with acks := a.acks - 1 })
  ∧ (∀ (s : State) ctx g m, s.ev = .n3 ctx g m → Gives .barrierMemberDeparture s fun t => t.thr = s.thr ∧ t.mem = s.mem
      ∧ (t.bagent ctx g).expect = (s.bagent ctx g).expect - 1 ∧ m ∈ (t.bagent ctx g).gone
      ∧ ((s.bagent ctx g).st ≠ .releasing → (t.bagent ctx g).arr = (s.bagent ctx g).arr.filter (·.1 != m)))
  ∧ ∀ (s : State) ctx g m chip core x ck b, s.ev = .n6 ctx g m chip core x → s.memberAt core ctx g m = some ck → (s.C ck).memb.find? (·.g == g) = some b →
      b.queue = [] → (∀ l, l < 32 → (s.T (laneTk ck l)).ptrap = []) →
      Gives .barrierRelease s fun t => t.mem = s.mem ∧ Sent t ⟨.barrierReleaseAck, .n3 ctx g m⟩ chip 504
        ∧ (∀ j ∈ b.joined, j.bar = true → j.lane < 32 → (t.T (laneTk ck j.lane)).st = .ready ∧ (t.T (laneTk ck j.lane)).g = (s.T (laneTk ck j.lane)).g)
        ∧ (∀ w ∈ b.waitw, w.1 < 32 → (t.T (laneTk ck w.1)).st = .ready)
        ∧ ∃ b', (t.C ck).memb.find? (·.g == g) = some b' ∧ b'.st = .done ∧ b'.joined = []

/-- R349, R350, R345: BEXP adds to the word's REMAIN and arms it, or completes it at once; BARB counts it down, and the armed word that reaches 0 becomes
FULL; an over-run is marked. -/
def Sys2Proof.Claims.ByteBarriers : Prop :=
  ∀ (cnt : Bool) f s ck, let i : Instr := if cnt then .barb f else .bexp f
    Issues i s → s.iss.crew = some ck →
    let o := s.sreg f.s.toNat
    let n := s.sreg (f.s.toNat + 1)
    let k := spadKey (coreOfCk ck) ((s.C ck).spBase + o.toNat)
    let w := memRdN s.mem k 8
    let r : BitVec 48 := if cnt then BitVec.ofNat 48 w - n.setWidth 48 else BitVec.ofNat 48 w + n.setWidth 48
    let armed := (W w).getLsbD 63
    (bits o 63 19 = 0 → bits n 63 47 = 0 → o.toNat % 8 = 0 → o.toNat < (s.C ck).spSize → Memory.wf s.mem = true →
      Gives i s fun t => t = { s with mem := t.mem, crews := t.crews, empt := t.empt, iss := { s.iss with pfx := .none } }
        ∧ memRdN t.mem k 8 = (if cnt then barWord64 (armed && decide (0 < r.toInt)) ((W w).getLsbD 62 || decide (r.toInt < 0)) r
            else barWord64 (decide (0 < r.toInt)) (decide (r.toInt < 0)) r)
        ∧ (∀ a, ¬ (k ≤ a ∧ a < k + 8) → memRd t.mem a = memRd s.mem a)
        ∧ (∀ c, t.C c = { s.C c with bind := (t.C c).bind })
        ∧ ∀ a, a ∈ t.empt ↔ if a = k then (if cnt then a ∈ s.empt ∧ ¬ (armed = true ∧ r.toInt ≤ 0) else 0 < r.toInt) else a ∈ s.empt)
    ∧ ((bits o 63 19 ≠ 0 ∨ bits n 63 47 ≠ 0) → Gives i s fun t => t.mem = s.mem ∧ EachLane s t fun l _ => (s.takeTrap l.tk
        { cause := .illegalInstr, pc := s.iss.pc, addr := 0, info := if bits o 63 19 ≠ 0 then 0x100 else 0x101, word := s.iss.widx }).T l.tk)
    ∧ (bits o 63 19 = 0 → bits n 63 47 = 0 → (o.toNat % 8 ≠ 0 ∨ (s.C ck).spSize ≤ o.toNat) → Gives i s fun t => t.mem = s.mem ∧ EachLane s t fun l _ =>
        (s.takeTrap l.tk { cause := if o.toNat % 8 ≠ 0 then .misaligned else .permission, pc := s.iss.pc, addr := o, info := 0, word := s.iss.widx }).T l.tk)

/-- R352-R355: TEMPO joins a crew's gathering or arrives for a roaming thread, with the register OR'ed in for TEMPO.or; the agent releases all when every
participant has arrived, with the OR; a waiting roaming thread can be parked. -/
def Sys2Proof.Claims.Tempos : Prop :=
  (∀ (orr : Bool) (fo : CgF) (ft : ChainF) s ck, let i : Instr := if orr then .tempoOr fo else .tempo ft
    Issues i s → CrewLanes s ck → ((s.iss.lanes.map (·.pos)).Nodup) → (s.C ck).tempo.sent = false → (∀ l ∈ s.iss.lanes, (s.C ck).tempo.joined.any (·.lane == l.pos) = false) →
    (∀ b ∈ (s.C ck).bind, b.wb = false) →
    Gives i s fun t => t.mem = s.mem
      ∧ (∀ l ∈ s.iss.lanes, t.T l.tk = { s.T l.tk with st := .blocked, wait := .tempo, locks := (t.T l.tk).locks })
      ∧ (t.C ck).tempo.joined = (s.C ck).tempo.joined ++ s.iss.lanes.map fun l =>
          ⟨l.pos, orr, if orr then fo.g.toNat else 0, (s.rT l.tk).gr (if orr then fo.g.toNat else 0)⟩)
  ∧ (∀ (orr : Bool) (fo : CgF) (ft : ChainF) s l, let i : Instr := if orr then .tempoOr fo else .tempo ft
    Issues i s → s.iss.crew = none → s.iss.lanes = [l] → (s.T l.tk).kind ≠ 2 → (s.T l.tk).pend = [] → s.spawned = [] →
    let v := if orr then (s.rT l.tk).gr fo.g.toNat else 0
    Gives i s fun t => t.mem = s.mem ∧ (t.T l.tk).st = .blocked ∧ (t.T l.tk).wait = .tempo ∧ (t.T l.tk).g = (s.T l.tk).g
      ∧ Sent t ⟨.tempoArrival, .tarr (s.T l.tk).ctx (s.T l.tk).ktab.toNat s.chip (coreOfTk l.tk) (.thread (s.T l.tk).tid l.tk) v⟩
          (s.kernChip (s.T l.tk).ctx (s.T l.tk).ktab.toNat) 504)
  ∧ (∀ (s : State) ctx kern chip core p v, s.ev = .tarr ctx kern chip core p v → let a := s.tagent ctx kern
      Gives .tempoArrival s fun t => t.thr = s.thr ∧ t.mem = s.mem ∧ t.crews = s.crews ∧
        if a.arr.length + 1 = a.live then t.tagent ctx kern = { a with arr := [], orv := 0 } ∧ ∀ x ∈ a.arr ++ [(chip, core, p)],
            Sent t ⟨.tempoRelease, .trel ctx x.2.1 x.2.2 (a.orv ||| v)⟩ x.1 x.2.1
        else t.tagent ctx kern = { a with arr := a.arr ++ [(chip, core, p)], orv := a.orv ||| v } ∧ t.flights = s.flights)
  ∧ (∀ (s : State) ctx core p tk0 v x w, s.ev = .trel ctx core (.thread p tk0) v →
      (s.thr.find? fun x => coreOfTk x.1 == core && x.2.ctx == ctx && x.2.tid == p && x.2.wait == .tempo) = some x → s.thr.get? x.1 = some x.2 →
      x.2.tmp = some w → x.2.ptrap = [] → x.2.kind ≠ 2 →
      Gives .tempoRelease s fun t => t.mem = s.mem ∧ t.T x.1 = { x.2 with
        tmp := none, locks := x.2.locks.filter (fun k => !k.regs.testBit 33), g := if w.orr then x.2.g.setIfInBounds w.g v else x.2.g
        st := .ready, wait := .none, readyAt := s.clockOf (coreOfTk x.1) })
  ∧ ∀ (s : State) tk w, s.ev = .thread tk → (s.T tk).st = .blocked → (s.T tk).wait = .tempo → (s.T tk).kind ≠ 2 → (s.T tk).tmp = some w → w.sent = true →
      let c := coreOfTk tk
      let ctx := (s.T tk).ctx
      (s.ovfOf c ctx = [] → exec .tempoPark s = .next s)
      ∧ (s.ovfOf c ctx ≠ [] → s.ctxActive c ctx = true → s.unitsUsed c none + 9 ≤ 2 ^ 21 → Gives .tempoPark s fun t => t.mem = s.mem ∧ t.thr = s.thr.del tk
          ∧ t.ovfOf c ctx = s.ovfOf c ctx ++ [(.tempo (s.T tk) none, false)])

namespace Sys2Proof.Claims
open Sys2Proof Machine

/-! ### Messages, POST and completion rings -/

/-- Words SB and SB+1 of a block as the chain reads them. -/
def blk (s : State) (sb : BitVec 8) (n : Nat) : Nat := (s.sreg (sb.toNat + n)).toNat

/-- Each issuing lane's register d takes a value that all share. -/
def AllTake (s t : State) (d : BitVec 5) (v : Word) : Prop := EachLane s t fun _ x => { x with g := x.g.setIfInBounds d.toNat v }

/-- Every issuing lane takes the trap of one cause. -/
def AllTrap (s t : State) (c : Cause) (addr info : Word) : Prop :=
  t.mem = s.mem ∧ EachLane s t fun l _ => (s.takeTrap l.tk { cause := c, pc := s.iss.pc, addr := addr, info := info, word := s.iss.widx }).T l.tk

/-- The record that a cursor names (R293): byte address of the ring's entry. -/
def ringEntry (hd c : Nat) : Nat := hd / 32 % 2 ^ 51 * 32 + 32 * (c % 2 ^ (hd % 32))

/-- Where a home on this chip keeps the 8 bytes at an address of a context. -/
def KeptAt (s : State) (ctx ea k : Nat) : Prop :=
  ∃ h p, s.homeOf ctx ea = some h ∧ h.chip = s.chip ∧ s.pages.get? (h.key ctx) = some p ∧ k = s.byteKey (h.key ctx) p h.pofs

/-- A POST of a thread that has nothing of its share to write back. -/
def PostAt (s : State) (id : Nat) (j : PostJ) : Prop :=
  s.posts.find? (·.id == id) = some j ∧ j.id = id ∧ ((s.T j.tk).kind = 2 → ∀ b ∈ (s.C (ckOfTk j.tk)).bind, b.wb = false)

/-- A POST ended: its lanes' registers take a value. -/
def PostEnds (s t : State) (j : PostJ) (v : Nat) : Prop :=
  (∀ x ∈ t.posts, x.id ≠ j.id) ∧ ∀ tk ∈ j.lanes, ∀ k, (s.T tk).locks.find? (·.id == j.id) = some k → (t.T tk).g = (s.T tk).g.setIfInBounds k.d (W v) ∧ ∀ c ∈ (t.T tk).locks, c.id ≠ j.id

end Sys2Proof.Claims

open Sys2Proof Machine Claims

/-- R412, R416: a SEND that passes its checks keeps its payload, blocks its lanes and leaves at once when nothing of its crew is outstanding and no earlier
SEND to the same place waits; one whose context may not send to the other traps with information 6. -/
def Sys2Proof.Claims.SendWords : Prop :=
  (∀ f s ck, Issues (.send f) s → CrewLanes s ck → s.sendFault (blk s f.s 0) (blk s f.s 1) = none → (∀ b ∈ (s.C ck).bind, b.wb = false) →
      let w0 := blk s f.s 0
      let w1 := blk s f.s 1
      let len := w1 / 2 ^ 32 % 512
      let data := memRdN s.mem (spadKey (coreOfCk ck) ((s.C ck).spBase + w1 % 2 ^ 19)) len
      Gives (.send f) s fun t => t.mem = s.mem
        ∧ (∀ l ∈ s.iss.lanes, (t.T l.tk).st = .blocked ∧ (t.T l.tk).wait = .send ∧ (t.T l.tk).g = (s.T l.tk).g)
        ∧ (∃ w ∈ (t.C ck).sends, w.dchip = w0 / 2 ^ 48 ∧ w.dcore = w0 / 2 ^ 39 % 512 ∧ w.dctx = w0 / 2 ^ 34 % 32 ∧ w.dirx = w0 / 2 ^ 32 % 4 ∧ w.tag = w0 % 2 ^ 32
          ∧ w.len = len ∧ w.data = data ∧ w.g = f.g.toNat ∧ w.lanes = s.iss.lanes.map (·.pos))
        ∧ ((s.C ck).sends = [] → (∀ l, l < 32 → (s.T (laneTk ck l)).pend = [] ∧ (s.T (laneTk ck l)).posted = []) →
            ∃ m : Msg, Sent t ⟨.messageArrival, .msg (w0 / 2 ^ 39 % 512) m⟩ (w0 / 2 ^ 48) (w0 / 2 ^ 39 % 512) ∧ m.schip = s.chip ∧ m.score = coreOfCk ck
              ∧ m.sctx = (s.C ck).ctx ∧ m.ctx = w0 / 2 ^ 34 % 32 ∧ m.tag = w0 % 2 ^ 32 ∧ m.len = len ∧ m.data = data))
  ∧ (∀ f s ck, Issues (.send f) s → s.iss.crew = some ck → let w0 := blk s f.s 0
      let w1 := blk s f.s 1
      lenBad w1 = false → w0 / 2 ^ 39 % 512 < 384 → w0 / 2 ^ 32 % 4 ≠ 3 → w1 % 2 ^ 19 % 8 = 0 → w1 % 2 ^ 19 + w1 / 2 ^ 32 % 512 ≤ (s.C ck).spSize →
      s.iss.ctx ≠ w0 / 2 ^ 34 % 32 → (s.iss.ctx, w0 / 2 ^ 34 % 32) ∉ s.smat → Gives (.send f) s fun t => AllTrap s t .permission 0 6)
  ∧ (∀ (s : State) core ctx id op ck w, s.ev = .n4 core ctx id op → op ≠ 3 →
      (s.crews.find? fun x => coreOfCk x.1 == core && x.2.ctx == ctx && x.2.sends.any (·.id == id)) = some (ck, s.C ck) →
      (s.C ck).sends.find? (·.id == id) = some w → (∀ l ∈ w.lanes, (s.T (laneTk ck l)).ptrap = []) → ((w.lanes.map (laneTk ck)).Nodup) →
      Gives .mreplyArrival s fun t => t.mem = s.mem ∧ (∀ x ∈ (t.C ck).sends, x.id ≠ id) ∧ ∀ l ∈ w.lanes, t.T (laneTk ck l) = { s.T (laneTk ck l) with
        g := (s.T (laneTk ck l)).g.setIfInBounds w.g (W op), st := .ready, wait := .none, readyAt := s.clockOf (coreOfTk (laneTk ck l)) })
  ∧ ∀ (s : State) a b v, s.ev = .n3 a b v → Gives .sendMatrixWrite s fun t => t.mem = s.mem ∧ t.crews = s.crews
      ∧ ∀ x, x ∈ t.smat ↔ if x = (a, b) then v ≠ 0 else x ∈ s.smat

/-- R413, R417-R419: RECVP posts an entry under the lowest free number and returns its handle; RECVW takes an ARRIVED entry's status and tag or waits;
PROBE reports the oldest queued message that it meets. -/
def Sys2Proof.Claims.ReceiveWords : Prop :=
  (∀ f s ck n, Issues (.recvp f) s → s.iss.crew = some ck → critBad (blk s f.s 0) = false → lenBad (blk s f.s 1) = false →
      spaceFault (s.C ck) (blk s f.s 1) = none → ((List.range 64).find? fun n => !(s.core s.iss.core).recv.any (·.n == n)) = some n →
      (∀ m ∈ s.msgsOf s.iss.core s.iss.ctx, m.meets (blk s f.s 0) = false) →
      Gives (.recvp f) s fun t => t.mem = s.mem ∧ AllTake s t f.g (W ((s.C ck).hseq.toNat * 256 + n)) ∧ (t.C ck).hseq = (s.C ck).hseq + 1
        ∧ ∃ e, (t.core s.iss.core).recv = (s.core s.iss.core).recv ++ [e] ∧ e.n = n ∧ e.st = .posted ∧ e.ck = ck ∧ e.ctx = s.iss.ctx
          ∧ e.crit = W (blk s f.s 0) ∧ e.len = blk s f.s 1 / 2 ^ 32 % 512 ∧ e.buf = blk s f.s 1 % 2 ^ 19 ∧ e.hseq = (s.C ck).hseq.toNat)
  ∧ (∀ f s ck, Issues (.recvp f) s → s.iss.crew = some ck → critBad (blk s f.s 0) = false → lenBad (blk s f.s 1) = false →
      spaceFault (s.C ck) (blk s f.s 1) = none → ((List.range 64).find? fun n => !(s.core s.iss.core).recv.any (·.n == n)) = none →
      Gives (.recvp f) s fun t => t.mem = s.mem ∧ AllTake s t f.g 0x8000000000000000)
  ∧ (∀ (tst : Bool) f s ck e, let i : Instr := if tst then .recvwTest f else .recvw f
      Issues i s → CrewLanes s ck → s.recvOf s.iss.core ck ((s.rT s.lowLane.tk).gr f.g.toNat).toNat = some e → s.iss.core = coreOfCk ck →
      (∀ m, e.st = .arrived → e.msg = some m → e.ck = ck → (∀ l ∈ s.iss.lanes, (s.T l.tk).st ≠ .blocked) → Gives i s fun t => t.mem = s.mem
        ∧ AllTake s t f.g (W (2 ^ 63 + (if e.len < m.len then 2 ^ 62 else 0) + (m.schip * 2 ^ 14 + m.score * 2 ^ 5 + m.sctx) * 2 ^ 32 + m.len))
        ∧ (s.iss.lanes ≠ [] → (t.C ck).s = (s.C ck).s.setIfInBounds f.s.toNat (W m.tag)) ∧ ∀ x ∈ (t.core s.iss.core).recv, x.n ≠ e.n)
      ∧ (e.st ≠ .arrived → tst = true → Gives i s fun t => OnlyThreads s t ∧ AllTake s t f.g 0)
      ∧ (e.st ≠ .arrived → tst = false → Gives i s fun t => t.mem = s.mem ∧ t.crews = s.crews ∧ EachLane s t fun _ x =>
          { x with st := .blocked, wait := .recvw ((s.rT s.lowLane.tk).gr f.g.toNat).toNat }))
  ∧ (∀ (tst : Bool) f s, let i : Instr := if tst then .recvwTest f else .recvw f
      Issues i s → s.recvOf s.iss.core s.ck ((s.rT s.lowLane.tk).gr f.g.toNat).toNat = none → Gives i s fun t => AllTrap s t .permission 0 5)
  ∧ ∀ f s ck, Issues (.probe f) s → s.iss.crew = some ck → critBad (blk s f.s 0) = false →
      match (s.msgsOf s.iss.core s.iss.ctx).find? (·.meets (blk s f.s 0)) with
      | none => Gives (.probe f) s fun t => OnlyThreads s t ∧ AllTake s t f.g 0
      | some m => Gives (.probe f) s fun t => OnlyThreadsCrews s t
          ∧ AllTake s t f.g (W (2 ^ 63 + (m.schip * 2 ^ 14 + m.score * 2 ^ 5 + m.sctx) * 2 ^ 32 + m.len))
          ∧ OneCrew s t ck fun c => { c with s := c.s.setIfInBounds f.s.toNat (W ((m.schip * 2 ^ 14 + m.score * 2 ^ 5 + m.sctx) * 2 ^ 32 + m.tag)) }

/-- R413, R414, R416: an arriving message is matched with the oldest POSTED entry that it meets, queued, refused when 64 are queued, or discarded for a
context that has ended; its words are written one by one and mark FULL, and the last one makes the entry ARRIVED. -/
def Obligations.MessageUnit : Prop :=
  (∀ (s : State) core m, s.ev = .msg core m →
      (s.ctxGone m.ctx = true → Gives .messageArrival s fun t => Net s t ∧ Sent t ⟨.mreplyArrival, .n4 m.score m.sctx m.id 2⟩ m.schip m.score)
      ∧ (∀ e, s.ctxGone m.ctx = false → e ∈ (s.core core).recv → e.st = .posted → e.ctx = m.ctx → m.meets e.crit.toNat = true →
          (∀ x ∈ (s.core core).recv, x.n = e.n → x = e) →
          (∀ x ∈ (s.core core).recv, x.st = .posted → x.ctx = m.ctx → m.meets x.crit.toNat = true → x ≠ e → e.order < x.order) →
          Gives .messageArrival s fun t => t.mem = s.mem ∧ t.thr = s.thr ∧ t.crews = s.crews
            ∧ (t.core core).recv = (s.core core).recv.map (fun x => if x.n = e.n then { x with st := .filling, msg := some m, left := List.range (min m.len x.len / 8) } else x)
            ∧ Sent t ⟨.mreplyArrival, .n4 m.score m.sctx m.id 0⟩ m.schip m.score ∧ ⟨.messageFillComplete, .n2 core e.n⟩ ∈ t.agenda)
      ∧ (s.ctxGone m.ctx = false → (∀ e ∈ (s.core core).recv, e.st = .posted → e.ctx = m.ctx → m.meets e.crit.toNat = false) →
          Gives .messageArrival s fun t => t.mem = s.mem ∧ t.thr = s.thr ∧ t.cores = s.cores
            ∧ t.msgsOf core m.ctx = (if (s.msgsOf core m.ctx).length < 64 then s.msgsOf core m.ctx ++ [m] else s.msgsOf core m.ctx)
            ∧ Sent t ⟨.mreplyArrival, .n4 m.score m.sctx m.id (if (s.msgsOf core m.ctx).length < 64 then 1 else 3)⟩ m.schip m.score))
  ∧ ∀ (s : State) core n e m, s.ev = .n2 core n → (s.core core).recv.find? (·.n == n) = some e → e.msg = some m → e.ck < 2 ^ 20 → s.crews.get? e.ck ≠ none →
      (e.left ≠ [] → Memory.wf s.mem = true → Gives .messageFillComplete s fun t => ∃ k ∈ e.left, ∃ i, e.left[i]? = some k
        ∧ (let key := spadKey (coreOfCk e.ck) ((s.C e.ck).spBase + (e.buf + 8 * k))
          memRdN t.mem key 8 = m.data / 2 ^ (64 * k) % 2 ^ 64 ∧ (∀ a, ¬ (key ≤ a ∧ a < key + 8) → memRd t.mem a = memRd s.mem a) ∧ t.empt = s.empt.filter (· != key))
        ∧ (t.core core).recv.find? (·.n == n) = some { e with left := e.left.eraseIdx i } ∧ t.thr = s.thr)
      ∧ (e.left = [] → e.wait = [] → (s.C e.ck).st ≠ .draining → Gives .messageFillComplete s fun t => t.mem = s.mem ∧ t.thr = s.thr
        ∧ (t.core core).recv = (s.core core).recv.map fun x => if x.n = n then { x with st := .arrived } else x)

/-- R294, R285: POST locks G and sends the claim of its queue's next slot as an access of the lowest lane. The home of WIDX gives the index and advances it, if a
queue there takes packets, else all ones, which end the POST. A claimed slot with room takes words 1 to 7, one without waits for RIDX; the header follows once the
accesses before it are over, and ends the POST with the index. A refused access ends it without a result. -/
def Sys2Proof.Claims.Posts : Prop :=
  (∀ f s h e, Issues (.post f) s → s.iss.lanes ≠ [] → let a := (s.rT s.lowLane.tk).gr f.g.toNat
      a.toNat % 64 = 0 → s.check s.lowLane a 64 ⟨true, true, false⟩ (fun _ => true) = .ok h e → blk s f.s 0 / 2 ^ 60 % 8 < 6 →
      Gives (.post f) s fun t => t.mem = s.mem ∧ t.crews = s.crews
        ∧ (∀ l ∈ s.iss.lanes, (∃ k ∈ (t.T l.tk).locks, k.id = s.ids ∧ k.d = f.g.toNat ∧ k.due = none) ∧ (t.T l.tk).g = (s.T l.tk).g)
        ∧ Carried t ⟨.atomicRequest, .n6 s.chip s.lowLane.tk s.iss.ctx a.toNat s.ids 0⟩ h.chip h.core
        ∧ ∃ j, t.posts = s.posts ++ [j] ∧ j.id = s.ids ∧ j.tk = s.lowLane.tk ∧ j.ctx = s.iss.ctx ∧ j.qd = a.toNat
          ∧ j.words = (List.range 8).map (fun n => (s.sreg (f.s.toNat + n)).toNat) ∧ j.lanes = s.iss.lanes.map (·.tk))
  ∧ (∀ (s : State) chip tk ctx qd id h p, s.ev = .n6 chip tk ctx qd id 0 → s.homeOf ctx qd = some h → h.chip = s.chip → s.pages.get? (h.key ctx) = some p →
      Grants p true true → s.poison = [] → s.agenda.any (s.otherInput h.core (chip == s.chip && coreOfTk tk == h.core)) = false →
      let k := s.byteKey (h.key ctx) p h.pofs
      let i := memRdN s.mem k 8
      let takes := ∃ q ∈ s.queues, q.1 / 64 = ctx ∧ q.2.desc = qd ∧ (q.2.st = .active ∨ q.2.st = .paused)
      (takes → Gives .atomicRequest s fun t => t.thr = s.thr ∧ t.mem = memWrN s.mem k 8 (i + 1) ∧ Sent t ⟨.postPublish, .n3 id 1 i⟩ chip (coreOfTk tk)
        ∧ ∀ q ∈ s.queues, q.1 / 64 = ctx → q.2.desc = qd → Sent t ⟨.queueNotice, .n3 ctx (q.1 % 64) ((i + 1) % 2 ^ 64)⟩ s.chip (504 + q.2.die))
      ∧ (¬ takes → Gives .atomicRequest s fun t => Net s t ∧ Sent t ⟨.postPublish, .n3 id 1 0xffffffffffffffff⟩ chip (coreOfTk tk)))
  ∧ (∀ (s : State) id v j, s.ev = .n3 id 1 v → PostAt s id j →
      (v = 0xffffffffffffffff → Gives .postPublish s fun t => t.mem = s.mem ∧ PostEnds s t j v)
      ∧ (v ≠ 0xffffffffffffffff → (s.T j.tk).pend.any (·.id == id) = true → Gives .postPublish s fun t => t.mem = s.mem ∧ t.crews = s.crews
        ∧ (∀ tk, (t.T tk).g = (s.T tk).g) ∧ (∃ x ∈ t.posts, x = { j with claim := v }) ∧ ⟨.postPublish, .n3 id 2 0⟩ ∈ t.agenda))
  ∧ (∀ (s : State) id v j r ring n, s.ev = .n3 id 2 v → PostAt s id j → s.postRead j = .ok (r, ring, n) → (∀ w ∈ s.owed, w.id < s.ids) → j.words.length = 8 →
      let slot := ring + 64 * (j.claim % 2 ^ n)
      ∀ k : Nat → Nat, (∀ m, m < 7 → KeptAt s j.ctx (slot + 8 + 8 * m) (k m)) →
      ((j.claim + 2 ^ 64 - r) % 2 ^ 64 < 2 ^ n → Gives .postPublish s fun t => (∀ tk, (t.T tk).g = (s.T tk).g) ∧ ⟨.postPublish, .n3 id 3 slot⟩ ∈ t.agenda
        ∧ t.mem = (List.range 7).foldl (fun m i => memWrN m (k i) 8 (j.words.getD (i + 1) 0)) s.mem)
      ∧ (¬ (j.claim + 2 ^ 64 - r) % 2 ^ 64 < 2 ^ n → Gives .postPublish s fun t => t.mem = s.mem ∧ t.thr = s.thr ∧ t.posts = s.posts
        ∧ ((∃ q, KeptAt s j.ctx (j.qd + 8) q) → ⟨j.ctx, (j.qd + 8) / 8 * 8, ⟨.postPublish, .n3 id 2 0⟩⟩ ∈ t.hooks)))
  ∧ (∀ (s : State) id slot j, s.ev = .n3 id 3 slot → PostAt s id j → (∀ w ∈ s.owed, w.id < s.ids) → ∀ k, KeptAt s j.ctx slot k →
      (s.needDone j.need = true → Gives .postPublish s fun t => t.mem = memWrN s.mem k 8 (2 ^ 63 + j.words.headD 0 % 2 ^ 63) ∧ PostEnds s t j j.claim)
      ∧ (s.needDone j.need = false → exec .postPublish s = .next { s with agenda := s.agenda ++ [⟨.postPublish, .n3 id 3 slot⟩] }))
  ∧ (∀ (s : State) id v j, s.ev = .n3 id 4 v → PostAt s id j → Gives .postPublish s fun t => t.mem = s.mem ∧ PostEnds s t j j.claim)
  ∧ ∀ (s : State) id v j, s.ev = .n3 id 9 v → PostAt s id j → Gives .postPublish s fun t => t.mem = s.mem ∧ (∀ x ∈ t.posts, x.id ≠ id) ∧ ∀ tk, (t.T tk).g = (s.T tk).g

/-- R293, R295, R296: CPOLL and CWAIT block their lanes and read the record that each lane's cursor names. A record of the current lap is written to G with bit 63
and the lane goes on, an acquire; otherwise CPOLL goes on with its cursor in G, and CWAIT watches the word, reads again when it has changed, and goes on with its
cursor when its limit runs out. -/
def Sys2Proof.Claims.RingWords : Prop :=
  (∀ (wt : Bool) f s (h : LaneRef → HomeLoc) (e : LaneRef → PermE), let i : Instr := if wt then .cwait f else .cpoll f
      let hd (l : LaneRef) : Word := s.code f.s l.tk
      let ea (l : LaneRef) : Nat := ringEntry (hd l).toNat ((s.rT l.tk).gr f.g.toNat).toNat
      Issues i s → (∀ l ∈ s.iss.lanes, (s.T l.tk).ctx = s.iss.ctx ∧ coreOfTk l.tk = s.iss.core ∧ bits (hd l) 63 56 = 0 ∧ 2 ≤ (hd l).toNat % 32 ∧ (hd l).toNat % 32 ≤ 20
        ∧ (wt = true → bits (s.code (f.s + 1) l.tk) 63 32 = 0)
        ∧ s.check l (W (ea l)) 8 ⟨true, false, false⟩ (fun _ => true) = .ok (h l) (e l)) →
      Gives i s fun t => t.mem = s.mem ∧ t.crews = s.crews ∧ ∀ l ∈ s.iss.lanes,
        (t.T l.tk).st = .blocked ∧ (t.T l.tk).wait = .cwait ∧ (t.T l.tk).g = (s.T l.tk).g
        ∧ (∃ w, (t.T l.tk).cq = some w ∧ w.wait = wt ∧ w.cur = (s.rT l.tk).gr f.g.toNat ∧ w.handle = hd l ∧ w.start = none
          ∧ w.limit = if wt then 1024 * (s.code (f.s + 1) l.tk).toNat else 0)
        ∧ ∃ r x, Carried t ⟨.remoteRead, .req r⟩ (h l).chip (h l).core ∧ r.op = .load false ∧ r.lanes = [x] ∧ x.tk = l.tk ∧ x.id = s.ids ∧ x.size = 8 ∧ x.ea = ea l)
  ∧ (∀ (s : State) tk w v fl, s.ev = .resp tk w.id (.data v fl) → tk ≠ 2 ^ 31 → tk ≠ 2 ^ 30 → s.waiter tk w.id = some tk → (s.T tk).cq = some w → (s.T tk).ptrap = [] →
      let n := w.handle.toNat % 32
      let cur := w.cur.toNat % 2 ^ 63
      let fresh := (if v.getLsbD 63 then 1 else 0) = 1 - cur / 2 ^ n % 2
      (fresh → Gives .readDataResponse s fun t => t.mem = s.mem ∧ (t.T tk).st = .ready ∧ (t.T tk).cq = none
          ∧ (t.T tk).g = (s.T tk).g.setIfInBounds w.g (v ||| 0x8000000000000000)
          ∧ ∀ r ∈ t.reps, holderDie r.holder = dieOf (coreOfTk tk) → ∀ x, r.lo = some x ∨ r.hi = some x → x.chip = s.chip ∧ dieOf (coreOfKey x.key) = dieOf (coreOfTk tk))
      ∧ (¬ fresh → w.wait = false → Gives .readDataResponse s fun t => t.mem = s.mem ∧ (t.T tk).st = .ready ∧ (t.T tk).cq = none ∧ (t.T tk).g = (s.T tk).g)
      ∧ ∀ h, ¬ fresh → w.wait = true → s.homeAt (coreOfTk tk) (s.T tk).ctx (ringEntry w.handle.toNat cur) = some h → Gives .readDataResponse s fun t => t.mem = s.mem
          ∧ (t.T tk).st = (s.T tk).st ∧ (t.T tk).g = (s.T tk).g
          ∧ (∃ w', (t.T tk).cq = some w' ∧ w' = { w with id := w'.id, start := some (w.start.getD (s.clockOf (coreOfTk tk))) })
          ∧ ∃ r x, Carried t ⟨.watchRequest, .req r⟩ h.chip h.core ∧ r.op = .watch ∧ r.lanes = [x] ∧ x.tk = tk ∧ x.ea = ringEntry w.handle.toNat cur ∧ x.data = v.toNat)
  ∧ (∀ (s : State) tk w h, s.ev = .resp tk w.id .woken → tk ≠ 2 ^ 31 → tk ≠ 2 ^ 30 → s.waiter tk w.id = some tk → (s.T tk).cq = some w → (s.T tk).ptrap = [] →
      s.homeAt (coreOfTk tk) (s.T tk).ctx (ringEntry w.handle.toNat (w.cur.toNat % 2 ^ 63)) = some h →
      Gives .ackResponse s fun t => t.mem = s.mem ∧ (t.T tk).st = (s.T tk).st ∧ (t.T tk).g = (s.T tk).g
        ∧ ∃ r x, Carried t ⟨.remoteRead, .req r⟩ h.chip h.core ∧ r.op = .load false ∧ r.lanes = [x] ∧ x.tk = tk ∧ x.ea = ringEntry w.handle.toNat (w.cur.toNat % 2 ^ 63))
  ∧ ∀ (s : State) tk w n, s.ev = .thread tk → (s.T tk).cq = some w → w.start = some n → (s.T tk).st = .blocked → (s.T tk).wait = .cwait → (s.T tk).ptrap = [] →
      (w.limit ≠ 0 ∧ n + w.limit ≤ s.clockOf (coreOfTk tk) → Gives .cwaitTimeout s fun t => t.mem = s.mem ∧ (t.T tk).st = .ready ∧ (t.T tk).cq = none ∧ (t.T tk).g = (s.T tk).g)
      ∧ (¬ (w.limit ≠ 0 ∧ n + w.limit ≤ s.clockOf (coreOfTk tk)) → exec .cwaitTimeout s = .next s)

namespace Sys2Proof.Claims
open Sys2Proof Machine

/-! ### Queues and kernels -/

/-- Nyend's answer to the host driver: a status of R455 and a value. -/
def Replied (s t : State) (code v : Nat) : Prop := t.replies = s.replies ++ [⟨code, v⟩]

/-- The node that an event names. -/
def NodeAt (s : State) (ctx qid idx : Nat) (n : Node) : Prop := s.nodes.find? (fun n => n.ctx == ctx && n.qid == qid && n.idx == idx) = some n

/-- A crew as placement leaves it (R134, R138, R326). -/
def placedCrew (s : State) (n : Node) (kd : KDesc) (i : Nat) (p : Spot) (c : Crew) : Prop :=
  c.st = .placed ∧ c.ctx = n.ctx ∧ c.index = BitVec.ofNat 32 i ∧ c.ktab = BitVec.ofNat 12 n.kern ∧ c.spBase = p.sp ∧ c.spSize = kd.spad ∧ c.pvBase = p.pv
  ∧ c.pvSize = kd.priv ∧ c.tiles = p.tiles ∧ c.live = 0xffffffff ∧ c.k = Vector.replicate 8 0 ∧ c.j = Vector.replicate 8 ⟨0, 0⟩ ∧ c.memb = s.membsOf n.ctx kd i
  ∧ c.bind = kd.binds.map fun b => ⟨b.spoff, b.blen, (b.va + i * b.stride) % 2 ^ 56, b.wb, []⟩

/-- A crew lane at its start (R134, R321): g0 its number, every other register 0, its identity, seed and modes from the kernel. -/
def startedLane (e : KEnt) (i l : Nat) (x : Thr) : Prop :=
  x.st = .ready ∧ x.g = (Vector.replicate 32 0).set 0 (W l) ∧ x.pc = e.code ∧ x.trapen = e.trapen ∧ x.rmode = e.round ∧ x.handler = e.trapv ∧ x.kind = 2
  ∧ x.number = BitVec.ofNat 32 (i * 32 + l) ∧ x.srng = splitSeed e.seed (W (i * 32 + l))

end Sys2Proof.Claims

open Sys2Proof Machine Claims

/-- R292, R293: a completion record with room in its ring is written, words 1 to 3 before the word with its lap bit, and the write cursor advances; a full
ring keeps it until RCUR is written; a record without a ring goes to the fault queue. A ring that keeps R292 is registered with its cursors 0, any other refused. -/
def Sys2Proof.Claims.CompletionRings : Prop :=
  (∀ (s : State) r hd caddr wcur rcur x, s.ev = .crec r → s.ctxGone r.ctx = false → s.rings.get? (r.ctx * 64 + r.ring) = some (hd, caddr) → r.toFq = false →
      r.stage = 0 → s.firstRec r.ctx r.ring = some r → s.crecs.Nodup → s.recordPlace r.ctx hd caddr = .ok (wcur, rcur) → (∀ w ∈ s.owed, w.id < s.ids) →
      (∀ q, s.queue r.ctx (r.w0 / 2 ^ 48 % 64) = some q → q.st ≠ .draining) →
      let n := hd % 32
      let a := hd / 32 * 32 + 32 * (wcur % 2 ^ n)
      s.rdA r.ctx 0 false (a + 24) 8 = .ok x → ∀ k : Nat → Nat, (∀ m, m < 4 → KeptAt s r.ctx (a + 8 * m) (k m)) → ∀ kc, KeptAt s r.ctx caddr kc →
      ((wcur + 2 ^ 64 - rcur) % 2 ^ 64 < 2 ^ n → Gives .completionRecordWrite s fun t => t.thr = s.thr ∧ (∀ y, y ∈ t.crecs ↔ y ∈ s.crecs ∧ y ≠ r)
        ∧ t.mem = memWrN (memWrN (memWrN (memWrN (memWrN s.mem (k 1) 8 r.w1) (k 2) 8 r.w2) (k 3) 8 r.w3) (k 0) 8
            ((1 - wcur / 2 ^ n % 2) * 2 ^ 63 + r.w0 % 2 ^ 63)) kc 8 ((wcur + 1) % 2 ^ 64))
      ∧ (¬ (wcur + 2 ^ 64 - rcur) % 2 ^ 64 < 2 ^ n → Gives .completionRecordWrite s fun t => t.mem = s.mem ∧ t.crecs = s.crecs ∧ t.thr = s.thr
        ∧ ((∃ q, KeptAt s r.ctx (caddr + 8) q) → ⟨r.ctx, (caddr + 8) / 8 * 8, ⟨.completionRecordWrite, .crec r⟩⟩ ∈ t.hooks)))
  ∧ (∀ (s : State) r, s.ev = .crec r → s.ctxGone r.ctx = false → s.rings.get? (r.ctx * 64 + r.ring) = none → r.toFq = false →
      (∀ q, s.queue r.ctx (r.w0 / 2 ^ 48 % 64) = some q → q.st ≠ .draining) →
      Gives .completionRecordWrite s fun t => t.mem = s.mem ∧ t.crecs = s.crecs.erase r ∧ ∃ f : FRec, ⟨.faultRecordWrite, .frec r.ctx f⟩ ∈ t.agenda ∧ f.kind = 4
        ∧ f.aux0 = W r.w0 ∧ f.aux1 = W r.w1 ∧ f.addr = W r.w2 ∧ f.info = W r.w3 ∧ f.ring = r.ring)
  ∧ (∀ (s : State) ctx n hd caddr, s.ev = .n4 ctx n hd caddr → (s.ctx ctx).st ≠ .free →
      (n < 64 → s.ringOk ctx hd caddr = true → s.wrChk ctx 0 caddr = .ok () → (∀ w ∈ s.owed, w.id < s.ids) →
        ∀ k0, KeptAt s ctx caddr k0 → ∀ k1, KeptAt s ctx (caddr + 8) k1 →
        Gives .ringRegister s fun t => Replied s t 0 0 ∧ t.rings = s.rings.set (ctx * 64 + n) (hd, caddr) ∧ t.mem = memWrN (memWrN s.mem k0 8 0) k1 8 0)
      ∧ (64 ≤ n ∨ s.ringOk ctx hd caddr = false → Gives .ringRegister s fun t => Replied s t 8 0 ∧ t.rings = s.rings ∧ t.mem = s.mem))
  ∧ ∀ (s : State) ctx n hd caddr bad x, s.ev = .n6 ctx n hd caddr bad x → Gives .ringRegister s fun t => t.mem = s.mem
      ∧ if bad = 0 then Replied s t 0 0 ∧ t.rings = s.rings.set (ctx * 64 + n) (hd, caddr) else Replied s t 8 0 ∧ t.rings = s.rings

/-- R281-R286, R289, R290: the requests on queues and their states; the notice of a write index; a packet taken becomes a node and frees its slot, a
malformed one puts its queue in ERROR. The readings of log 38 apply. -/
def Obligations.Queues : Prop :=
  (∀ (s : State) ctx qid q, s.ev = .n2 ctx qid → (s.ctx ctx).st ≠ .free → s.queue ctx qid = some q →
      (Gives .queuePause s fun t => if q.st = .active then Replied s t 0 0 ∧ t.queue ctx qid = some { q with st := .paused } else Replied s t 1 0 ∧ t.queues = s.queues)
      ∧ (Gives .queueResume s fun t => if q.st = .paused then Replied s t 0 0 ∧ t.queue ctx qid = some { q with st := .active } else Replied s t 1 0 ∧ t.queues = s.queues)
      ∧ (Gives .queueReset s fun t => if q.st = .error then Replied s t 0 0 ∧ t.queue ctx qid = some { q with st := .active, ridx := (q.ridx + 1) % 2 ^ 64 }
          else Replied s t 1 0 ∧ t.queues = s.queues)
      ∧ (Gives .queueDestroy s fun t => if q.st = .active ∨ q.st = .paused ∨ q.st = .error then Replied s t 0 0
            ∧ (∀ n ∈ t.nodes, n.ctx = ctx → n.qid = qid → n.st ≠ .waiting)
            ∧ ((∃ n ∈ s.nodes, n.ctx = ctx ∧ n.qid = qid ∧ n.st = .running ∧ ∀ m ∈ s.nodes, m.ctx = ctx → m.qid = qid → m.idx = n.idx → m = n) → t.queue ctx qid = some { q with st := .draining })
          else Replied s t 1 0 ∧ t.queues = s.queues))
  ∧ (∀ (s : State) ctx desc ws qid, s.ev = .n2 ctx desc → (s.ctx ctx).st ≠ .free → badAddr desc 64 = false → s.writable ctx desc = true →
      s.rdWords ctx 0 false desc 8 = .ok ws → qdescBad ws = false → covered (s.ctx ctx).ptab 64 (ws.getD 2 0 % 2 ^ 56) (64 * 2 ^ (ws.getD 3 0 % 32)) = true →
      s.watchedWidx ctx desc < 64 → s.firstAbsent ctx (ws.getD 2 0 % 2 ^ 56) (64 * 2 ^ (ws.getD 3 0 % 32)) = none →
      ((List.range 64).find? fun n => (s.queue ctx n).isNone) = some qid → (∀ a h, homeIn (s.ctx ctx).ptab a = some h → h.chip = s.chip) → (∀ w ∈ s.owed, w.id < s.ids) →
      Gives .queueCreate s fun t => Replied s t 0 qid ∧ t.queue ctx qid = some
        { desc := desc, st := .active, ring := ws.getD 2 0 % 2 ^ 56, die := ws.getD 3 0 / 2 ^ 16 % 4, log2n := ws.getD 3 0 % 32, widx := 0, ridx := 0, watching := false, held := false })
  ∧ (∀ (s : State) ctx desc, s.ev = .n2 ctx desc → (s.ctx ctx).st ≠ .free → (badAddr desc 64 = true ∨ s.writable ctx desc = false) →
      Gives .queueCreate s fun t => Replied s t 7 0 ∧ t.queues = s.queues ∧ t.mem = s.mem)
  ∧ (∀ (s : State) ctx qid v q, s.ev = .n3 ctx qid v → s.queue ctx qid = some q →
      Gives .queueNotice s fun t => t.mem = s.mem ∧ t.thr = s.thr
        ∧ t.queue ctx qid = some (if (v + 2 ^ 64 - q.widx) % 2 ^ 64 < 2 ^ 63 then { q with widx := v } else q))
  ∧ ∀ (s : State) ctx qid q, s.ev = .n3 ctx qid 0 → s.queue ctx qid = some q → (∀ w ∈ s.owed, w.id < s.ids) →
      s.mayConsume ctx qid { q with watching := false, held := false } = true →
      let q' := { q with watching := false, held := false }
      let slot := q.ring + 64 * (q.ridx % 2 ^ q.log2n)
      let s1 := s.setQueue ctx qid q'
      ∀ k0, KeptAt s ctx slot k0 → ∀ k1, KeptAt s ctx (q.desc + 8) k1 → ∀ k2, KeptAt s ctx (q.desc + 32) k2 → ∀ k3, KeptAt s ctx (q.desc + 31) k3 →
      (∀ p kd f, s1.takePkt ctx 0 slot = .took p kd f → Gives .packetConsume s fun t => t.thr = s.thr
        ∧ t.queue ctx qid = some { q' with ridx := (q.ridx + 1) % 2 ^ 64 }
        ∧ t.mem = memWrN (memWrN s.mem k0 8 0) k1 8 ((q.ridx + 1) % 2 ^ 64)
        ∧ ∃ n ∈ t.nodes, n.ctx = ctx ∧ n.qid = qid ∧ n.idx = q.ridx ∧ n.typ = p.typ ∧ n.kd = kd ∧ n.foot = f ∧ n.tag = p.tag ∧ n.ring = p.ring ∧ n.cr = p.cr)
      ∧ (∀ p, s1.takePkt ctx 0 slot = .bad p → Gives .packetConsume s fun t => t.thr = s.thr ∧ t.nodes = s.nodes
          ∧ t.queue ctx qid = some { q' with st := .error } ∧ t.mem = memWrN (memWrN (memWrN s.mem k0 8 0) k2 8 q.ridx) k3 1 96
          ∧ ∃ r ∈ t.crecs, r.ring = (p.map (·.ring)).getD 0 ∧ r.w0 = 2 * 2 ^ 59 + qid * 2 ^ 48 + (p.map (·.tag)).getD 0 * 2 ^ 32 + q.ridx % 2 ^ 32)

/-- R290, R291, R317-R322, R328, R331: a node that completes leaves its record and frees its dependents; a READY kernel enters its entry and begins its
distribution; units are placed, started and created; an entry is cleared on every chip. -/
def Sys2Proof.Claims.Kernels : Prop :=
  (∀ (s : State) ctx qid idx n, s.ev = .n3 ctx qid idx → NodeAt s ctx qid idx n → n.st ≠ .complete →
      (n.typ ≠ 1 → Gives .nodeComplete s fun t => t.thr = s.thr ∧ (∀ m ∈ t.nodes, ¬ (m.ctx = ctx ∧ m.qid = qid ∧ m.idx = idx))
        ∧ t.crecs = s.crecs ++ (if n.cr then [nodeRecord n] else []) ∧ ∀ m ∈ t.nodes, m.ctx = ctx → m.qid = qid → idx ∉ m.deps)
      ∧ (n.typ = 1 → n.st = .running → n.units = 0 → Gives .nodeComplete s fun t => t.thr = s.thr ∧ ⟨.kernelEntryClear, .n3 ctx qid idx⟩ ∈ t.agenda
        ∧ (∀ m ∈ t.nodes, m.ctx = ctx → m.qid = qid → m.idx = idx → m.st = .complete)
        ∧ t.crecs = s.crecs ++ (if n.cr then [nodeRecord { n with count := n.created, status := if n.fault.isSome then 1 else 0 }] else [])))
  ∧ (∀ (s : State) ctx qid idx n kd l, s.ev = .n3 ctx qid idx → NodeAt s ctx qid idx n → n.kd = some kd → n.st = .ready → (s.ctx ctx).st = .live →
      (∀ m ∈ s.nodes, ∀ k, m.ctx = ctx → (m.st = .entering ∨ m.st = .launching ∨ m.st = .running) → m.kd = some k → ∀ g ∈ k.groups, g ∉ kd.groups) →
      n.ctx = ctx → n.qid = qid → n.idx = idx → s.ctxChips ctx = .ok l →
      Gives .distributionStart s fun t => t.thr = s.thr ∧ t.mem = s.mem ∧ t.crews = s.crews ∧
        let e : KEnt := { code := BitVec.ofNat 56 kd.code, trapv := kd.trapv, round := kd.round, trapen := kd.trapen, carry := kd.carry, nscal := kd.nscal
                          lconst := kd.lconst, seed := kd.seed, roam := kd.roam, fuse := kd.fuse, chip := s.chip, qid := qid, pkt := idx % 2 ^ 32, groups := kd.groups
                          chips := s.others l }
        t.kern.get? (ctx * 4096 + n.kern) = some e ∧ (∀ c ∈ s.others l, Sent t ⟨.distributionStart, .kent ctx n.kern e⟩ c 504)
        ∧ (s.others l = [] → ∃ m ∈ t.nodes, m.ctx = ctx ∧ m.qid = qid ∧ m.idx = idx ∧ (m.st = .launching ∨ m.st = .running)))
  ∧ (∀ (s : State) ctx kern e, s.ev = .kent ctx kern e → Gives .distributionStart s fun t => t.thr = s.thr
      ∧ t.kern.get? (ctx * 4096 + kern) = some e ∧ Sent t ⟨.distributionStart, .n2 ctx kern⟩ e.chip 504)
  ∧ (∀ (s : State) ctx kern chip x, s.ev = .n4 ctx kern chip x → Gives .kernelEntryClear s fun t => t.thr = s.thr
      ∧ t.kern = s.kern.del (ctx * 4096 + kern) ∧ Sent t ⟨.kernelEntryClear, .n2 ctx kern⟩ chip 504)
  ∧ (∀ (s : State) d n kd i rest p, s.ev = .n1 d → s.nextUnit d = some (n, some p) → n.kd = some kd → n.share d = i :: rest → p.block < 16 → p.bank < 2 →
      Gives .crewPlacement s fun t => t.mem = s.mem ∧ (let ck := ckOf p.core p.bank p.block
        placedCrew s n kd i p (t.C ck)
        ∧ (∀ l, l < 32 → (t.T (laneTk ck l)).st = .created ∧ (t.T (laneTk ck l)).ctx = n.ctx ∧ (t.T (laneTk ck l)).kind = 2)
        ∧ (∀ c, c ≠ ck → t.C c = s.C c)
        ∧ (if kd.binds.any (·.fill) then ⟨.bindFill, .n4 ck 0 0 0⟩ else ⟨.crewStart, .n1 ck⟩) ∈ t.agenda))
  ∧ (∀ (s : State) ck e kd ws, s.ev = .n1 ck → (s.crews.get? ck).isSome → s.kent (s.C ck).ctx (s.C ck).ktab.toNat = some e →
      (s.kernNode (s.C ck).ctx (s.C ck).ktab.toNat).bind (·.kd) = some kd → s.rdWords (s.C ck).ctx 0 true (e.lconst + 24) (e.nscal - 3) = .ok ws →
      (s.C ck).st = .placed → (∀ l, l < 32 → (s.T (laneTk ck l)).ptrap = []) →
      Gives .crewStart s fun t => t.mem = s.mem
        ∧ (∀ c, c ≠ ck → t.C c = s.C c) ∧ (t.C ck).st = (if s.ctxActive (coreOfCk ck) (s.C ck).ctx then .running else .suspended)
        ∧ (let i := (s.C ck).index.toNat
          (t.C ck).sr 0 = W (i % kd.gx) ∧ (t.C ck).sr 1 = W (i / kd.gx % kd.gy) ∧ (t.C ck).sr 2 = W (i / (kd.gx * kd.gy))
          ∧ (∀ n, 3 ≤ n → n < 160 → (t.C ck).sr n = W (ws.getD (n - 3) 0))
          ∧ ∀ l, l < 32 → startedLane e i l (t.T (laneTk ck l))))
  ∧ (∀ (s : State) ck b pos c x kd kb v, s.ev = .n4 ck b pos 0 → s.crews.get? ck = some c → c.bind[b]? = some x → c.st = .placed →
      (s.kernNode c.ctx c.ktab.toNat).bind (·.kd) = some kd → kd.binds[b]? = some kb →
      (kb.fill = true → pos < x.blen → s.rdA c.ctx 0 false ((x.va + pos) % 2 ^ 56) 8 = .ok v → Gives .bindFill s fun t => t.thr = s.thr ∧ t.crews = s.crews
        ∧ (let k := spadKey (coreOfCk ck) (c.spBase + x.spoff + pos)
          t.mem = memWrN s.mem k 8 v ∧ t.empt = s.empt.filter (· != k)) ∧ t.agenda = s.agenda ++ [⟨.bindFill, .n4 ck b (pos + 8) 0⟩])
      ∧ (kb.fill = false ∨ x.blen ≤ pos → exec .bindFill s = .next { s with agenda := s.agenda ++ [⟨.bindFill, .n4 ck (b + 1) 0 0⟩] }))
  ∧ ∀ (s : State) d n kd i rest seed h x, s.ev = .n3 d 0 x → s.nextUnit d = some (n, none) → n.kd = some kd → n.share d = i :: rest →
      s.rdA n.ctx 0 false (kd.seeds + 8 * i) 8 = .ok seed → seed < 2 ^ 56 → homeIn (s.ctx n.ctx).ptab seed = some h →
      Gives .roamingThreadCreate s fun t => t.mem = s.mem ∧ t.thr = s.thr ∧ ∃ c : Spawn, Sent t ⟨.spawnRecordArrival, .spawn h.chip h.core (2 ^ 30) 0 c⟩ h.chip h.core
        ∧ c.ln = true ∧ c.g0 = W i ∧ c.g1 = W seed ∧ c.pcw = 0 ∧ c.ctx = n.ctx ∧ c.kern = n.kern ∧ c.number = BitVec.ofNat 32 i
        ∧ c.srng = splitSeed kd.seed (W i) ∧ c.addr = seed

/-- R325, R138, R330, R331, R333: a thief receives the upper half of its victim's indices; a drained crew that nothing waits for leaves; a gang's coordinator
commits when every chip reserved and releases otherwise; group entries are written while no kernel holds them. -/
def Sys2Proof.Claims.StealsRetirementGangs : Prop :=
  (∀ (s : State) ctx qid idx thief victim x n, s.ev = .n6 ctx qid idx thief victim x → NodeAt s ctx qid idx n → n.ctx = ctx →
      let l := n.share victim
      Gives .stealRequest s fun t => t.thr = s.thr ∧ t.mem = s.mem
        ∧ Sent t ⟨.stealReply, .steal ctx qid idx thief (l.drop (l.length - l.length / 2))⟩ s.chip (504 + thief)
        ∧ ∀ m ∈ t.nodes, m.ctx = ctx → m.qid = qid → m.idx = idx → victim < m.shares.length → m.share victim = l.take (l.length - l.length / 2))
  ∧ (∀ (s : State) ctx qid idx thief got, s.ev = .steal ctx qid idx thief got → Gives .stealReply s fun t => t.thr = s.thr ∧ t.mem = s.mem ∧ t.crews = s.crews
      ∧ ∀ m ∈ s.nodes, m.ctx = ctx → m.qid = qid → m.idx = idx → ∃ m' ∈ t.nodes, m'.ctx = ctx ∧ m'.qid = qid ∧ m'.idx = idx
        ∧ (got ≠ [] → m'.shares = m.shares.set thief (isort (fun a b => decide (a ≤ b)) (m.share thief ++ got))))
  ∧ (∀ (s : State) ck c, s.ev = .n1 ck → s.crews.get? ck = some c → s.ctxActive (coreOfCk ck) c.ctx = true → ck / 16 % 2 = (s.core (coreOfCk ck)).active →
      c.st = .draining → s.crewBusy ck = false →
      (c.wmem = [] → s.spawnsOut c.ctx ⟨c.ktab.toNat, 2, c.index.toNat * 32⟩ = false → Gives .crewRetire s fun t => t.mem = s.mem ∧ t.crews = s.crews.del ck ∧ (∀ x ∈ t.thr, ckOfTk x.1 ≠ ck)
        ∧ Sent t ⟨.tempoParticipantNotice, .tnote c.ctx c.ktab.toNat false s.chip (coreOfCk ck) ⟨c.ktab.toNat, 2, c.index.toNat * 32⟩ none none⟩ (s.kernChip c.ctx c.ktab.toNat) 504)
      ∧ (c.wmem ≠ [] → Gives .crewRetire s fun t => t.mem = s.mem ∧ t.thr = s.thr ∧ t.C ck = { c with st := .detaching }))
  ∧ (∀ (s : State) ctx g chip ok x, s.ev = .gang ctx g chip ok x → (s.gagent ctx g).asking = [chip] →
      (((s.gagent ctx g).no = [] ∧ ok = true) → Gives .gangReserveAnswer s fun t => t.thr = s.thr ∧ (t.gagent ctx g).admitted = true
        ∧ ∀ c ∈ (s.gagent ctx g).yes ++ [chip], Sent t ⟨.gangCommit, .n2 ctx g⟩ c 504)
      ∧ (ok = false → Gives .gangReserveAnswer s fun t => t.thr = s.thr ∧ (t.gagent ctx g).admitted = (s.gagent ctx g).admitted
        ∧ (t.gagent ctx g).no = (s.gagent ctx g).no ++ [chip] ∧ ∀ c ∈ (s.gagent ctx g).yes, Sent t ⟨.gangRelease, .n2 ctx g⟩ c 504))
  ∧ (∀ (s : State) ctx g coord, s.ev = .n3 ctx g coord → s.holderOf ctx g = none →
      Gives .gangReserve s fun t => Net s t ∧ Sent t ⟨.gangReserveAnswer, .gang ctx g s.chip false []⟩ coord 504)
  ∧ (∀ (s : State) ctx g coord n kd i m p, s.ev = .n3 ctx g coord → s.holderOf ctx g = some (n, kd) → (s.ctx ctx).st = .live → s.dev.stopped = false →
      (∀ r ∈ s.resvs, ¬ (r.ctx = ctx ∧ r.g = g)) → i ∈ n.gangIdx → (kd.mems.filter fun m => m.1 == g && m.2.2.1 == s.chip) = [(g, m, s.chip, i)] → s.findSpot n.ctx kd i (i % 4) = some p →
      Gives .gangReserve s fun t => t.thr = s.thr ∧ t.crews = s.crews ∧ t.mem = s.mem ∧ Sent t ⟨.gangReserveAnswer, .gang ctx g s.chip true []⟩ coord 504
        ∧ t.resvs = s.resvs ++ [⟨n.ctx, g, m, n.kern, i, p.core, p.block, p.sp, p.pv, p.tiles⟩])
  ∧ (∀ (s : State) ctx g n kd r b, s.ev = .n2 ctx g → s.holderOf ctx g = some (n, kd) → (s.resvs.filter fun r => r.ctx == ctx && r.g == g) = [r] →
      s.bankOf r.core r.ctx = some b →
      Gives .gangCommit s fun t => t.mem = s.mem ∧ (∀ x ∈ t.resvs, ¬ (x.ctx = ctx ∧ x.g = g))
        ∧ placedCrew s n kd r.index ⟨r.core, b, r.block, r.sp, r.pv, r.tiles⟩ (t.C (ckOf r.core b r.block)))
  ∧ (∀ (s : State) ctx g, s.ev = .n2 ctx g → Gives .gangRelease s fun t => t.mem = s.mem ∧ t.thr = s.thr ∧ t.crews = s.crews
      ∧ t.resvs = s.resvs.filter fun r => !(r.ctx == ctx && r.g == g))
  ∧ ∀ (s : State) ctx g e, s.ev = .gent ctx g e → (s.ctx ctx).st ≠ .free →
      let held := (∃ m ∈ s.nodes, m.ctx = ctx ∧ (m.st = .entering ∨ m.st = .launching ∨ m.st = .running) ∧ ∃ kd, m.kd = some kd ∧ g ∈ kd.groups)
        ∨ ∃ x ∈ s.kern, x.1 / 4096 = ctx ∧ x.2.chip ≠ s.chip ∧ g ∈ x.2.groups
      let list := s.rdWords ctx 0 true e.mlist e.nmem
      (g < 256 → e.bad = false → ¬ held → (e.v = true → ∃ ws, list = .ok ws ∧ listBad ws = false) →
        Gives .groupEntryWrite s fun t => Replied s t 0 0 ∧ t.groups.get? (ctx * 256 + g) = some e)
      ∧ (256 ≤ g ∨ e.bad = true ∨ held ∨ (e.v = true ∧ ∃ ws, list = .ok ws ∧ listBad ws = true) → Gives .groupEntryWrite s fun t => Replied s t 9 0 ∧ t.groups = s.groups)

namespace Sys2Proof.Claims
open Sys2Proof Machine

/-! ### Copy and layout engines, matrix engine -/

/-- The ENG words (R308): 1 TCOPY, 2 LAYOUT, 3 MCAST. -/
def engInstr : Nat → XlgF → Instr
  | 1, f => .tcopy f
  | 2, f => .layout f
  | _, f => .mcast f

/-- The checks of an ENG word (R308): the descriptor aligned and in the share or readable, reserved bits zero, and a stream register of a TCOPY UNBOUND. -/
def EngOk (s : State) (ck kind : Nat) (sb : BitVec 8) : Prop :=
  let loc := s.sreg sb.toNat
  let w3 := s.sreg (sb.toNat + 3)
  loc.toNat % 64 = 0 ∧ (if loc.getLsbD 63 then bits loc 62 19 = 0 ∧ bits loc 18 0 + 64 ≤ (s.C ck).spSize
      else ∃ h e, s.check s.lowLane loc 64 ⟨true, false, false⟩ (fun _ => true) = .ok h e)
  ∧ bits w3 62 59 = 0 ∧ bits w3 55 0 = 0
  ∧ (w3.getLsbD 63 = true → kind = 1 ∧ ∃ r, (s.C ck).q[bits w3 58 56]? = some r ∧ r.st = .unbound)

/-- The words that post an operation with a pass block (R265): the operation's number and its tree register. -/
def passOf : Instr → Option (Nat × Nat × BitVec 8 × BitVec 5 × BitVec 4)
  | .mma f => some (0, 0, f.s, f.g, f.l)
  | .mmamCausal f => some (1, 0, f.s, f.g, f.l)
  | .mmamTree f => some (2, f.t.toNat, f.s, f.g, f.l)
  | .accz f => some (3, 0, f.s, f.g, f.l)
  | .accrd f => some (4, 0, f.s, f.g, f.l)
  | .accwr f => some (5, 0, f.s, f.g, f.l)
  | _ => none

/-- A matrix operation posted (R263, R266): its ticket's register is locked in the 32 lanes, the crew's sequence number advances, and the operation
waits at the cluster's engine with its block and the engine's time. -/
def Posted (s t : State) (ck op treg : Nat) (g : BitVec 5) (la : BitVec 4) (b : List Nat) : Prop :=
  t.mem = s.mem ∧ (EachLane s t fun _ x => { x with locks := x.locks ++ [lockOf s.ids g.toNat (gbit g.toNat) la.toNat true none none] })
  ∧ (∀ c, t.C c = if c = ck then { s.C ck with mseq := (s.C ck).mseq + 1 } else s.C c)
  ∧ ∃ o : MxOp, t.engine (s.iss.core / 4) = { s.engine (s.iss.core / 4) with ops := (s.engine (s.iss.core / 4)).ops ++ [o] }
    ∧ o.op = op ∧ o.treg = treg ∧ o.ck = ck ∧ o.ctx = (s.C ck).ctx ∧ o.blk = b ∧ o.seq = (s.C ck).mseq.toNat ∧ o.st = .waiting ∧ o.id = s.ids
    ∧ o.issued = (s.engine (s.iss.core / 4)).clock

/-- Every lane of some holds an active lock of one word (R56). -/
def AllLocked (s : State) (lanes : List Nat) (id : Nat) : Prop := ∀ tk ∈ lanes, ∃ k, (s.T tk).locks.find? (·.id == id) = some k ∧ k.active = true

/-- A granted operation of an engine. -/
def GrantedAt (s : State) (cl id : Nat) (o : MxOp) : Prop := (s.engine cl).ops.find? (fun o => o.id == id && o.st == .granted) = some o

end Sys2Proof.Claims

open Sys2Proof Machine Claims

/-- R308, R312, R313: TCOPY, LAYOUT and MCAST leave a job in issue order with the block's added bases and stream, G locked until its ticket; QPOP takes the next
FULL slot, reports an ended or failed stream, or waits; QFREE empties the oldest POPPED slot. -/
def Sys2Proof.Claims.EngineWords : Prop :=
  (∀ kind f s ck, 1 ≤ kind → kind ≤ 3 → Issues (engInstr kind f) s → s.iss.crew = some ck → s.iss.lanes ≠ [] → EngOk s ck kind f.s → Gives (engInstr kind f) s fun t =>
      t.mem = s.mem ∧ (EachLane s t fun _ x => { x with locks := x.locks ++ [lockOf s.ids f.g.toNat (gbit f.g.toNat) f.l.toNat true none none] })
      ∧ (t.C ck).eseq = (s.C ck).eseq + 1 ∧ ⟨.engineJobAccept, .n1 s.ids⟩ ∈ t.agenda ∧ ⟨.engineJobStart, .n2 s.ids 0⟩ ∈ t.agenda
      ∧ (let w3 := s.sreg (f.s.toNat + 3)
        (t.C ck).q = if w3.getLsbD 63 then (s.C ck).q.set (bits w3 58 56) { QReg.blank with st := .bound, job := s.ids } else (s.C ck).q)
      ∧ ∃ j, t.jobs = s.jobs ++ [j] ∧ j.id = s.ids ∧ j.kind = kind ∧ j.ctx = (s.C ck).ctx ∧ j.crew = some ck ∧ j.loc = (s.sreg f.s.toNat).toNat
        ∧ j.addS = (s.sreg (f.s.toNat + 1)).toNat ∧ j.addD = (s.sreg (f.s.toNat + 2)).toNat ∧ j.seq = (s.C ck).eseq.toNat ∧ j.st = .waiting
        ∧ j.lanes = s.iss.lanes.map (·.tk))
  ∧ (∀ f s ck r, Issues (.qpop f) s → s.iss.crew = some ck → (s.C ck).q[f.q.toNat]? = some r → (∀ x ∈ (s.C ck).qpops, x.1 ≠ f.q.toNat) →
      (r.st = .unbound ∨ r.st = .ended → Gives (.qpop f) s fun t => t.mem = s.mem ∧ AllTake s t f.g 0x8000000000000000)
      ∧ (r.st = .failed → Gives (.qpop f) s fun t => t.mem = s.mem ∧ AllTake s t f.g 0xc000000000000000)
      ∧ (r.st = .bound → let n := r.next % r.slots.length
        (r.slots[n]? = some .full → Gives (.qpop f) s fun t => t.mem = s.mem ∧ AllTake s t f.g (W (r.base + n * r.tileb))
          ∧ ∃ r', (t.C ck).q[f.q.toNat]? = some r' ∧ r'.slots = r.slots.set n .popped ∧ r'.next = r.next + 1 ∧ r'.popped = r.popped ++ [n])
        ∧ (r.slots[n]? ≠ some .full → Gives (.qpop f) s fun t => t.mem = s.mem ∧ EachLane s t fun _ x => { x with st := .blocked, wait := .qpop f.q.toNat })))
  ∧ ∀ f s ck r n rest, Issues (.qfree f) s → s.iss.crew = some ck → (s.C ck).q[f.q.toNat]? = some r → r.st = .bound → r.popped = n :: rest →
      (∃ j ∈ s.jobs, j.id = r.job ∧ j.crew = some ck) → Gives (.qfree f) s fun t => OnlyThreadsCrews s t ∧ t.thr = s.thr
        ∧ OneCrew s t ck fun c => { c with q := c.q.set f.q.toNat { r with slots := r.slots.set n .empty, popped := rest } }

/-- R302-R306, R309-R311: a job takes an entry and its ticket is written; its descriptor is read once the crew's earlier writes are acknowledged; a malformed one
ends the job, and one that waits for no other job runs; it reads a granule's elements, then writes it in the share; it ends when every granule has been written; a
multicast's granule from another chip is written in its member's share and acknowledged; a staging grant goes when no job names it. -/
def Sys2Proof.Claims.EngineJobs : Prop :=
  (∀ (s : State) id j e, s.ev = .n1 id → s.job id = some j → j.st = .waiting → s.freeEntry j.eng = some e → s.jobMay j = true →
      AllLocked s j.lanes id → j.lanes.Nodup → Gives .engineJobAccept s fun t => t.mem = s.mem ∧ t.job id = some { j with st := .accepted, entry := e }
        ∧ (j.known = true → ⟨.engineJobStart, .n2 id 0⟩ ∈ t.agenda)
        ∧ ∀ tk ∈ j.lanes, ∀ k, (s.T tk).locks.find? (·.id == id) = some k → (t.T tk).g = (s.T tk).g.setIfInBounds k.d (W (j.seq * 256 + e)))
  ∧ (∀ (s : State) ctx qid idx n, s.ev = .n3 ctx qid idx → s.nodes.find? (fun n => n.ctx == ctx && n.qid == qid && n.idx == idx && n.st == .ready) = some n →
      Gives .engineJobAccept s fun t => t.mem = s.mem ∧ t.thr = s.thr ∧ (∀ m ∈ t.nodes, m.ctx = ctx → m.qid = qid → m.idx = idx → m.st = .running)
        ∧ ∃ j, t.jobs = s.jobs ++ [j] ∧ j.kind = n.typ - 1 ∧ j.ctx = ctx ∧ j.crew = none ∧ j.qid = qid ∧ j.idx = idx ∧ j.loc = n.jdesc ∧ j.st = .waiting)
  ∧ (∀ (s : State) id j fail ws, s.ev = .n2 id fail → s.job id = some j → j.st = .accepted ∨ j.st = .waiting → j.desc = none → j.fault = none →
      s.needDone j.need = true → s.jobAway j none = false → s.readDesc j fail = .ok ws →
      Gives .engineJobStart s fun t => let d := descOf ws j.addS j.addD
        t.mem = s.mem ∧ t.thr = s.thr ∧ (∃ j', t.job id = some j' ∧ j'.st = j.st ∧ j'.desc = some d ∧ (j'.how = 2 ↔ descRaz ws = true ∨ s.descBad j d = true)
          ∧ (j.eng < 2000 → j'.eng = j.eng)) ∧ (j.st = .accepted → ⟨.engineJobStart, .n2 id 0⟩ ∈ t.agenda) ∧ (j.st = .waiting → ⟨.engineJobAccept, .n1 id⟩ ∈ t.agenda))
  ∧ (∀ (s : State) id j fail d, s.ev = .n2 id fail → s.job id = some j → j.st = .accepted → j.desc = some d →
      (j.how = 2 → Gives .engineJobStart s fun t => t.mem = s.mem ∧ t.thr = s.thr ∧ t.job id = some { j with st := .ending, how := 2, fault := none }
        ∧ ⟨.engineJobEnd, .n1 id⟩ ∈ t.agenda)
      ∧ (let foot := jobFoot d j.stream.isSome (s.destSpaces j d)
        j.how ≠ 2 → j.kind ≠ 3 → s.jobAway j (some d) = false → s.jobWaits j d foot = false →
        Gives .engineJobStart s fun t => t.mem = s.mem ∧ t.thr = s.thr ∧ ⟨.engineGranule, .n2 id 0⟩ ∈ t.agenda ∧ t.job id = some { j with st := .running, foot := foot }))
  ∧ (∀ (s : State) id fail j d b ck, s.ev = .n2 id fail → s.job id = some j → j.desc = some d → j.st = .running → j.stream = none → j.kind ≠ 3 → j.crew = some ck →
      d.dspace = 1 → d.bv = false → (s.crews.get? ck).isSome → ck < 2 ^ 20 → b.ck = ck → j.buf = [b] → j.open_ d = [] → b.mask = 255 →
      Gives .engineGranule s fun t => t.thr = s.thr
        ∧ t.mem = memWrN s.mem (spadKey (coreOfCk ck) ((s.C ck).spBase + 8 * (((d.granules false)[b.g]?).getD (0, 0)).2)) 8 b.data
        ∧ t.job id = some { j with buf := [], bytes := j.bytes + 8 })
  ∧ (∀ (s : State) id fail j d g v, s.ev = .n2 id fail → s.job id = some j → j.desc = some d → j.st = .running → j.stream = none → j.kind ≠ 3 → s.destStopped j d = false →
      j.fault = none → j.buf = [] → j.open_ d = [g] → State.gather { s with tick := s.tick + 1 } j d 0 (d.elemsAt false g) 0 0 = .ok v →
      Gives .engineGranule s fun t => t.thr = s.thr ∧ t.mem = s.mem
        ∧ t.job id = some { j with begun := j.begun ++ [g], buf := [⟨g, j.crew.getD (2 ^ 60), v.1, v.2, (d.elemsAt false g).length * d.esize⟩] })
  ∧ (∀ (s : State) id fail j d, s.ev = .n2 id fail → s.job id = some j → j.desc = some d → j.st = .running → j.stream = none → j.buf = [] → j.open_ d = [] → j.fault = none → s.jobOwed j = false →
      j.begun.length = (d.granules false).length → Gives .engineGranule s fun t => t.thr = s.thr ∧ t.mem = s.mem ∧ ⟨.engineJobEnd, .n1 id⟩ ∈ t.agenda
        ∧ t.job id = some { j with st := .ending, how := 0, fault := some ⟨0, 0, W j.skipped⟩ })
  ∧ (∀ (s : State) ctx g m a data cnt chip core id ck, s.ev = .nats [ctx, g, m, a, data, 255, cnt, 0, chip, core, id] → (s.membersHere ctx g).find? (·.2 == m) = some (ck, m) →
      (s.crews.get? ck).isSome → (s.C ck).st ≠ .suspended →
      Gives .engineGranule s fun t => t.thr = s.thr ∧ t.mem = memWrN s.mem (spadKey (coreOfCk ck) ((s.C ck).spBase + a)) 8 data
        ∧ Sent t ⟨.ackResponse, .resp (2 ^ 30) id .ack⟩ chip core)
  ∧ (∀ (s : State) id j, s.ev = .n1 id → s.job id = some j → j.st = .ending →
      (j.crew = none → Gives .engineJobEnd s fun t => t.mem = s.mem ∧ t.thr = s.thr ∧ t.jobs = s.jobs.filter (·.id != id)
        ∧ ⟨.nodeComplete, .n3 j.ctx j.qid j.idx⟩ ∈ t.agenda ∧ ∀ m ∈ t.nodes, m.ctx = j.ctx → m.qid = j.qid → m.idx = j.idx → m.count = j.bytes ∧ m.status = j.how)
      ∧ (∀ ck d, j.crew = some ck → j.stream = none → j.desc = some d → d.cr = true → Gives .engineJobEnd s fun t => t.mem = s.mem ∧ t.thr = s.thr
        ∧ t.jobs = s.jobs.filter (·.id != id) ∧ t.crecs = s.crecs ++ [jobRecord j]))
  ∧ ∀ (s : State) ctx n, s.ev = .n2 ctx n → (∀ j ∈ s.jobs, j.ctx = ctx → ∃ d, j.desc = some d ∧ ¬ (d.sspace = 2 ∧ d.srcb / 2 ^ 22 = n) ∧ ¬ (d.dspace = 2 ∧ d.dstb / 2 ^ 22 = n)) →
      Gives .stagingGrantWithdraw s fun t => t.mem = s.mem ∧ t.sgrants = s.sgrants.del (ctx * 16 + n) ∧ Replied s t 0 0

/-- R263-R266, R269, R275, R277, R278: the matrix words post an operation when their lanes converge and their block passes, and trap with the block's first
fault otherwise; MWAIT returns and clears the status register when every covered operation is COMPLETE, and waits otherwise. -/
def Sys2Proof.Claims.MatrixWords : Prop :=
  (∀ i op treg sb g la s ck, passOf i = some (op, treg, sb, g, la) → Issues i s → s.iss.crew = some ck →
      (s.iss.lanes.length = 32 → s.blockFault (s.C ck) op (s.blockOf sb.toNat 8) = none → Gives i s fun t => Posted s t ck op treg g la (s.blockOf sb.toNat 8))
      ∧ (∀ c n, s.iss.lanes.length = 32 → s.blockFault (s.C ck) op (s.blockOf sb.toNat 8) = some (c, n) → Gives i s fun t => AllTrap s t c 0 (W n))
      ∧ (s.iss.lanes.length ≠ 32 → Gives i s fun t => AllTrap s t .illegalConvergence 0 0))
  ∧ (∀ f s ck, Issues (.wbld f) s → s.iss.crew = some ck → s.iss.lanes.length = 32 → blk s f.s 1 < 64 → blk s f.s 0 < 2 ^ 56 → blk s f.s 0 % 32 = 0 →
      (s.homeAt s.iss.core s.iss.ctx (blk s f.s 0)).isSome → Gives (.wbld f) s fun t => Posted s t ck 6 0 f.g f.l [blk s f.s 0, blk s f.s 1])
  ∧ (∀ f s ck, Issues (.wbdrop f) s → s.iss.crew = some ck → s.iss.lanes.length = 32 → blk s f.s 0 < 64 →
      Gives (.wbdrop f) s fun t => Posted s t ck 7 0 f.g f.l [blk s f.s 0])
  ∧ (∀ f s ck, Issues (.tmset f) s → s.iss.crew = some ck → s.iss.lanes.length = 32 → let off := blk s f.s 0
      let w := blk s f.s 1
      let n := w % 512
      w < 2 ^ 34 → w / 512 % 128 = 0 → 1 ≤ n → n ≤ 256 → w / 2 ^ 16 % 2 ^ 16 + n ≤ 65536 → off % 8 = 0 → off + 2 * n ≤ (s.C ck).spSize →
      Gives (.tmset f) s fun t => Posted s t ck 8 0 f.g f.l [off, w])
  ∧ ∀ (thru : Bool) (fs : XsF) (fg : XgF) s ck, let i : Instr := if thru then .mwaitThru fg else .mwait fs
      let sb := if thru then fg.s.toNat else fs.s.toNat
      let q := if thru then some (bits ((s.rT s.lowLane.tk).gr fg.g.toNat) 39 8) else none
      Issues i s → s.iss.crew = some ck → s.iss.lanes.length = 32 →
      let open_ := ∃ o ∈ (s.engine (coreOfCk ck / 4)).ops, o.ck = ck ∧ o.id < s.ids ∧ (∀ n, q = some n → sgn 32 ((o.seq + 2 ^ 32 - n) % 2 ^ 32) ≤ 0)
      (¬ open_ → (∀ l, l < 32 → (s.T (laneTk ck l)).st ≠ .blocked) → Gives i s fun t => OnlyThreadsCrews s t ∧ t.thr = s.thr
        ∧ OneCrew s t ck fun c => { c with s := c.s.setIfInBounds sb (c.mstat.setWidth 64), mstat := 0 })
      ∧ (open_ → Gives i s fun t => OnlyThreads s t ∧ EachLane s t fun _ x => { x with st := .blocked, wait := .mwait q sb })

/-- R263, R264, R270, R272-R275, R277, R279: an operation is accepted into a free entry and its ticket written; a unit grants what it picks; a pass of integers
adds its products; ACCZ zeroes its region; an operation that has done everything completes with its conditions in MSTAT; a loaded image is VALID if its body
is well formed and BADIMAGE otherwise. -/
def Sys2Proof.Claims.MatrixEngine : Prop :=
  (∀ (s : State) cl o, s.ev = .n1 cl → (s.engine cl).ops.filter (·.st == .waiting) = [o] → ((s.engine cl).ops.countP fun x => x.st != .waiting) < 16 →
      ((s.engine cl).ops.countP fun x => x.st != .waiting && x.ck == o.ck) < 4 → o.issued + 2 ≤ (s.engine cl).clock → (∀ x ∈ (s.engine cl).ops, x.id = o.id → x = o) →
      AllLocked s ((List.range 32).map (laneTk o.ck)) o.id →
      Gives .matrixOpAccept s fun t => t.mem = s.mem ∧ ∃ n, n < 16 ∧ (∀ x ∈ (s.engine cl).ops, x.st ≠ .waiting → x.entry ≠ n)
        ∧ (∃ x ∈ (t.engine cl).ops, x.id = o.id ∧ x.st = .accepted ∧ x.entry = n)
        ∧ ∀ l, l < 32 → ∀ k, (s.T (laneTk o.ck l)).locks.find? (·.id == o.id) = some k →
          (t.T (laneTk o.ck l)).g = (s.T (laneTk o.ck l)).g.setIfInBounds k.d (W (o.seq % 2 ^ 32 * 256 + n)))
  ∧ (∀ (s : State) cl u o, s.ev = .n1 cl → u < 2 → (∀ x ∈ (s.engine cl).ops, x.st ≠ .granted) → s.grantPick cl u = some o → s.grantPick cl (1 - u) = none →
      Gives .matrixOpGrant s fun t => t.mem = s.mem ∧ t.thr = s.thr ∧ ∃ x ∈ (t.engine cl).ops, x.id = o.id ∧ x.st = .granted
        ∧ x.due = (s.engine cl).clock + opCycles o ∧ x.cond = if o.op ≤ 2 then s.passConds cl o else 0)
  ∧ (∀ (s : State) cl id fail o, s.ev = .n3 cl id fail → GrantedAt s cl id o → o.op ≠ 6 →
      let p := PBlk.ofWords o.blk
      let key (i j : Nat) : Nat := accKey cl (s.C o.ck).tiles (p.accoff + i * p.apitch * 64 + j)
      (∀ k, o.reads = [k] → s.poisoned (spadKey o.core ((s.C o.ck).spBase + 8 * k)) 8 = false → Gives .matrixOpComplete s fun t => t.mem = s.mem ∧ t.thr = s.thr
        ∧ ∃ x ∈ (t.engine cl).ops, x.id = id ∧ x.reads = [] ∧ x.got.get? k = some (memRdN s.mem (spadKey (coreOfCk o.ck) ((s.C o.ck).spBase + 8 * k)) 8))
      ∧ (o.op = 3 → o.reads = [] → o.ran = false → Memory.wf s.mem = true → Gives .matrixOpComplete s fun t => t.thr = s.thr
        ∧ (∀ i j, i < p.m → j < p.n → memRdN t.mem (key i j) 4 = 0)
        ∧ ∀ a, (∀ i j, i < p.m → j < p.n → a < key i j ∨ key i j + 4 ≤ a) → memRd t.mem a = memRd s.mem a)
      ∧ (o.op = 0 → o.reads = [] → o.ran = false → p.m = 1 → p.n = 1 → p.afmt = 5 → let a := s.passSlot cl o
        Gives .matrixOpComplete s fun t => t.thr = s.thr ∧ t.mem = memWrN s.mem (key 0 0) 4 (wrapI 32
          ((List.range p.k).foldl (fun (x : Int) k => x + sgn 8 (gotB o.got (p.aoff + k)) * sumAt 0 [s.imgElem cl a (s.imgHdr cl a) (p.bkoff + k) p.bnoff])
            (sgn 32 (if p.accum then memRdN s.mem (key 0 0) 4 else 0)))))
      ∧ (o.reads = [] → o.writes = [] → o.ran = true → o.due ≤ (s.engine cl).clock → (s.crews.get? o.ck).isSome →
        ((∀ q sb, (s.T (laneTk o.ck 0)).wait ≠ .mwait q sb) → Gives .matrixOpComplete s fun t => t.mem = s.mem ∧ t.thr = s.thr
          ∧ (t.engine cl).ops = (s.engine cl).ops.filter (·.id != id) ∧ t.C o.ck = { s.C o.ck with mstat := (s.C o.ck).mstat ||| o.cond })
        ∧ (∀ sb, (s.T (laneTk o.ck 0)).wait = .mwait none sb → cl = coreOfCk o.ck / 4 → (∀ x ∈ (s.engine cl).ops, x.ck = o.ck → x.id = id) →
          Gives .matrixOpComplete s fun t => t.mem = s.mem
            ∧ t.C o.ck = { s.C o.ck with s := (s.C o.ck).s.setIfInBounds sb (((s.C o.ck).mstat ||| o.cond).setWidth 64), mstat := 0 }
            ∧ ∀ l, l < 32 → (s.T (laneTk o.ck l)).st = .blocked → (s.T (laneTk o.ck l)).wait = .mwait none sb → (s.T (laneTk o.ck l)).ptrap = [] →
              t.T (laneTk o.ck l) = { s.T (laneTk o.ck l) with st := .ready, wait := .none, readyAt := s.clockOf (coreOfTk (laneTk o.ck l)) })))
  ∧ ∀ (s : State) cl id fail o, s.ev = .n3 cl id fail → GrantedAt s cl id o → o.op = 6 → o.ran = true → o.reads = [] → s.wbldRead cl o = true →
      o.due ≤ (s.engine cl).clock → (s.crews.get? o.ck).isSome → (∀ q sb, (s.T (laneTk o.ck 0)).wait ≠ .mwait q sb) →
      let a := (s.wgrant o.ctx cl).1 + o.blk.getD 1 0
      Gives .matrixOpComplete s fun t => t.mem = s.mem ∧ t.thr = s.thr ∧ (t.engine cl).ops = (s.engine cl).ops.filter (·.id != id)
        ∧ (if s.bodyOk cl a then (t.engine cl).slots = (s.engine cl).slots.map (fun x => if x.2 = .loading a then (x.1, .valid a) else x) ∧ (t.C o.ck).mstat = (s.C o.ck).mstat
          else (t.engine cl).slots = (s.engine cl).slots.filter (fun x => !(x.2 == .loading a)) ∧ (t.C o.ck).mstat = (s.C o.ck).mstat ||| 0x200)

namespace Sys2Proof.Claims
open Sys2Proof Machine

/-! ### Nyend, contexts, the link and the cold device -/

/-- Only one link's registers differ. -/
def OnlyLink (s t : State) (n : Nat) (l : Link) : Prop :=
  t = { s with dev := { s.dev with links := t.dev.links } } ∧ ∀ m, t.link m = if m = n then l else s.link m

/-- Only a context's own record differs, beside what follows from the request: the answer, and threads that wait in HALT. -/
def CtxIs (s t : State) (ctx : Nat) (st : CtxSt) : Prop := t.ctx ctx = { s.ctx ctx with st := st } ∧ t.mem = s.mem ∧ t.pages = s.pages ∧ t.crews = s.crews

end Sys2Proof.Claims

open Sys2Proof Machine Claims

/-- R384-R390: Nyend's words: TRET releases a TRAPPED thread or finds none; XFLT takes a record of the current lap; REPLAY of a page with nothing held;
PINVAL and DROPR clear the named pages' copies; CTXSW answers at once or waits; HALT waits unless an event came. The status values that the rules do not name are those of log 36. -/
def Obligations.SyspWords : Prop :=
  (∀ f s act pc tk, Issues (.tret f) s → let w := blk s f.s 0
      blk s f.s 1 = act → blk s f.s 2 = pc → w % 2 ^ 25 = 0 → act < 3 → w / 2 ^ 48 = s.chip → s.ctxGone (w / 2 ^ 25 % 32) = false →
      (tk = tkOf (w / 2 ^ 39 % 512) 0 (w / 2 ^ 30 % 512) ∨ tk = tkOf (w / 2 ^ 39 % 512) 1 (w / 2 ^ 30 % 512)
        ∧ (s.T (tkOf (w / 2 ^ 39 % 512) 0 (w / 2 ^ 30 % 512))).st ≠ .trapped) →
      (s.thr.get? tk).isSome → (s.T tk).st = .trapped → (s.T tk).ctx = w / 2 ^ 25 % 32 → (s.T tk).fw = false → (s.T tk).dying = false →
      tk ∉ s.iss.lanes.map (·.tk) →
      ((act = 0 ∨ act = 1 ∧ pc < 2 ^ 56) → (s.T tk).ptrap = [] → Gives (.tret f) s fun t => OnlyThreads s t
        ∧ ∀ k, t.T k = if k = tk then { s.T tk with st := .ready, wait := .none, readyAt := s.clockOf (coreOfTk tk), frames := (if act = 1 then [] else (s.T tk).frames)
                                                   , pc := if act = 1 then BitVec.ofNat 56 pc else (s.T tk).pc }
          else if k ∈ s.iss.lanes.map (·.tk) then { s.T k with g := (s.T k).g.setIfInBounds f.g.toNat 0 } else s.T k)
      ∧ (act = 2 → Gives (.tret f) s fun t => t.mem = s.mem
        ∧ (∃ x, t.T tk = { s.T tk with wait := x, dying := true, ptrap := [] } ∧ (x = .exitDrain (s.T tk).pc ∨ x = .exitDir (s.T tk).pc))
        ∧ ((s.T tk).locks = [] → (s.T tk).pend = [] → s.logpend (coreOfTk tk) (s.T tk).ctx = false → ⟨.exitDrainComplete, .thread tk⟩ ∈ t.agenda)
        ∧ ∀ l ∈ s.iss.lanes, (t.T l.tk).g = (s.T l.tk).g.setIfInBounds f.g.toNat 0))
  ∧ (∀ f s, Issues (.tret f) s → let w := blk s f.s 0
      w % 2 ^ 25 = 0 → blk s f.s 1 < 3 → w / 2 ^ 48 = s.chip →
      (s.ctxGone (w / 2 ^ 25 % 32) = true ∨ (∀ b, b < 2 → (s.T (tkOf (w / 2 ^ 39 % 512) b (w / 2 ^ 30 % 512))).st ≠ .trapped)
        ∧ s.saves.get? (w / 2 ^ 39 % 512 * 64 + w / 2 ^ 25 % 32) = none) →
      Gives (.tret f) s fun t => OnlyThreads s t ∧ AllTake s t f.g 1)
  ∧ (∀ f s ck c ws, Issues (.xflt f) s → s.iss.crew = some ck → let ctx := blk s f.s 0
      let x := s.ctx ctx
      let s0 : State := { s with ev := .n4 ctx s.lowLane.tk f.s.toNat f.g.toNat }
      let s1 := s.wrA Config.mgmtCore ctx (x.fqbase + 8) 8 ((c + 1) % 2 ^ 64)
      ctx < 32 → x.st ≠ .free → s0.rdA ctx 0 false (x.fqbase + 8) 8 = .ok c → s0.rdWords ctx 0 false (x.fqbase + 64 + 64 * (c % 2 ^ x.fqlog2)) 8 = .ok ws →
      (ws.headD 0 / 2 ^ 63 = 1 - c / 2 ^ x.fqlog2 % 2 → f.s.toNat + 8 < 160 → (∀ w ∈ s1.owed, w.id < s.ids) → Gives (.xflt f) s fun t => AllTake s t f.g 0
        ∧ (∀ n, n < 160 → (t.C ck).sr n = if f.s.toNat < n ∧ n ≤ f.s.toNat + 8 then W (ws.getD (n - f.s.toNat - 1) 0) else (s.C ck).sr n)
        ∧ t.mem = s1.mem)
      ∧ (ws.headD 0 / 2 ^ 63 ≠ 1 - c / 2 ^ x.fqlog2 % 2 → Gives (.xflt f) s fun t => OnlyThreads s t ∧ AllTake s t f.g 1))
  ∧ (∀ f s, Issues (.replay f) s → let c := blk s f.s 0
      let w := blk s f.s 1
      let d := blk s f.s 2
      let key := s.pageOfWord c w
      c < 32 → w % 2 ^ 33 ≠ 2 ^ 33 - 1 → d < 2 → w / 2 ^ 48 = s.chip →
      ((s.pages.get? key = none ∨ d = 0 ∧ ∃ p, s.pages.get? key = some p ∧ p.st = .unmapped) →
        Gives (.replay f) s fun t => OnlyThreads s t ∧ AllTake s t f.g 0x8000000000000000)
      ∧ (∀ p, s.pages.get? key = some p → (d = 0 → p.st ≠ .unmapped) → s.slog.get? key = none → s.heldP.get? key = none →
        Gives (.replay f) s fun t => t.mem = s.mem ∧ t.pages = s.pages ∧ AllTake s t f.g 0)
      ∧ ∀ p, s.pages.get? key = some p → d = 0 → p.st ≠ .unmapped → p.st ≠ .mapped → p.st ≠ .sealed → Gives (.replay f) s fun t => OnlyThreads s t ∧ AllTake s t f.g 0)
  ∧ (∀ f s, Issues (.pinval f) s → blk s f.s 0 < 32 → Gives (.pinval f) s fun t => OnlyThreadsCores s t ∧ t.thr = s.thr
      ∧ ∀ c, t.core c = { s.core c with perm := (s.core c).perm.filter fun e => !wordNames (blk s f.s 1) (blk s f.s 0) e.chip e.key })
  ∧ (∀ f s, Issues (.dropr f) s → blk s f.s 0 < 32 →
      let stays (r : Rep) (h : RHalf) : Bool := !(wordNames (blk s f.s 1) (blk s f.s 0) h.chip h.key && bit f.k.toNat (holderDie r.holder))
      Gives (.dropr f) s fun t => t.mem = s.mem ∧ t.thr = s.thr ∧ t.crews = s.crews
        ∧ t.reps = (s.reps.map fun r => { r with lo := r.lo.filter (stays r), hi := r.hi.filter (stays r) }).filter fun r => r.lo.isSome || r.hi.isSome)
  ∧ (∀ f s, Issues (.ctxsw f) s → let w := blk s f.s 0
      let core := w % 512
      let ctx := w / 2 ^ 16 % 32
      let op := w / 2 ^ 24 % 8
      w < 2 ^ 27 → w / 2 ^ 21 % 8 = 0 → w / 2 ^ 9 % 128 = 0 → op < 2 →
      ((s.ctx ctx).st ≠ .live ∨ 384 ≤ core ∨ s.partHas ctx core = false ∨ s.gangHeld core ctx = true → Gives (.ctxsw f) s fun t => OnlyThreads s t ∧ AllTake s t f.g 1)
      ∧ ((s.ctx ctx).st = .live → core < 384 → s.partHas ctx core = true → s.gangHeld core ctx = false →
        (op = 0 → (s.core core).resid = .idle → (s.core core).bank.getD (s.core core).active none = some ctx → Gives (.ctxsw f) s fun t => OnlyThreads s t ∧ AllTake s t f.g 0)
        ∧ (op = 0 → (s.core core).bank.getD (s.core core).active none ≠ some ctx → Gives (.ctxsw f) s fun t => t.mem = s.mem
          ∧ (EachLane s t fun _ x => { x with st := .blocked, wait := .sysp }) ∧ ⟨.schedulerDecision, .core core⟩ ∈ t.agenda
          ∧ t.core core = { s.core core with want := (s.core core).want ++ [(ctx, s.lowLane.tk * 32 + f.g.toNat)] })
        ∧ (op = 1 → (∀ b, b < 2 → (s.core core).bank.getD b none ≠ some ctx) → Gives (.ctxsw f) s fun t => OnlyThreads s t ∧ AllTake s t f.g 0)
        ∧ (op = 1 → (∃ b, b < 2 ∧ (s.core core).bank.getD b none = some ctx) → Gives (.ctxsw f) s fun t => t.mem = s.mem
          ∧ (EachLane s t fun _ x => { x with st := .blocked, wait := .sysp }) ∧ ⟨.schedulerDecision, .core core⟩ ∈ t.agenda
          ∧ t.core core = { s.core core with spillW := (s.core core).spillW ++ [(ctx, s.lowLane.tk * 32 + f.g.toNat)] })))
  ∧ ∀ s, Issues .halt s →
      (s.dev.haltPend = true → exec .halt s = .next { s with dev := { s.dev with haltPend := false }, iss := { s.iss with pfx := .none } })
      ∧ (s.dev.haltPend = false → Gives .halt s fun t => OnlyThreads s t ∧ EachLane s t fun _ x => { x with st := .blocked, wait := .halt })

/-- R57, R58, R380-R383, R388, R390: a chain that cannot be fetched makes every lane trap with its cause and address, and a word that no instruction matches with
ILLEGAL_INSTR; a fault record claims its cursor, is written with
its lap bit last, waits when its queue is full, and ends its context when its core's list is full; an answer from another chip's Nyend wakes its thread. The order of a record's words is the reading of log 35. -/
def Obligations.FaultRecords : Prop :=
  (∀ (s : State) a c n, (s.iss.lanes.map (·.tk)).Nodup → (∀ l ∈ s.iss.lanes, s.headFault (s.T l.tk) s.iss.pc.toNat = none) → s.chainHere = .stop a (.fault c n) →
      Gives .fetchFault s fun t => t.mem = s.mem ∧ t.crews = s.crews ∧ EachLane s t fun l _ =>
        (s.takeTrap l.tk { cause := c, pc := s.iss.pc, addr := W a, info := W n, word := s.iss.widx }).T l.tk)
  ∧ (∀ (s : State), (s.iss.lanes.map (·.tk)).Nodup → Gives .illegalInstr s fun t => t.mem = s.mem ∧ t.crews = s.crews ∧ EachLane s t fun l _ =>
        (s.takeTrap l.tk { cause := .illegalInstr, pc := s.iss.pc, addr := 0, info := 0, word := s.iss.widx }).T l.tk)
  ∧ (∀ (s : State) ctx r, s.ev = .frec ctx r → s.ctxGone ctx = true → exec .faultRecordWrite s = .next s)
  ∧ (∀ (s : State) ctx r ws, s.ev = .frec ctx r → s.ctxGone ctx = false → (s.dirHome ctx).1 = s.chip → let x := s.ctx ctx
      let core := r.core % 512
      s.rdWords ctx 0 false x.fqbase 2 = .ok ws → let c := ws.getD 0 0
      let s1 := s.wrA core ctx x.fqbase 8 ((c + 1) % 2 ^ 64)
      let a := x.fqbase + 64 + 64 * (c % 2 ^ x.fqlog2)
      let s2 := s1.wrWords core ctx (a + 8) ((r.words s.chip c x.fqlog2).drop 1)
      let e : Ev := ⟨.faultRecordWrite, .n4 ctx core a ((r.words s.chip c x.fqlog2).headD 0)⟩
      ((c + 2 ^ 64 - ws.getD 1 0) % 2 ^ 64 < 2 ^ x.fqlog2 → Gives .faultRecordWrite s fun t => t.thr = s.thr ∧ t.mem = s2.mem
        ∧ ((∀ w ∈ s2.owed, w.id < s1.ids) → e ∈ t.agenda) ∧ ((∃ w ∈ s2.owed, s1.ids ≤ w.id) → ∃ w ∈ t.owed, w.ev = some e))
      ∧ (¬ (c + 2 ^ 64 - ws.getD 1 0) % 2 ^ 64 < 2 ^ x.fqlog2 →
        ((s.fqPend (core * 64 + ctx)).length < 4096 → Gives .faultRecordWrite s fun t => t.thr = s.thr ∧ t.fqPend (core * 64 + ctx) = s.fqPend (core * 64 + ctx) ++ [(c, r)])
        ∧ (4096 ≤ (s.fqPend (core * 64 + ctx)).length → Gives .faultRecordWrite s fun t => (t.ctx ctx).st = .teardown ∧ ⟨.teardown, .n1 ctx⟩ ∈ t.agenda)))
  ∧ (∀ (s : State) ctx core a w, s.ev = .n4 ctx core a w → s.ctxGone ctx = false → Gives .faultRecordWrite s fun t => t.mem = (s.wrA core ctx a 8 w).mem
      ∧ ((∀ x ∈ s.thr, x.2.wait ≠ .halt) → t.dev.haltPend = true ∧ t.thr = s.thr))
  ∧ (∀ (s : State) who v, s.ev = .n2 who v → (s.T (who / 32)).st = .blocked → (s.T (who / 32)).wait = .sysp → (s.T (who / 32)).ptrap = [] →
      Gives .firmwareRequest s fun t => t = { s with thr := t.thr } ∧ ∀ k, t.T k = if k = who / 32 then { s.T k with
        g := (s.T k).g.setIfInBounds (who % 32) (W v), st := .ready, wait := .none, readyAt := s.clockOf (coreOfTk k) } else s.T k)
  ∧ ∀ (s : State) chip who a b c z, s.ev = .n6 (chip * 8) who a b c z → Gives .firmwareRequest s fun t => t.thr = s.thr ∧ t.mem = s.mem
      ∧ Sent t ⟨.firmwareRequest, .n2 who 0⟩ chip Config.mgmtCore
      ∧ ∀ k, t.core k = { s.core k with perm := (s.core k).perm.filter fun e => !wordNames b a e.chip e.key }

/-- R239, R246, R247, R254, R380: a page is given without a frame, mapped, unmapped but for a page of a fault queue, and withdrawn. -/
def Sys2Proof.Claims.PageStates : Prop :=
  (∀ (s : State) key p, s.ev = .give key p → (∀ q, s.pages.get? key = some q → q.st = .retired) → Gives .pageGive s fun t => t = { s with pages := t.pages }
      ∧ t.pages = s.pages.set key { st := .unmapped, s := false, ord := p.ord, rd := p.rd, wr := p.wr, ex := p.ex, tier := tierOfKey key, ntier := 0, frame := 0
                                    tokens := 0, nframe := 0, moved := 0 })
  ∧ (∀ (s : State) key frame p, s.ev = .n2 key frame → s.pages.get? key = some p → let tier := tierOfKey key
      (p.st = .unmapped → s.mapRefused key tier frame p = false → s.unitsFull (coreOfKey key) tier 1 = false → Gives .mapFrame s fun t => t.thr = s.thr ∧ t.crews = s.crews
        ∧ t.pages.get? key = some { p with st := .mapped, tier := tier, frame := frame, s := false } ∧ (s.slog.get? key = none → t.mem = s.mem))
      ∧ (p.st ≠ .unmapped ∨ s.mapRefused key tier frame p = true ∨ s.unitsFull (coreOfKey key) tier 1 = true → exec .mapFrame s = .next s))
  ∧ (∀ (s : State) key p, s.ev = .n1 key → s.pages.get? key = some p →
      ((p.st = .mapped ∨ p.st = .sealed) → s.fqPage key = false → Gives .unmapFrame s fun t => t = { s with pages := t.pages }
        ∧ t.pages = s.pages.set key { p with st := .unmapped, s := false, frame := 0, moved := 0, nframe := 0 })
      ∧ (s.fqPage key = true → exec .unmapFrame s = .next s))
  ∧ ∀ (s : State) key p, s.ev = .n1 key → s.pages.get? key = some p →
    (p.st ≠ .retired → s.heldP.get? key = none → Gives .pageWithdraw s fun t => t.thr = s.thr ∧ t.mem = s.mem ∧ ⟨.pageWithdraw, .n1 key⟩ ∈ t.agenda
      ∧ t.pages = s.pages.set key { p with st := .retired } ∧ t.slog = s.slog.del key
      ∧ ∀ e ∈ (s.slog.get? key).getD [], Sent t ⟨.sideLogRegistration, .dirMsg (ctxOfKey key) (.failed ⟨e.tid, e.ea, e.pcw, .permission, 0⟩)⟩
          (s.dirHome (ctxOfKey key)).1 (s.dirHome (ctxOfKey key)).2)
    ∧ (p.st = .retired → exec .pageWithdraw s = .next (if (s.slog.get? key).getD [] = [] then { s with pages := s.pages.del key } else s))

/-- R166, R256-R260, R285: a placement table that keeps R166 is installed, each core's copy follows, and the request is answered when every core has it; a table that would
move the page of a registered WIDX is refused. A page that changes home is REHOMING at its new home, with its bytes, and leaves a marker at the old one; an access that a
former home forwards is held there; the marker follows the last forwarded access, and the page resumes. A tier move copies line by line and ends with the pages of the new
tier. -/
def Sys2Proof.Claims.PlacementAndMoves : Prop :=
  (∀ (s : State) ctx ws chg, s.ev = .install ctx ws chg → let tab := tableOf ws
      let x := s.ctx ctx
      (x.st = .free → Gives .placementTableInstall s fun t => t.ctxs = s.ctxs ∧ t.pages = s.pages ∧ Replied s t 3 0)
      ∧ (∀ n, x.st ≠ .free → s.tabBad 0 [] tab = some n → Gives .placementTableInstall s fun t => t.ctxs = s.ctxs ∧ t.pages = s.pages ∧ Replied s t 5 n)
      ∧ (x.st ≠ .free → s.tabBad 0 [] tab = none → x.late = [] → x.unheard = false → s.chgBusy chg = false →
        (∀ n, s.widxMoves ctx tab chg = some n → Gives .placementTableInstall s fun t => t.ctxs = s.ctxs ∧ t.pages = s.pages ∧ Replied s t 5 n)
        ∧ (s.widxMoves ctx tab chg = none → Gives .placementTableInstall s fun t => (t.ctx ctx).ptab = tab ∧ (t.ctx ctx).prev = x.ptab
          ∧ (t.ctx ctx).late = List.range 384 ∧ (chg = [] → t.mem = s.mem ∧ t.pages = s.pages) ∧ ⟨.placementTableInstall, .n1 ctx⟩ ∈ t.agenda
          ∧ (∀ core, core < 384 → ⟨.placementTableInstall, .n2 core ctx⟩ ∈ t.agenda) ∧ ∀ c ∈ chg, c.ochip = s.chip → ⟨.drainMarkerSend, .n4 c.ochip c.okey c.nchip c.nkey⟩ ∈ t.agenda)
        ∧ ∀ c p, chg = [c] → s.widxMoves ctx tab chg = none → s.tabBad 0 [] x.ptab = none → c.ochip = s.chip → c.nchip = s.chip → c.okey ≠ c.nkey →
          s.pages.get? c.okey = some p → p.st = .mapped → tierOfKey c.okey = p.tier → tierOfKey c.nkey = p.tier → p.tier < 3 →
          s.heldP.get? c.okey = none → s.slog.get? c.okey = none → s.poison = [] →
          Gives .placementTableInstall s fun t => t.pages.get? c.okey = some { p with st := .rehoming, moved := 2 }
            ∧ t.pages.get? c.nkey = some { p with st := .rehoming, frame := c.frame, tokens := 0, moved := 0 }
            ∧ ∀ o va h, o < pageSize p.tier → o % 8 = 0 → vaOf x.ptab s.chip c.okey o = some va → homeIn tab va = some h → h.chip = s.chip → h.key ctx = c.nkey →
              memRdN t.mem (frameKey p.tier (coreOfKey c.nkey) c.frame h.pofs) 8 = memRdN s.mem (p.key (coreOfKey c.okey) o) 8))
  ∧ (∀ (s : State) core ctx, s.ev = .n2 core ctx → let x := s.ctx ctx
      let late := x.late.filter (· != core)
      Gives .placementTableInstall s fun t => t.mem = s.mem ∧ t.thr = s.thr ∧ t.pages = s.pages ∧ t.ctx ctx = { x with late := late }
        ∧ (late = [] → x.late ≠ [] → ∀ ch ∈ tabChips x.prev ++ tabChips x.ptab, ch ≠ s.chip → Sent t ⟨.placementTableInstall, .n3 ctx s.chip 0⟩ ch (distCore 0)))
  ∧ (∀ (s : State) ctx, s.ev = .n1 ctx → (s.ctx ctx).st ≠ .free →
      ((s.ctx ctx).late = [] → (∀ x ∈ (s.ctx ctx).lateChips, x < 2 ^ 28) → Gives .placementTableInstall s fun t => t.ctxs = s.ctxs ∧ Replied s t 0 0)
      ∧ ((s.ctx ctx).late ≠ [] → exec .placementTableInstall s = .next { s with agenda := s.agenda ++ [⟨.placementTableInstall, .n1 ctx⟩] }))
  ∧ (∀ (s : State) chip core i r l h, s.ev = .fwd chip core i (.req r) → r.lanes.head? = some l → s.homeOf r.ctx l.ea = some h →
      Gives .homeChangeForward s fun t => t.mem = s.mem ∧ t.thr = s.thr ∧ t.pages = s.pages
        ∧ (chip = s.chip → (t.fwds.get? r.ctx).getD 0 = (s.fwds.get? r.ctx).getD 0 - 1) ∧ (chip ≠ s.chip → Sent t ⟨.homeChangeForward, .n1 r.ctx⟩ chip core)
        ∧ if h.chip = s.chip ∧ ((s.pages.get? (h.key r.ctx)).map (·.st)) = some .rehoming
          then t.heldF.get? (h.key r.ctx) = some ((s.heldF.get? (h.key r.ctx)).getD [] ++ [⟨i, .req r⟩]) ∧ t.heldP = s.heldP
          else t.heldF = s.heldF ∧ ⟨i, .req r⟩ ∈ t.agenda)
  ∧ (∀ (s : State) ochip old nchip new, s.ev = .n4 ochip old nchip new → let x := s.ctx (ctxOfKey old)
      let hit (c : HChg) : Prop := c.ochip = ochip ∧ c.okey = old ∧ c.nchip = nchip ∧ c.nkey = new
      (x.late = [] → x.unheard = false → (s.fwds.get? (ctxOfKey old)).getD 0 = 0 → Gives .drainMarkerSend s fun t => t.mem = s.mem ∧ t.thr = s.thr
        ∧ (∀ c, c ∈ t.rehome ↔ c ∈ s.rehome ∧ ¬ hit c) ∧ Sent t ⟨.homeChangeMarker, .n4 ochip old nchip new⟩ nchip (coreOfKey new)
        ∧ (∀ p, s.pages.get? old = some p → p.st = .rehoming → p.moved = 2 → (∀ c ∈ s.rehome, c.ochip = ochip → c.okey = old → hit c) → t.pages = s.pages.del old)
        ∧ ((∃ c ∈ s.rehome, c.ochip = ochip ∧ c.okey = old ∧ ¬ hit c) → t.pages = s.pages))
      ∧ (x.late ≠ [] ∨ x.unheard = true ∨ (s.fwds.get? (ctxOfKey old)).getD 0 ≠ 0 →
        exec .drainMarkerSend s = .next { s with agenda := s.agenda ++ [⟨.drainMarkerSend, .n4 ochip old nchip new⟩] }))
  ∧ (∀ (s : State) ochip old nchip new p, s.ev = .n4 ochip old nchip new → (∀ c ∈ s.rehome, c.nchip = nchip → c.nkey = new → c.ochip = ochip ∧ c.okey = old) →
      s.pages.get? new = some p → p.st = .rehoming → s.heldF.get? new = none → s.heldP.get? new = none →
      Gives .homeChangeMarker s fun t => t.mem = s.mem ∧ t.thr = s.thr
        ∧ t.pages = s.pages.set new { p with st := if p.moved = 1 then .unmapped else if p.s then .sealed else .mapped, moved := 0 })
  ∧ (∀ (s : State) key nt fs p, s.ev = .tier key nt fs → s.pages.get? key = some p → let ks := movePages key p.tier nt
      let split := decide (pageSize nt < pageSize p.tier)
      (nt = p.tier ∨ s.moveOk ks p = false ∨ (∃ k ∈ ks, s.fqPage k = true) ∨ s.framesOk key nt fs p = false → exec .tierMoveStart s = .next s)
      ∧ (nt ≠ p.tier → s.moveOk ks p = true → (∀ k ∈ ks, s.fqPage k = false) → s.framesOk key nt fs p = true →
        ((∃ k ∈ ks, ∃ q, s.pages.get? k = some q ∧ q.tokens ≠ 0) → Gives .tierMoveStart s fun t => t.pages = s.pages ∧ t.mem = s.mem ∧ t.thr = s.thr
          ∧ ⟨.tierMoveStart, .tier key nt fs⟩ ∈ t.agenda)
        ∧ ((∀ k ∈ ks, ∀ q, s.pages.get? k = some q → q.tokens = 0) → Gives .tierMoveStart s fun t => t.mem = s.mem ∧ t.thr = s.thr
          ∧ ⟨.tierMoveLineCopy, .n1 (ks.headD key)⟩ ∈ t.agenda ∧ (split = true → t.moves.get? s.ids = some fs) ∧ (split = false → t.moves = s.moves)
          ∧ ∀ k, t.pages.get? k = if k ∈ ks then (s.pages.get? k).map fun q => { q with st := .moving, ntier := nt, nframe := if split then s.ids else fs.headD 0, moved := 0 }
            else s.pages.get? k)))
  ∧ ∀ (s : State) key p, s.ev = .n1 key → s.pages.get? key = some p → p.st = .moving → s.poison = [] → let ks := movePages key p.tier p.ntier
      let o := 128 * p.moved
      let a := pageSize p.tier
      let b := pageSize p.ntier
      let p1 : Page := { p with moved := p.moved + 1 }
      let q (f : Nat) : Page := { p with st := if p.s then .sealed else .mapped, tier := p.ntier, ntier := 0, frame := f, tokens := 0, nframe := 0, moved := 0 }
      let new (hp : Nat) : Nat := pgKey (ctxOfKey key) (regionOfKey key) (coreOfKey key) hp p.ntier
      let rest := ks.foldl Tab.del (s.pages.set key p1)
      (∀ k ∈ ks, s.heldP.get? k = none) →
      Gives .tierMoveLineCopy s fun t => t.thr = s.thr ∧ t.mem = memWrN s.mem (s.byteKey key p1 o) 128 (memRdN s.mem (p.key (coreOfKey key) o) 128)
        ∧ if (p.moved + 1) * 128 < a then t.pages = s.pages.set key p1 ∧ ⟨.tierMoveLineCopy, .n1 key⟩ ∈ t.agenda
          else if a < b ∧ key % (b / a) ≠ b / a - 1 then t.pages = s.pages.set key p1 ∧ ⟨.tierMoveLineCopy, .n1 (key + 1)⟩ ∈ t.agenda
          else if a ≤ b then t.pages = rest.set (new (hpOfKey key / (b / a))) (q p.nframe)
          else t.pages = ((s.moves.get? p.nframe).getD []).zipIdx.foldl (fun t f => t.set (new (hpOfKey key * (a / b) + f.2)) (q f.1)) rest

/-- R358-R361, R369, R407, R424, R455: the requests on contexts, partitions and apertures with their answers; a teardown discards everything of its context, and
leaves it FREE once its flush markers have passed. -/
def Sys2Proof.Claims.ContextLife : Prop :=
  (∀ (s : State) c0 ws gs sg wg, s.ev = .cnew c0 ws gs sg wg → let c : Ctx := { c0 with ptab := tableOf ws }
      (s.freeCtx = none → Gives .contextCreate s fun t => Replied s t 3 0 ∧ t.ctxs = s.ctxs)
      ∧ ∀ n, s.freeCtx = some n →
        (s.headBad c = true ∨ s.grantsBad sg = true ∨ s.slotsBad wg = true → Gives .contextCreate s fun t => Replied s t 2 0 ∧ t.ctxs = s.ctxs)
        ∧ (s.headBad c = false → s.grantsBad sg = false → s.slotsBad wg = false →
          (∀ e, s.tabBad 0 [] c.ptab = some e → Gives .contextCreate s fun t => Replied s t 5 e ∧ t.ctxs = s.ctxs)
          ∧ (s.tabBad 0 [] c.ptab = none →
            ((∃ g ∈ gs, (s.putCtx n c gs sg wg).newGroupBad n g = true) → Gives .contextCreate s fun t => Replied s t 9 0 ∧ t.ctxs = s.ctxs)
            ∧ ((∀ g ∈ gs, (s.putCtx n c gs sg wg).newGroupBad n g = false) →
              (s.reserveFits c = true → Gives .contextCreate s fun t => Replied s t 0 n ∧ t.mem = s.mem
                ∧ t.ctxs = s.ctxs.set n { c with st := .created, prev := [], late := [], lateChips := [] }
                ∧ (∀ g ∈ gs, (gs.countP fun x => x.1 == g.1) = 1 → t.groups.get? (n * 256 + g.1) = some g.2)
                ∧ (∀ g ∈ sg, (sg.countP fun x => x.1 == g.1) = 1 → t.sgrants.get? (n * 16 + g.1) = some g.2)
                ∧ ∀ g ∈ wg, (wg.countP fun x => x.1 == g.1) = 1 → t.wgrants.get? (n * 128 + g.1) = some g.2)
              ∧ (s.reserveFits c = false → Gives .contextCreate s fun t => Replied s t 6 0 ∧ t.ctxs = s.ctxs)))))
  ∧ (∀ (s : State) ctx, s.ev = .n1 ctx → let st := (s.ctx ctx).st
      (st = .free → Gives .contextStart s (fun t => Replied s t 3 0) ∧ Gives .contextStop s (fun t => Replied s t 3 0) ∧ Gives .contextResume s (fun t => Replied s t 3 0)
        ∧ Gives .contextDestroy s fun t => Replied s t 3 0)
      ∧ (st = .created → (s.dev.dstate = .ready ∨ s.dev.dstate = .run ∨ s.dev.dstate = .excursion) → Gives .contextStart s fun t => CtxIs s t ctx .live ∧ Replied s t 0 0)
      ∧ (st = .created → ¬ (s.dev.dstate = .ready ∨ s.dev.dstate = .run ∨ s.dev.dstate = .excursion) → Gives .contextStart s fun t => t.ctxs = s.ctxs ∧ Replied s t 11 0)
      ∧ (st ≠ .free → st ≠ .created → Gives .contextStart s fun t => t.ctxs = s.ctxs ∧ Replied s t 1 0)
      ∧ (st = .live → Gives .contextStop s fun t => CtxIs s t ctx .stopped ∧ Replied s t 0 0)
      ∧ (st = .stopped → Gives .contextResume s fun t => CtxIs s t ctx .live ∧ Replied s t 0 0)
      ∧ (st = .created ∨ st = .live ∨ st = .stopped → Gives .contextDestroy s fun t => CtxIs s t ctx .teardown ∧ Replied s t 0 0 ∧ ⟨.teardown, .n1 ctx⟩ ∈ t.agenda)
      ∧ (st = .teardown → Gives .contextDestroy s fun t => t.ctxs = s.ctxs ∧ Replied s t 1 0))
  ∧ (∀ (s : State) n p, s.ev = .part n p →
      (n < 16 → (∀ x ∈ s.ctxs, x.2.part = n → x.2.st ≠ .live ∧ x.2.st ≠ .stopped) → Gives .partitionWrite s fun t => Replied s t 0 0 ∧ t.dev.parts = s.dev.parts.set n p)
      ∧ (16 ≤ n ∨ (∃ x ∈ s.ctxs, x.2.part = n ∧ (x.2.st = .live ∨ x.2.st = .stopped)) → Gives .partitionWrite s fun t => Replied s t 10 0 ∧ t.dev.parts = s.dev.parts))
  ∧ (∀ (s : State) n a, s.ev = .aper n a →
      (n < 64 → (s.ctx a.ctx).st ≠ .free → (s.ctx a.ctx).st ≠ .teardown → Gives .apertureMap s fun t => Replied s t 0 0 ∧ t.dev.aper = s.dev.aper.set n a)
      ∧ (64 ≤ n ∨ (s.ctx a.ctx).st = .free ∨ (s.ctx a.ctx).st = .teardown → Gives .apertureMap s fun t => Replied s t 4 0 ∧ t.dev.aper = s.dev.aper))
  ∧ (∀ (s : State) ctx, s.ev = .n1 ctx → (s.ctx ctx).st = .teardown → Gives .teardown s fun t => ⟨.flushMarker, .n1 ctx⟩ ∈ t.agenda ∧ t.flush = s.flush ++ [(ctx, s.ncyc)]
      ∧ (∀ x ∈ t.thr, x.2.ctx = ctx → x.2.fw = true) ∧ (∀ x ∈ t.crews, x.2.ctx ≠ ctx) ∧ (∀ j ∈ t.jobs, j.ctx ≠ ctx) ∧ (∀ n ∈ t.nodes, n.ctx ≠ ctx)
      ∧ (∀ q ∈ t.queues, q.1 / 64 ≠ ctx) ∧ (∀ r ∈ t.reps, r.ctx ≠ ctx) ∧ ∀ c, ∀ b : Fin 2, (t.core c).bank[b] ≠ some ctx)
  ∧ (∀ (s : State) ctx n, s.ev = .n1 ctx → s.flush.find? (·.1 == ctx) = some (ctx, n) →
      ((∀ f ∈ s.flights, n < f.born) → (∀ k ∈ s.packets, k.sent = true) →
        exec .flushMarker s = .next { s with flush := s.flush.filter (·.1 != ctx), agenda := s.agenda ++ [⟨.teardownComplete, .n1 ctx⟩] })
      ∧ ((∃ f ∈ s.flights, f.born ≤ n) → exec .flushMarker s = .next { s with agenda := s.agenda ++ [⟨.flushMarker, .n1 ctx⟩] }))
  ∧ ∀ (s : State) ctx, s.ev = .n1 ctx → (s.ctx ctx).st = .teardown → Gives .teardownComplete s fun t => t.ctxs = s.ctxs.del ctx ∧ t.mem = s.mem
      ∧ (∀ x ∈ t.pages, ctxOfKey x.1 ≠ ctx) ∧ (∀ x ∈ t.kern, x.1 / 4096 ≠ ctx) ∧ ∀ x ∈ t.groups, x.1 / 256 ≠ ctx

/-- R362-R367: a core with an empty shadow bank fills the context that its rule picks, and exchanges its banks, in 96 cycles, when the ACTIVE context gives way;
spills and fills move a bank's threads to the save area and back; a gang leaves when one member's core asks and returns when all have reported. -/
def Sys2Proof.Claims.Residency : Prop :=
  (∀ (s : State) core, s.ev = .core core → core < 384 → let c := s.core core
      c.resid = .idle → c.want = [] → c.spillW = [] →
      (∀ t, s.pickT core = some t → c.bank.getD c.active none = none → c.bank.getD (1 - c.active) none = none → s.saves.get? (core * 64 + t) = none →
        Gives .schedulerDecision s fun u => u = { s with cores := u.cores } ∧ u.core core = { c with resid := .filling t (c.clock + 64), bank := c.bank.setIfInBounds (1 - c.active) (some t) })
      ∧ (∀ a t, c.bank.getD c.active none = some a → (s.ctx a).st = .live → s.pickT core = some t → a ≠ t → s.givesWay core a t = true →
        c.bank.getD (1 - c.active) none = some t → s.gangHeld core a = false → s.gangHeld core t = false →
        Gives .schedulerDecision s fun u => u = { s with cores := u.cores, crews := u.crews } ∧ (u.core core).resid = .castling (c.clock + 96)
          ∧ (u.core core).active = c.active ∧ (u.core core).bank = c.bank ∧ u.crews = s.crews.map fun x =>
            if x.1 / 16 = core * 2 + c.active ∧ x.2.st = .running then (x.1, { x.2 with st := .suspended }) else x)
      ∧ (∀ a, c.bank.getD c.active none = some a → (s.ctx a).st = .live → s.pickT core = some a → exec .schedulerDecision s = .next s)
      ∧ (∀ a, c.bank.getD c.active none = some a → exec .quantumExpiry s =
          if (s.partOf a).quantum ≠ 0 ∧ c.since + (s.partOf a).quantum * 1024 ≤ c.clock then exec .schedulerDecision s else .next s))
  ∧ (∀ (s : State) core due, s.ev = .core core → (s.core core).resid = .castling due → due ≤ s.clockOf core → (s.core core).bank.getD (1 - (s.core core).active) none = none →
      (s.core core).want = [] → (s.core core).spillW = [] → Gives .castlingComplete s fun t => t = { s with cores := t.cores }
        ∧ t.core core = { s.core core with resid := .idle, active := 1 - (s.core core).active, since := s.clockOf core })
  ∧ (∀ (s : State) core ctx, s.ev = .core core → (s.core core).bank.getD (1 - (s.core core).active) none = some ctx → s.spillOk core ctx = true →
      let b := 1 - (s.core core).active
      Gives .spillStart s fun t => t.mem = s.mem ∧ (∃ due, (t.core core).resid = .spilling ctx due) ∧ t.thr = s.thr.filter (fun x => x.1 / 512 != core * 2 + b)
        ∧ t.crews = s.crews.filter (fun x => x.1 / 16 != core * 2 + b)
        ∧ ((∃ x ∈ s.thr, x.1 / 512 = core * 2 + b) → t.saves.get? (core * 64 + ctx) = some (s.saveOf core ctx b)))
  ∧ (∀ (s : State) core ctx due, s.ev = .core core → (s.core core).resid = .spilling ctx due → due ≤ s.clockOf core → (s.core core).want = [] → (s.core core).spillW = [] →
      Gives .spillComplete s fun t => t = { s with cores := t.cores }
        ∧ t.core core = { s.core core with resid := .idle, bank := (s.core core).bank.setIfInBounds (1 - (s.core core).active) none })
  ∧ (∀ (s : State) core ctx due a n x, s.ev = .core core → (s.core core).resid = .filling ctx due → due ≤ s.clockOf core → s.saves.get? (core * 64 + ctx) = some a →
      (s.partOf ctx).spsave ≠ 1 → a.log = [] → a.recv = [] → (s.core core).recv = [] → a.thr = [(n, x)] → n < 512 → let tk := tkOf core (1 - (s.core core).active) n
      Gives .fillComplete s fun t => t.mem = s.mem ∧ (t.core core).resid = .idle ∧ t.saves = s.saves.del (core * 64 + ctx)
        ∧ (t.T tk).g = x.g ∧ (t.T tk).flags = x.flags ∧ (t.T tk).srng = x.srng ∧ (t.T tk).number = x.number ∧ (t.T tk).ctx = x.ctx
        ∧ ∀ k, k ≠ tk → (t.T k).g = (s.T k).g)
  ∧ (∀ (s : State) ctx g chip who dst, s.ev = .n6 0 ctx g chip who dst → (s.gagent ctx g).out = false → Gives .castlingCoordination s fun t => t.thr = s.thr ∧ t.mem = s.mem
      ∧ (t.gagent ctx g).out = true ∧ ∀ m ∈ (s.gagent ctx g).mem, Sent t ⟨.castlingCoordination, .n6 1 ctx g s.chip m.core m.core⟩ m.chip m.core)
  ∧ (∀ (s : State) ctx g chip who dst, s.ev = .n6 2 ctx g chip who dst → (∀ x ∈ (s.gagent ctx g).mem, (x.chip, x.core) ∈ (s.gagent ctx g).reports ++ [(chip, who)]) →
      Gives .castlingCoordination s fun t => t.thr = s.thr ∧ t.mem = s.mem ∧ (t.gagent ctx g).out = false ∧ (t.gagent ctx g).reports = []
        ∧ ∀ m ∈ (s.gagent ctx g).mem, Sent t ⟨.castlingCoordination, .n6 3 ctx g s.chip m.core m.core⟩ m.chip m.core)
  ∧ (∀ (s : State) op ctx g chip who dst, s.ev = .n6 op ctx g chip who dst → (s.core dst).resid = .idle →
      (op = 1 ∧ (s.core dst).bank.getD (s.core dst).active none = some ctx ∨ op = 3 ∧ (s.core dst).bank.getD (1 - (s.core dst).active) none = some ctx) →
      Gives .castlingCoordination s fun t => t.thr = s.thr ∧ t.mem = s.mem ∧ (t.core dst).resid = .castling (s.clockOf dst + 96))
  ∧ ∀ (s : State) ctx g chip who dst, s.ev = .n6 4 ctx g chip who dst → Gives .castlingCoordination s fun t => t = { s with gagents := t.gagents }
      ∧ (t.gagent ctx g).reports = (s.gagent ctx g).reports.filter (· != (chip, who))

namespace Sys2Proof.Claims
open Sys2Proof Machine

/-- TMAX of 32 readings: the highest valid one (R421). -/
def validMax (rs : List Nat) : Nat := ((List.range 32).filter fun n => !(invalidOf rs).contains n).foldl (fun m n => max m (rs.getD n 0)) 0

/-- The upper boundary of a band in 1/8 K: 84 K, 100 K, 140 K, 230 K, and none above band 4 (R421). -/
def upper (k : Nat) : Nat := [672, 800, 1120, 1840].getD k 4096

/-- A frame alone at its place in the network. -/
def Alone (s : State) (f : Flight) : Prop := ∀ g ∈ s.flights, g = f ∨ g.place ≠ f.place ∨ g.at_ ≠ f.at_

end Sys2Proof.Claims

open Sys2Proof Machine Claims

/-- R395, R398, R399, R404-R406: a frame at its target's router leaves the network and its event has arrived; otherwise it goes along the row first, then along
the column; one for a number that no core has is discarded and counted; packets leave, are sent again and are injected; the chip table's entries. That one event moves one frame is the model's choice (log 41). -/
def Obligations.Frames : Prop :=
  (∀ (s : State) n f, s.ev = .n1 n → s.flights[n]? = some f → badCore f.dst = false → f.chip = s.chip → f.place = 0 → Alone s f →
      (f.at_ = routerOf f.dst → s.dev.latch = [] → (∀ c, f.ev.a.ctxOf = some c → s.ctxGone c = false) →
        exec .frameRoute s = .next { s with flights := s.flights.eraseIdx n, agenda := s.agenda ++ [f.ev] })
      ∧ (∀ o esc, s.wants f = .out o esc → Gives .frameRoute s fun t => t = { s with flights := t.flights }
        ∧ t.flights = s.flights.set n { f with place := (f.through o).place, at_ := (f.through o).at_, inp := (f.through o).inp, dl := (f.through o).dl, esc := esc, since := s.ncyc }
        ∧ (f.at_ / 24 = routerOf f.dst / 24 → (f.at_ % 8 ≠ routerOf f.dst % 8 → o = 0 ∨ o = 1)
          ∧ (f.at_ % 8 = routerOf f.dst % 8 → f.at_ % 24 / 8 ≠ routerOf f.dst % 24 / 8 → o = 2 ∨ o = 3))))
  ∧ (∀ (s : State) n f, s.ev = .n1 n → s.flights[n]? = some f → badCore f.dst = true → (∀ core m, f.ev.a ≠ .msg core m) → Gives .frameRoute s fun t => t.mem = s.mem
      ∧ t.flights = s.flights.eraseIdx n ∧ (t.link f.cameBy).drops = min 65535 ((s.link f.cameBy).drops + 1)
      ∧ ∀ c, f.ev.a.ctxOf = some c → (s.ctx c).st ≠ .free → (t.ctx c).st = .teardown)
  ∧ (∀ (s : State) n k, s.ev = .n1 n → s.packets.find? (fun k => k.n == n && !k.sent) = some k → s.linkUp (8 + k.port) = true →
      exec .uetPacketSend s = .next { s with packets := s.packets.map fun x => if x.n = n then { x with sent := true, port := k.port } else x })
  ∧ (∀ (s : State) n k, s.ev = .n1 n → k ∈ s.packets → k.n = n → k.sent = true → exec .uetRetransmit s =
      .next { s with packets := s.packets.map (fun x => if x.n = n then { x with sent := false } else x), agenda := s.agenda ++ [⟨.uetPacketSend, .n1 n⟩] })
  ∧ (∀ (s : State) port dst xid i a, s.ev = .frame port dst xid i a .none → a.flits ≤ s.poolFree ⟨0, portRouter port xid, 11, false⟩ (isResponse i) →
      Gives .uetPacketReceive s fun t => t = { s with flights := t.flights } ∧ ∃ f, t.flights = s.flights ++ [f] ∧ f.ev = ⟨i, a⟩ ∧ f.chip = s.chip ∧ f.dst = dst
        ∧ f.at_ = portRouter port xid)
  ∧ (∀ (s : State) port dst xid i a, s.ev = .frame port dst xid i a .none → s.poolFree ⟨0, portRouter port xid, 11, false⟩ (isResponse i) < a.flits →
      exec .uetPacketReceive s = .next s)
  ∧ (∀ (s : State) c bs, s.ev = .nats (c :: bs) → let tab := if bs = [] then s.dev.chipTab.del c else s.dev.chipTab.set c (bs.map (· != 0))
      exec .chipTableWrite s = .next { s with dev := { s.dev with chipTab := tab } })
  ∧ ∀ (s : State) c port l, s.ev = .n2 c port → s.dev.chipTab.get? c = some l →
      exec .portUnreachable s = .next { s with dev := { s.dev with chipTab := s.dev.chipTab.set c (l.set port false) } }
      ∧ exec .portReachable s = .next { s with dev := { s.dev with chipTab := s.dev.chipTab.set c (l.set port true) } }

/-- R408-R410: the states of a link: enabled, disabled, trained at full or at part capacity, failed at the third failure in a row, retrained, tried again at the
host's request; a replayed flit is counted. -/
def Sys2Proof.Claims.LinkStates : Prop :=
  ∀ (s : State) n, let l := s.link n
    let trains := l.st = .training ∨ l.st = .retraining
    let up := l.st = .up ∨ l.st = .degraded
    (s.ev = .n1 n →
      (l.st = .down → Gives .linkEnable s fun t => OnlyLink s t n { l with st := .training, cap := 0, trains := (l.trains + 1) % 65536, fails := 0 })
      ∧ (l.st ≠ .down → exec .linkEnable s = .next s)
      ∧ (Gives .linkDisable s fun t => OnlyLink s t n { l with st := .down, cap := 0 })
      ∧ (trains → 2 ≤ l.fails → Gives .linkTrainingFailed s fun t => OnlyLink s t n { l with st := .failed, fails := 0 })
      ∧ (trains → l.fails < 2 → Gives .linkTrainingFailed s fun t => OnlyLink s t n { l with fails := l.fails + 1, trains := (l.trains + 1) % 65536 })
      ∧ (up → Gives .linkRetrain s fun t => OnlyLink s t n { l with st := .retraining, cap := 0, trains := (l.trains + 1) % 65536, fails := 0 })
      ∧ (¬ up → exec .linkRetrain s = .next s)
      ∧ (l.st = .failed → Gives .linkRetryRequest s fun t => Replied s t 0 0 ∧ t.link n = { l with st := .training, cap := 0, trains := (l.trains + 1) % 65536, fails := 0 })
      ∧ (l.st ≠ .failed → Gives .linkRetryRequest s fun t => Replied s t 1 0 ∧ t.link n = l)
      ∧ (Gives .linkCrcError s fun t => OnlyLink s t n { l with crcerr := min 65535 (l.crcerr + 1), retries := min 65535 (l.retries + 1) }))
    ∧ ∀ cap, s.ev = .n2 n cap →
      (trains → cap = 100 → Gives .linkTrained s fun t => OnlyLink s t n { l with st := .up, cap := 100, fails := 0 })
      ∧ (trains → cap ≠ 100 → Gives .linkTrained s fun t => t.link n = { l with st := .degraded, cap := cap, fails := 0 } ∧ t.dev.replace = true ∧ t.mem = s.mem)
      ∧ (¬ trains → exec .linkTrained s = .next s)

/-- R197, R234, R407, R410, R427: a host access waits at its port, is dropped and counted where the port is lost or band 3 holds, and goes to the home that its
aperture names; the host's answer finishes an access homed there. -/
def Sys2Proof.Claims.HostPort : Prop :=
  (∀ (s : State) h, s.ev = .host h →
      (s.hostLost = false → s.dev.band ≠ 3 → Gives .hostBar2Access s fun t => t = { s with hostq := s.hostq ++ [h], agenda := t.agenda } ∧ ⟨.hostBar2Access, .none⟩ ∈ t.agenda)
      ∧ (s.hostLost = true → Gives .hostBar2Access s fun t => t.hostq = s.hostq ∧ t.replies = s.replies ∧ (t.link 16).drops = min 65535 ((s.link 16).drops + 1))
      ∧ (s.hostLost = false → s.dev.band = 3 → Gives .hostBar2Access s fun t => t.hostq = s.hostq ∧ (t.link 16).drops = min 65535 ((s.link 16).drops + 1)
        ∧ t.replies = s.replies ++ if h.op = 1 then [] else [⟨1, 0⟩]))
  ∧ (∀ (s : State) h, s.ev = .none → s.linkUp 16 = true → s.hostq = [h] → s.hostOut = [] →
      (s.hostLoc h = none → Gives .hostBar2Access s fun t => t.hostq = [] ∧ t.mem = s.mem ∧ (t.link 16).drops = min 65535 ((s.link 16).drops + 1)
        ∧ t.replies = s.replies ++ if h.op = 1 then [] else [⟨1, 0⟩])
      ∧ ∀ ctx va l, s.hostLoc h = some (ctx, va, l) → h.op < 2 → Gives .hostBar2Access s fun t => t.hostq = [] ∧ t.mem = s.mem ∧ t.replies = s.replies
        ∧ ∃ r ml, Sent t ⟨if h.op = 0 then .remoteRead else .writeRequest, .req r⟩ l.chip l.core ∧ r.ctx = ctx ∧ r.home = l.core ∧ r.lanes = [ml]
          ∧ r.op = (if h.op = 0 then .load false else .store) ∧ ml.ea = va ∧ ml.size = h.size ∧ ml.data = h.data)
  ∧ (∀ (s : State) r sx l0 h p, s.ev = .req r → s.linkUp 16 = true → r.op = .load sx → AtHome s r l0 h p → Grants p true false → s.poison = [] →
      Gives .pcieCompletion s fun t => Net s t ∧ ∀ l ∈ r.lanes, Answered t .readDataResponse r l
        (.data (if sx then BitVec.ofInt 64 (sgn (8 * l.size) (memRdN s.mem (at_ s r l0 h p l.ea) l.size)) else W (memRdN s.mem (at_ s r l0 h p l.ea) l.size)) 0))
  ∧ ∀ (s : State) tk id h, s.ev = .flush tk id h → s.linkUp 16 = true →
      (h / 2 ^ 16 = s.chip → Gives .pcieCompletion s fun t => t.mem = s.mem ∧ (t.T tk).g = (s.T tk).g ∧ ∀ a ∈ (t.T tk).pend, a.id = id → a.kind = .flush)
      ∧ (h / 2 ^ 16 ≠ s.chip → Gives .pcieCompletion s fun t => Net s t ∧ Sent t ⟨.ackResponse, .resp tk id .ack⟩ (h / 2 ^ 16) (h % 2 ^ 16))

/-- R421, R422, R424-R427: readings give TMAX and decide a band one step away, with hysteresis; a change takes effect at its last block; band 3 stops and
starts the clocks; the states of the device. -/
def Sys2Proof.Claims.ColdDeviceA : Prop :=
  (∀ (s : State) t rs, s.ev = .nats (t :: rs) → invalidOf rs = [] → Gives .sensorReading s fun u => u.mem = s.mem ∧ u.dev.sensors = rs ∧ u.dev.time = t
      ∧ u.dev.tmax = validMax rs
      ∧ (s.dev.pend = false → let m := validMax rs
        let b := s.dev.band
        u.dev.band = b ∧ if b < 4 ∧ upper b ≤ m then u.dev.pend = true ∧ u.dev.target = b + 1
          else if 0 < b ∧ m + 24 < upper (b - 1) then u.dev.pend = true ∧ u.dev.target = b - 1 else u.dev.pend = false)
      ∧ ((∃ h ∈ s.dev.hist, t ≤ h.1 + 60000000000 ∧ (h.2 + 48 < validMax rs ∨ validMax rs + 48 < h.2)) → s.dev.dstate ≠ .ambient → u.dev.dstate = .fault))
  ∧ (∀ (s : State) b, s.dev.pend = true → s.dev.blocks = [b] →
      (b < 384 → Gives .bandChangeBlock s fun t => t.mem = s.mem ∧ t.cores = s.cores ∧ t.dev.band = s.dev.target ∧ t.dev.changes = (s.dev.changes + 1) % 2 ^ 16)
      ∧ (1000 ≤ b → (s.core (b - 1000)).resid = .idle → Gives .bandChangeBlock s fun t => t.mem = s.mem ∧ t.dev.band = s.dev.target
        ∧ t.core (b - 1000) = { s.core (b - 1000) with pause := 64 }))
  ∧ (∀ (s : State), s.dev.pend = true → s.dev.target = 3 →
      (s.quiet3 = true → Gives .band3Entry s fun t => t.mem = s.mem ∧ t.dev.band = 3 ∧ t.dev.clocksOff = true ∧ t.dev.stopped = true)
      ∧ (s.quiet3 = false → Gives .band3Entry s fun t => t.mem = s.mem ∧ t.dev.band = s.dev.band ∧ t.dev.stopped = true ∧ ⟨.band3Entry, .none⟩ ∈ t.agenda))
  ∧ (∀ (s : State), s.dev.pend = true → s.dev.band = 3 → s.dev.target = 2 → Gives .band3Exit s fun t => t.mem = s.mem ∧ t.dev.band = 2 ∧ t.dev.clocksOff = false
      ∧ t.dev.stopped = (s.dev.dstate == .fault))
  ∧ (∀ (s : State),
      (s.dev.dstate = .ambient → Gives .coolDownRequest s fun t => Replied s t 0 0 ∧ t.dev.dstate = .cooling)
      ∧ (s.dev.dstate ≠ .ambient → Gives .coolDownRequest s fun t => Replied s t 11 0 ∧ t.dev.dstate = s.dev.dstate)
      ∧ (let may := (s.dev.dstate = .ready ∨ s.dev.dstate = .cooling ∨ s.dev.dstate = .coldSettle) ∧ ∀ x ∈ s.ctxs, x.2.st = .free
        (may → Gives .warmUpRequest s fun t => Replied s t 0 0 ∧ t.dev.dstate = .warming) ∧ (¬ may → Gives .warmUpRequest s fun t => Replied s t 11 0 ∧ t.dev.dstate = s.dev.dstate))
      ∧ (s.dev.dstate = .coldSettle → s.dev.settled = true → Gives .coldSettleDone s fun t => t.dev.dstate = .ready ∧ t.mem = s.mem)
      ∧ (s.dev.dstate ≠ .coldSettle ∨ s.dev.settled = false → exec .coldSettleDone s = .next s)
      ∧ (s.dev.dstate ≠ .fault → Gives .levelLow s fun t => t.dev.dstate = .fault ∧ t.dev.stopped = true ∧ t.mem = s.mem ∧ ∀ c, (s.ctx c).st ≠ .free → (t.ctx c).st = .teardown))
  ∧ (∀ (s : State) x a, s.ev = .n2 0 x → s.dev.holdAt = some a → exec .recalibrationHold s = .next { s with dev := { s.dev with holdAt := none, recal := true } })
  ∧ ∀ (s : State) k t a, s.ev = .n2 (k + 1) t → s.dev.holdAt = some a → a + 30000000000 < t → s.dev.dstate ≠ .ambient → Gives .recalibrationHold s fun u => u.dev.dstate = .fault

/-- R428, R430-R434, R437: scrub of a sound line, of one corrected, of one uncorrectable, whose codeword is poison, whose page is RETIRED and whose owner is contained;
errors that an overflow area, a replica line, a permission cache or Nyend's memory report; owner records and retired resources. -/
def Sys2Proof.Claims.Containment : Prop :=
  (∀ (s : State) core line owner, let next := if 12582912 ≤ line + 1 then 0 else line + 1
      (s.ev = .n4 core line 0 owner → Gives .scrubLine s fun t => t = { s with dev := t.dev } ∧ t.dev.scrub.get? core = some next)
      ∧ (s.ev = .n4 core line 1 owner → Gives .scrubLine s fun t => t.mem = s.mem ∧ t.dev.scrub.get? core = some next
        ∧ t.dev.corrected.get? core = some ((s.dev.corrected.get? core).getD 0 + 1))
      ∧ ∀ k, k < 4 → s.ev = .n4 core line (k + 2) owner → let ofs := line * 128 + k * 32
        Gives .scrubLine s fun t => t.mem = s.mem ∧ (core * 0x60000000 + ofs, 32) ∈ t.poison ∧ t.dev.uecount = min 65535 (s.dev.uecount + 1)
          ∧ (0x8000000 ≤ ofs → ∀ key p, s.pageOfKey (core * 0x60000000 + ofs) = some (key, p) →
            (s.pages.get? key = some p → t.pages.get? key = some { p with st := .retired })
            ∧ (s.owners.get? key = none → (s.ctx (ctxOfKey key)).st ≠ .free → (t.ctx (ctxOfKey key)).st = .teardown)
            ∧ (∀ q, s.owners.get? key = some (2, q) → ∀ c, (s.ctx c).part = q → (s.ctx c).st ≠ .free → (t.ctx c).st = .teardown))
          ∧ (ofs < 0x4000000 → (s.ctx owner).st ≠ .free → (t.ctx owner).st = .teardown)
          ∧ (0x6000000 ≤ ofs → ofs < 0x8000000 → t.dev.dstate = .fault))
  ∧ (∀ (s : State) a b,
      (s.ev = .n3 4 a b → Gives .scrubLine s fun t => t.mem = s.mem ∧ t.dev.uecount = min 65535 (s.dev.uecount + 1) ∧ ((s.ctx a).st ≠ .free → (t.ctx a).st = .teardown))
      ∧ (s.ev = .n3 7 a b → Gives .scrubLine s fun t => t.mem = s.mem ∧ t.thr = s.thr ∧ ∀ r ∈ t.reps, ¬ (r.holder = a ∧ r.line = b))
      ∧ (s.ev = .n3 8 a b → Gives .scrubLine s fun t => t.mem = s.mem ∧ t.core a = { s.core a with perm := (s.core a).perm.eraseIdx b })
      ∧ (s.ev = .n3 9 a b → Gives .scrubLine s fun t => t.mem = s.mem ∧ t.dev.dstate = .fault))
  ∧ (∀ (s : State) core, s.ev = .n1 core → Gives .scrubLate s fun t => t.mem = s.mem ∧ core ∈ t.dev.scrubSlow)
  ∧ (∀ (s : State) key kind idx, s.ev = .n3 key kind idx →
      (kind < 3 → (s.pages.get? key).isSome → Gives .ownerRecordWrite s fun t => Replied s t 0 0 ∧ t.owners = s.owners.set key (kind, idx % 256))
      ∧ (3 ≤ kind ∨ s.pages.get? key = none → Gives .ownerRecordWrite s fun t => Replied s t 1 0 ∧ t.owners = s.owners))
  ∧ ∀ (s : State) c,
      (s.ev = .n2 0 c → Gives .resourceRetire s fun t => t.core c = { s.core c with noHome := true } ∧ t.dev.rchan = s.dev.rchan + 1 ∧ t.dev.replace = true)
      ∧ (s.ev = .n2 1 c → Gives .resourceRetire s fun t => t.core c = { s.core c with retired := true } ∧ t.dev.rcores = s.dev.rcores + 1 ∧ t.dev.replace = true)
      ∧ (s.ev = .n2 2 c → Gives .resourceRetire s fun t => t.cores = s.cores ∧ t.dev.replace = true)
      ∧ (s.ev = .n2 3 c → Gives .resourceRetire s fun t => t.cores = s.cores ∧ t.dev.rlanes = s.dev.rlanes + 1 ∧ t.dev.replace = true)

/-- R93, R434-R436, R438, R439: SNAP and the host's request start a capture unless one is being written, blocks latch, and the capture can be read; the fault log;
fuses; attestation; what a reset of the device leaves. The bytes of a capture, the signature and what a reset keeps are as logs 14, 15 and 44 say. -/
def Obligations.CapturesAndReset : Prop :=
  (∀ f s, Issues (.snap f) s → s.dev.capBusy = false → Gives (.snap f) s fun t => t.mem = s.mem ∧ t.crews = s.crews ∧ t.dev.capBusy = true ∧ t.dev.snapAt = some s.iss.core
      ∧ t.dev.latch = allBlocks ∧ ∃ k ∈ t.dev.caps, k.slot = s.dev.capNext ∧ k.tag = f.i.toNat ∧ k.src = s.iss.core ∧ k.clock = s.clockOf s.iss.core)
  ∧ (∀ f s, Issues (.snap f) s → s.dev.capBusy = true → Gives (.snap f) s fun t => t.mem = s.mem ∧ t.dev.caps = s.dev.caps ∧ t.dev.snapAt = s.dev.snapAt)
  ∧ (∀ (s : State) tag, s.ev = .n1 tag → Gives .snapshotRequest s fun t => Replied s t 0 0 ∧ t.mem = s.mem ∧ t.dev.capBusy = true
      ∧ if s.dev.capBusy then t.dev.caps = s.dev.caps else ⟨.snapshotTriggerArrival, .none⟩ ∈ t.agenda ∧ ∃ k ∈ t.dev.caps, k.slot = s.dev.capNext ∧ k.tag = tag % 2 ^ 13)
  ∧ (∀ (s : State) b k, s.dev.latch = [b] → s.dev.caps = [k] → b < 384 → Gives .snapshotTriggerArrival s fun t => t.mem = s.mem ∧ t.thr = s.thr ∧ t.dev.latch = []
      ∧ ⟨.snapshotCaptureComplete, .none⟩ ∈ t.agenda ∧ ∃ k', t.dev.caps = [k'] ∧ k'.slot = k.slot ∧ k'.tag = k.tag
        ∧ k'.thr = k.thr ++ s.thr.filter (fun x => coreOfTk x.1 == b) ∧ k'.crews = k.crews ++ s.crews.filter (fun x => coreOfCk x.1 == b)
        ∧ k'.pages = k.pages ++ s.pages.filter (fun x => coreOfKey x.1 == b))
  ∧ (∀ (s : State), exec .snapshotCaptureComplete s = .next { s with dev := { s.dev with capBusy := false } })
  ∧ (∀ (s : State) slot ofs len, s.ev = .n3 slot ofs len → Gives .captureRead s fun t => t.mem = s.mem ∧
      if ∃ k ∈ s.dev.caps, k.slot = slot then ∃ v, v < 2 ^ (8 * len) ∧ Replied s t 0 v else Replied s t 1 0)
  ∧ (∀ (s : State) i, s.ev = .n1 i → Gives .faultLogRead s fun t => t.mem = s.mem ∧ Replied s t 0 (match s.dev.log[i]? with
      | some r => r.event * 2 ^ 48 + r.loc % 2 ^ 48 + 2 ^ 64 * (r.time % 2 ^ 64) + 2 ^ 128 * (r.addr % 2 ^ 64) + 2 ^ 192 * (r.info % 2 ^ 64)
      | none => 0))
  ∧ (∀ (s : State), Gives .fuseBlowRequest s fun t => t.mem = s.mem ∧ Replied s t 0 0 ∧ t.dev.fuses = max s.dev.fuses (min 64 s.dev.secver))
  ∧ (∀ (s : State) nonce, s.ev = .n1 nonce → Gives .attestationRequest s fun t => t.mem = s.mem ∧ t.dev.leaf = s.dev.leaf + 1
      ∧ (s.dev.leaf < s.dev.leafMax → t.dev.leafMax = s.dev.leafMax) ∧ (s.dev.leafMax ≤ s.dev.leaf → t.dev.leafMax = s.dev.leafMax + 64)
      ∧ ∃ v, Replied s t 0 v ∧ v % 2 ^ 256 = nonce % 2 ^ 256 ∧ v / 2 ^ 768 % 2 ^ 64 = s.dev.secver % 2 ^ 64 ∧ v / 2 ^ 832 % 2 ^ 64 = s.dev.fuses % 2 ^ 64)
  ∧ ∀ (s : State) secver digest valid chip, s.ev = .n4 secver digest valid chip → Gives .deviceReset s fun t => t.mem = [] ∧ t.thr = [] ∧ t.crews = [] ∧ t.ctxs = [] ∧ t.pages = []
      ∧ t.chip = chip % 2 ^ 16 ∧ t.dev.fuses = s.dev.fuses ∧ t.dev.band = s.dev.band ∧ t.dev.dstate = (if s.dev.band = 4 then .ambient else .cooling)
      ∧ t.dev.links = [] ∧ t.dev.leaf = s.dev.leafMax
      ∧ (t.dev.secver = if valid = 1 ∧ s.dev.fuses ≤ secver then secver else 0)
      ∧ t.cores = (s.cores.filter fun x => x.2.retired || x.2.noHome).map fun x => (x.1, { CoreSt.blank with retired := x.2.retired, noHome := x.2.noHome })

namespace Sys2Proof.Claims
open Sys2Proof Machine

/-! ### Numbers -/

/-- The rational value of a finite float value; infinities and NaNs have none and read 0. -/
def ratOf : FV → ℚ
  | .fin s m e => (if s then -1 else 1) * (m : ℚ) * (2 : ℚ) ^ e
  | _ => 0

/-- A finite value. -/
def finite : FV → Bool
  | .fin _ _ _ => true
  | _ => false

/-- The order of values that are no NaNs, with −0 below +0 (R114). -/
def below (x y : FV) : Prop :=
  match x, y with
  | .inf true, _ => True
  | _, .inf false => True
  | .fin _ _ _, .fin _ _ _ => ratOf x < ratOf y ∨ ratOf x = ratOf y ∧ (x.neg = true ∨ y.neg = false)
  | _, _ => False

/-- The formats of the float type codes (R51). -/
def fltFormats : List Fmt := [f32F, f64F, bf16F, f16F]

/-- Width of an element, and elements of a register, under an integer type code (R51). -/
def tyWidth (t : BitVec 3) : Nat := if t = 0 ∨ t = 1 then 32 else if t = 2 ∨ t = 3 then 64 else if t = 4 ∨ t = 5 then 16 else 8
def tyCount (t : BitVec 3) : Nat := if t = 4 ∨ t = 5 then 4 else if t = 6 ∨ t = 7 then 8 else 1

/-- Element k of a register. -/
def elemOf (w k : Nat) (x : Word) : BitVec w := x.extractLsb' (w * k) w

/-- The shift words (R103): fields, and the rule on an element and its count. -/
def shiftWord : Instr → Option (L3F × ((w : Nat) → BitVec w → Nat → BitVec w))
  | .shl f => some (f, fun w a c => if w ≤ c then 0 else BitVec.ofNat w (a.toNat * 2 ^ c))
  | .shr f => some (f, fun w a c => if w ≤ c then 0 else BitVec.ofNat w (a.toNat / 2 ^ c))
  | .sar f => some (f, fun w a c => if w ≤ c then (if a.msb then BitVec.allOnes w else 0) else BitVec.ofInt w (a.toInt / 2 ^ c))
  | .rot f => some (f, fun w a c => a.rotateLeft (c % w))
  | _ => none

/-- The count of a shift in element k (R103): element k of operand B, unsigned; an immediate has the bits of its sign-extended value. -/
def shiftCount (f : L3F) (x : Thr) (k : Nat) : Nat :=
  let w := tyWidth f.t
  if f.m = 2 then (f.b.signExtend w).toNat else if f.m = 1 then (elemOf w 0 (x.gr f.b.toNat)).toNat else (elemOf w k (x.gr f.b.toNat)).toNat

/-- The words of R114: fields, whether the greater is taken, and whether a number is preferred to a NaN. -/
def minmaxWord : Instr → Option (L3F × Bool × Bool)
  | .fmin f => some (f, false, false)
  | .fmax f => some (f, true, false)
  | .fminnum f => some (f, false, true)
  | .fmaxnum f => some (f, true, true)
  | _ => none

/-- The element that R114 asks for. -/
def Chosen (F : Fmt) (max num : Bool) (a b c : Nat) : Prop :=
  let x := unpackF F a
  let y := unpackF F b
  if x.isNan && y.isNan then c = F.qnan
  else if x.isNan then c = (if num then b else F.qnan)
  else if y.isNan then c = (if num then a else F.qnan)
  else (c = a ∨ c = b) ∧ (if max then below x (unpackF F c) ∧ below y (unpackF F c) else below (unpackF F c) x ∧ below (unpackF F c) y)

/-- The chain that a core issues alone in a cycle: what the cycle's start makes of the state, its one bin and its issuing lanes, and the state that finds them. -/
def IssuesAlone (s : State) (core : Nat) (b : Bin) (v : State) : Prop :=
  let u := (s.endCycle core).nextCycle core
  (u.core core).pause = 0 ∧ (u.dev.stopped = false ∨ core = Config.mgmtCore) ∧ (u.core core).lBusy ≠ u.clockOf core ∧ u.bins core = [b]
    ∧ v = { u with iss := { core := core, ctx := b.ctx, crew := b.crew, lanes := lanesOf b ((u.oldest b.ths).take 32) 0, pc := BitVec.ofNat 56 b.pc
                            wpc := BitVec.ofNat 56 b.pc, next := BitVec.ofNat 56 b.pc, widx := 0, pre := some (u.thr, u.crews), banks := u.iss.banks, loads := u.iss.loads
                            draws := [], pfx := .none, drops := [] } }

/-- What the passed checks of a chain of one word say. -/
def Passes (v : State) (b : Bin) (w : Nat) (i : Instr) : Prop :=
  v.headChecks = v ∧ v.iss.lanes ≠ [] ∧ v.chainHere = .ok [w] ∧ v.chainHead v.iss.core b.ctx v.lowLane.tk v.iss.pc.toNat = true
    ∧ chainBad (v.iss.pc.toNat / 4 % 3) [w] = false ∧ decodeWord w = .ok i ∧ v.staticFault i = none ∧ (v.windowChecks [i]).constChecks [i] = v ∧ i.major ≠ 63

end Sys2Proof.Claims

open Sys2Proof Machine Claims

/-- R21, R101, R102, R104: the element functions of the integer words are the fixed-width operations, and each raises its flag exactly when the exact result
does not fit the type or the divisor is zero. -/
def Obligations.IntegerMeaning : Prop :=
  ∀ (w : Nat) (a b : BitVec w), 0 < w → let x := a.toNat
    let y := b.toNat
    (addE w true x y = ⟨(a + b).toNat, flagIf (BitVec.saddOverflow a b) fIntOvf⟩ ∧ addE w false x y = ⟨(a + b).toNat, flagIf (BitVec.uaddOverflow a b) fIntOvf⟩)
    ∧ (subE w true x y = ⟨(a - b).toNat, flagIf (BitVec.ssubOverflow a b) fIntOvf⟩ ∧ subE w false x y = ⟨(a - b).toNat, flagIf (BitVec.usubOverflow a b) fIntOvf⟩)
    ∧ (mulE w true x y = ⟨(a * b).toNat, flagIf (BitVec.smulOverflow a b) fIntOvf⟩ ∧ mulE w false x y = ⟨(a * b).toNat, flagIf (BitVec.umulOverflow a b) fIntOvf⟩)
    ∧ (mulhE w true x y = ⟨((a.signExtend (2 * w) * b.signExtend (2 * w)).extractLsb' w w).toNat, 0⟩
      ∧ mulhE w false x y = ⟨((a.setWidth (2 * w) * b.setWidth (2 * w)).extractLsb' w w).toNat, 0⟩)
    ∧ (∀ sg, andE w sg x y = ⟨(a &&& b).toNat, 0⟩ ∧ orE w sg x y = ⟨(a ||| b).toNat, 0⟩ ∧ xorE w sg x y = ⟨(a ^^^ b).toNat, 0⟩
      ∧ andnE w sg x y = ⟨(a &&& ~~~b).toNat, 0⟩)
    ∧ (minE w true x y = ⟨(if b.slt a then b else a).toNat, 0⟩ ∧ minE w false x y = ⟨(if b.ult a then b else a).toNat, 0⟩)
    ∧ (maxE w true x y = ⟨(if a.slt b then b else a).toNat, 0⟩ ∧ maxE w false x y = ⟨(if a.ult b then b else a).toNat, 0⟩)
    ∧ (addsatE w true x y = (if BitVec.saddOverflow a b then ⟨(if a.msb then BitVec.intMin w else BitVec.intMax w).toNat, fIntOvf⟩ else ⟨(a + b).toNat, 0⟩)
      ∧ addsatE w false x y = (if BitVec.uaddOverflow a b then ⟨(BitVec.allOnes w).toNat, fIntOvf⟩ else ⟨(a + b).toNat, 0⟩))
    ∧ (b = 0 → ∀ sg, divE w sg x y = ⟨(BitVec.allOnes w).toNat, fIntDiv⟩ ∧ remE w sg x y = ⟨x, fIntDiv⟩)
    ∧ (b ≠ 0 → divE w true x y = ⟨(a.sdiv b).toNat, flagIf (a == BitVec.intMin w && b == BitVec.allOnes w) fIntOvf⟩ ∧ divE w false x y = ⟨(a / b).toNat, 0⟩
      ∧ remE w true x y = ⟨(a.srem b).toNat, 0⟩ ∧ remE w false x y = ⟨(a % b).toNat, 0⟩)
    ∧ (absdE w true x y = ⟨(if a.slt b then b - a else a - b).toNat, 0⟩ ∧ absdE w false x y = ⟨(if a.ult b then b - a else a - b).toNat, 0⟩)
    ∧ (negE w true x = ⟨(-a).toNat, flagIf (a == BitVec.intMin w) fIntOvf⟩ ∧ negE w false x = ⟨(-a).toNat, flagIf (a != 0) fIntOvf⟩)
    ∧ (absE w true x = ⟨a.abs.toNat, flagIf (a == BitVec.intMin w) fIntOvf⟩ ∧ absE w false x = ⟨x, 0⟩)
    ∧ (x < 2 ^ (w - clzE w x) ∧ (a ≠ 0 → 2 ^ (w - 1 - clzE w x) ≤ x) ∧ 2 ^ ctzGo w x ∣ x ∧ (a ≠ 0 → ¬ 2 ^ (ctzGo w x + 1) ∣ x) ∧ (a = 0 → clzE w x = w ∧ ctzGo w x = w))
    ∧ popGo w x = (List.range w).countP a.getLsbD ∧ revGo w x = a.reverse.toNat
    ∧ (icmpE w true 2 x y = a.slt b ∧ icmpE w false 2 x y = a.ult b ∧ ∀ sg, icmpE w sg 0 x y = (a == b))

/-- R103: the shifts, word by word: every element of an active lane's result, and no flag. -/
def Obligations.Shifts : Prop :=
  (∀ i f op s, shiftWord i = some (f, op) → Issues i s → Gives i s fun t => OnlyThreads s t
      ∧ ∀ l ∈ s.iss.lanes, s.active (f.p == 1) l = true → (t.T l.tk).flags = (s.T l.tk).flags
        ∧ ∀ k, k < tyCount f.t → elemOf (tyWidth f.t) k ((t.T l.tk).gr f.d.toNat)
          = op (tyWidth f.t) (elemOf (tyWidth f.t) k ((s.rT l.tk).gr f.a.toNat)) (shiftCount f (s.rT l.tk) k))
  ∧ ∀ (f : L3F) x k, f.m = 2 → f.b.msb = true → tyWidth f.t ≤ shiftCount f x k

/-- R107: LEA: in every active lane register D takes g[A] plus B times the element size of TY in bytes, modulo 2^64. -/
def Obligations.ScaledAddresses : Prop :=
  ∀ f s, Issues (.lea f) s → let size := if f.t = 6 ∨ f.t = 7 then 1#64 else if f.t = 4 ∨ f.t = 5 then 2#64 else if f.t = 0 ∨ f.t = 1 then 4#64 else 8#64
    Gives (.lea f) s fun t => OnlyThreads s t ∧ EachLane s t fun l x =>
      if s.active (f.p == 1) l then
        { x with g := x.g.setIfInBounds f.d.toNat ((s.rT l.tk).gr f.a.toNat + (if f.m = 2 then f.b.signExtend 64 else (s.rT l.tk).gr f.b.toNat) * size) }
      else if s.mz then { x with g := x.g.setIfInBounds f.d.toNat 0 } else x

/-- R115: FSGN puts b's sign on a's other bits and sets no flag; FMUL by -1 negates, with canonical NaNs. -/
def Obligations.SignCopies : Prop :=
  ∀ (f : L3F) s l, l ∈ s.iss.lanes → s.active (f.p == 1) l = true → let x := s.rT l.tk
    let F := fltF f.t.toNat
    let w := F.width
    (Issues (.fsgn f) s → Gives (.fsgn f) s fun t => (t.T l.tk).flags = (s.T l.tk).flags ∧ ∀ k, k < fltN f.t.toNat →
      ∀ n, n < w → (elemOf w k ((t.T l.tk).gr f.d.toNat)).getLsbD n =
        if n = w - 1 then bit (fltB f.t.toNat f.m f.b x k) (w - 1) else (elemOf w k (x.gr f.a.toNat)).getLsbD n)
    ∧ (f.m = 2 → f.b = 31 → Issues (.fmul f) s → Gives (.fmul f) s fun t => ∀ k, k < fltN f.t.toNat →
      elemAt w k ((t.T l.tk).gr f.d.toNat) = if (unpackF F (el F x f.a k)).isNan then F.qnan else el F x f.a k ^^^ 2 ^ (w - 1))

/-- R114: FMIN, FMAX, FMINNUM and FMAXNUM: what each element is, and INVALID exactly where an operand is a signalling NaN. -/
def Obligations.LesserAndGreater : Prop :=
  ∀ i f max num s l, minmaxWord i = some (f, max, num) → Issues i s → l ∈ s.iss.lanes → s.active (f.p == 1) l = true → let x := s.rT l.tk
    let F := fltF f.t.toNat
    Gives i s fun t =>
      (∀ k, k < fltN f.t.toNat → Chosen F max num (el F x f.a k) (fltB f.t.toNat f.m f.b x k) (elemAt F.width k ((t.T l.tk).gr f.d.toNat)))
      ∧ (t.T l.tk).flags = (s.T l.tk).flags ||| if ∃ k, k < fltN f.t.toNat ∧ ((unpackF F (el F x f.a k)).isSig = true
          ∨ (unpackF F (fltB f.t.toNat f.m f.b x k)).isSig = true) then fInvalid else 0

/-- R26, R31, R118: NaN operands, invalid operations and exact zeros of addition, subtraction, multiplication and fused multiply-add. -/
def Obligations.FloatSpecials : Prop :=
  ∀ F ∈ fltFormats, ∀ mode r a b c, let x := unpackF F a
    let y := unpackF F b
    let z := unpackF F c
    let nan2 := nanR F (flagIf (x.isSig || y.isSig) fInvalid)
    let invalid := nanR F fInvalid
    (x.isNan = true ∨ y.isNan = true → addF F mode r a b = nan2 ∧ subF F mode r a b = nan2 ∧ mulF F mode r a b = nan2)
    ∧ (∀ n, x = .inf n → (y = .inf (!n) → addF F mode r a b = invalid) ∧ (y = .inf n → subF F mode r a b = invalid ∧ addF F mode r a b = infR F n 0)
      ∧ (finite y = true → addF F mode r a b = infR F n 0 ∧ subF F mode r a b = infR F n 0 ∧ addF F mode r b a = infR F n 0 ∧ subF F mode r b a = infR F (!n) 0))
    ∧ (∀ n, x = .inf n → (y.isZero = true → mulF F mode r a b = invalid ∧ mulF F mode r b a = invalid ∧ ∀ g, fmaF F mode r g a b c = invalid ∧ fmaF F mode r g b a c = invalid)
      ∧ (y.isZero = false → y.isNan = false → mulF F mode r a b = infR F (n != y.neg) 0 ∧ ∀ g,
        (z = .inf ((n != y.neg) != !g) → fmaF F mode r g a b c = invalid)
        ∧ (finite z = true ∨ z = .inf ((n != y.neg) != g) → fmaF F mode r g a b c = infR F ((n != y.neg) != g) 0)))
    ∧ ((x.isNan = true ∨ y.isNan = true ∨ z.isNan = true) → (∀ n, ¬ (x = .inf n ∧ y.isZero = true) ∧ ¬ (y = .inf n ∧ x.isZero = true)) →
      ∀ g, fmaF F mode r g a b c = nanR F (flagIf (x.isSig || y.isSig || z.isSig) fInvalid))
    ∧ (finite x = true → finite y = true → ratOf x + ratOf y = 0 → addF F mode r a b =
        zeroR F (if x.isZero && y.isZero && x.neg == y.neg then x.neg else decide (mode = 4)) 0)
    ∧ (finite x = true → finite y = true → ratOf x = ratOf y → subF F mode r a b =
        zeroR F (if x.isZero && y.isZero && x.neg != y.neg then x.neg else decide (mode = 4)) 0)

/-- R26: a finite value is rounded onto the format's full grid. Toward zero gives the representable value of greatest magnitude that does not exceed it; to
nearest-even one than which none is nearer, even where two are as near; to nearest-even a value overflows only beyond every finite one; INEXACT tells
whether the result differs. -/
def Obligations.RoundingIsNearest : Prop :=
  ∀ F ∈ [f32F, f64F, bf16F, f16F, e4m3F, e5m2F, e2m1F], ∀ r neg m e, let v := ratOf (.fin neg m e)
    (let q := roundF F 2 r neg m e
      let y := unpackF F q.bits
      finite y = true ∧ |ratOf y| ≤ |v| ∧ 0 ≤ ratOf y * v ∧ ∀ c, finite (unpackF F c) = true → |ratOf (unpackF F c)| ≤ |v| → |ratOf (unpackF F c)| ≤ |ratOf y|)
    ∧ (let q := roundF F 1 r neg m e
      let y := unpackF F q.bits
      if q.fl &&& fOverflow = 0 then
        finite y = true ∧ (q.fl &&& fInexact = 0 ↔ ratOf y = v)
          ∧ ∀ c, finite (unpackF F c) = true → |v - ratOf y| ≤ |v - ratOf (unpackF F c)|
            ∧ (|v - ratOf y| = |v - ratOf (unpackF F c)| → ratOf (unpackF F c) ≠ ratOf y → q.bits % 2 = 0)
      else (∀ c, finite (unpackF F c) = true → |ratOf (unpackF F c)| < |v|) ∧ q.bits = (if F.sp = .ieee then (infR F neg 0).bits else signCode F neg + F.maxCode))

/-- R41: the outer fields of every word; a word whose C bit is 1 is followed in its chain by the next word of its packet; a chain whose first word has MAJOR 0
raises ILLEGAL_INSTR in every issuing lane unless the chain itself is illegal, and so does the word of zeros. -/
def Obligations.OuterFields : Prop :=
  (∀ i w, encode i = some w → w < 2 ^ 32 ∧ fld w 30 25 = i.major ∧ i.major ≠ 0)
  ∧ (∀ (s : State) core ctx tk n a w ws, s.codeWord core ctx tk a = .word w → bit w 31 = true → a / 4 % 3 ≠ 2 → s.chainFrom core ctx tk n (a + 4) = .ok ws →
      s.chainFrom core ctx tk (n + 1) a = .ok (w :: ws))
  ∧ (∀ mem w, fld w 30 25 = 0 → decodeWordAt mem w = .error .major)
  ∧ ∀ (s : State) n w ws, s.headChecks = s → s.iss.lanes ≠ [] → s.iss.widx = 0 → s.chainHere = .ok (w :: ws) → s.chainHead s.iss.core s.iss.ctx s.lowLane.tk s.iss.pc.toNat = true →
      chainBad (s.iss.pc.toNat / 4 % 3) (w :: ws) = false → (fld w 30 25 = 0 ∨ w = 0) →
      issueChain (n + 1) s = .next (s.failAll .illegalInstr 0 0).endWord

/-- R41, R53, R54, R59 and the words that the spec writes out: each decodes to the instruction it stands for. -/
def Obligations.DecodedWords : Prop :=
  decodeWord 0x10631c10 = .ok (.add ⟨0, 6, 6, 7, 2, 0, 0⟩)
  ∧ decodeWord 0x20810c80 = .ok (.fmul ⟨0, 8, 2, 3, 0, 0, 0⟩)
  ∧ decodeWord 0x22110c80 = .ok (.fma ⟨0, 1, 2, 3, 4, 0, 0⟩)
  ∧ decodeWord 0x22110c81 = .ok (.fnma ⟨0, 1, 2, 3, 4, 0, 0⟩)
  ∧ decodeWord 0x52628303 = .ok (.waitw ⟨0, 6, 5, 1, 0, 0⟩)
  ∧ decodeWord 0x02000000 = .ok .nop ∧ decodeWord 0x02002000 = .ok .exit

/-- R8, R43, R57, R74, R79, R80: a step performs the event, routes the frame or runs the unit whose turn it is; a unit is the management core or a cluster, whose cores
go one after another and then its matrix engine. Where a core's one bin's chain is one word that decodes to an instruction which passes the checks, its cycle is that
instruction's execution in the bin's lanes, with the pc at the next chain head, then the end of the rank; and so is the step, where the unit has no other core. The counter turn that selects the event is the model's (log 9). -/
def Obligations.StepRunsDecoded : Prop :=
  (∀ (s : State) e, let n := s.turn % s.options
      let s1 : State := { s with turn := Config.choice s.tick, tick := s.tick + 1 }
      (s.agenda[s.placeOf n]? = some e → ((∀ c, e.portOf = some c → ∀ k, k < s.placeOf n → (s.agenda[k]?.bind Ev.portOf) ≠ some c))
        ∧ ((s.dev.clocksOff && clocked e.i) = true → step s = .next s1)
        ∧ ((s.dev.clocksOff && clocked e.i) = false → step s = match exec e.i { s1 with agenda := s.agenda.eraseIdx (s.placeOf n), ev := e.a } with
          | .next t => .next (({ t with ev := .none } : State).askDone e)
          | x => x))
      ∧ ∀ k, n = s.agenda.length + k → k < s.flights.length → step s = match exec .frameRoute { s1 with ev := .n1 k } with
        | .next t => .next (({ t with ev := .none } : State).askDone ⟨.frameRoute, .n1 k⟩)
        | x => x)
  ∧ ∀ (s : State) k unit, s.turn % s.options = s.agenda.length + s.flights.length + min 1 s.inbox.length + k → s.running[k]? = some unit →
      let s1 : State := { s with turn := Config.choice s.tick, tick := s.tick + 1 }
      (unit ≠ Config.mgmtCore → step s = match coreCycles (s.coresIn (unit / 4)) s1 with
        | .next t => .next (t.mxCycle (unit / 4))
        | x => x)
      ∧ ∀ core b v w i t, IssuesAlone s1 core b v → Passes v b w i → let x := v.startChain 1
        exec i { x with iss := { x.iss with wpc := x.iss.pc, widx := 0 } } = .next t → t.iss.drops = [] →
        let u := (t.shrink v.thr v.iss.lanes 1).endRank b
        coreCycle core s1 = .next u ∧ (unit = Config.mgmtCore → core = unit → step s = .next u)
          ∧ (unit ≠ Config.mgmtCore → s.coresIn (unit / 4) = [core] → step s = .next (u.mxCycle (unit / 4)))

/-- Every word of every instruction decodes to that instruction: no bit of an encoding is dropped (R41, R46-R59). -/
def Obligations.EncodeDecode : Prop :=
  (∀ i w, i.wf = true → encode i = some w → decodeWordAt i.isMemPrefix w = .ok i)
  ∧ ∀ mem w i, w < 2 ^ 32 → decodeWordAt mem w = .ok i → encode i = some w

/-- What reset leaves (R173, R376, R424, R426, R428, R438): the part is warm, nothing is placed, every link is down, no home holds a page, memory lists nothing. That memory lists nothing, and reads 0, is the model's choice (log 1). -/
def Obligations.ResetState : Prop :=
  let s := State.reset
  Memory.wf s.mem = true ∧ s.dev.band = 4 ∧ s.dev.dstate = .ambient ∧ s.pages = [] ∧ s.thr = [] ∧ s.crews = [] ∧ s.ctxs = [] ∧ s.iss = Issue.blank
    ∧ (∀ n, (s.link n).st = .down ∧ (s.link n).cap = 0) ∧ (∀ c, s.clockOf c = 0) ∧ s.dev.capBusy = false

/-- Every instruction and every event answers a next state from every state: none stops the machine. -/
def Sys2Proof.Claims.EveryInstructionAnswers : Prop := ∀ i s, ∃ t, exec i s = .next t

/-- No step stops the machine; a request from outside whose numbers no field of it can hold is none and is passed over (log 17). -/
def Sys2Proof.Claims.StepStopsA : Prop :=
  (∀ s, ∃ t, step s = .next t)
  ∧ ∀ s e r, s.inbox = e :: r → inputOk s e = false → s.turn % s.options = s.agenda.length + s.flights.length →
      step s = .next { s with turn := Config.choice s.tick, tick := s.tick + 1, inbox := r }

/-- Every step keeps memory in its canonical form. -/
def Obligations.MemoryStaysCanonical : Prop :=
  ∀ s t, Memory.wf s.mem = true → step s = .next t → Memory.wf t.mem = true

/-- R169, R185, R220: no word but firmware's XFLT and REPLAY writes a byte of the homes' memory at issue: keys from 2^60 are the cores' own arrays. Which keys stand for the homes' memory is the model's layout of its memory list. -/
def Obligations.OnlyHomesWrite : Prop :=
  ∀ i w s t, encode i = some w → (∀ f, i ≠ .xflt f) → (∀ f, i ≠ .replay f) → Memory.wf s.mem = true → exec i s = .next t →
    ∀ a, a < 2 ^ 60 → memRd t.mem a = memRd s.mem a

/-- R93, R384: only firmware's words and SNAP change, at issue, the pages, contexts, kernels, groups, queues, owner records or the device's registers. -/
def Obligations.UserWords : Prop :=
  ∀ i w s t, encode i = some w → (i.major = 0x38 → s.firmware = false) → (∀ f, i ≠ .snap f) → exec i s = .next t →
    t.pages = s.pages ∧ t.ctxs = s.ctxs ∧ t.kern = s.kern ∧ t.groups = s.groups ∧ t.queues = s.queues ∧ t.owners = s.owners ∧ t.dev = s.dev ∧ t.chip = s.chip

/-! ### Statements of several parts -/

/-- The scalar words and SRDL. -/
def Obligations.ScalarResults : Prop := Claims.ScalarWords ∧ Claims.ScalarReadLane

/-- MTSR and the TRAPV commands. -/
def Obligations.SpecialRegisterWrites : Prop := Claims.MtsrWords ∧ Claims.TrapvCommands

/-- Moves, votes, reductions and scans across lanes. The trees are the pseudocode's, word for word (log 25). -/
def Obligations.CrossLaneWords : Prop := Claims.LaneMoves ∧ Claims.LaneVotes ∧ Claims.LaneTrees

/-- Branches and the control words. Firmware threads count as crew lanes (log 28). -/
def Obligations.ControlFlow : Prop := Claims.Branches ∧ Claims.ControlWords

/-- What a word that is refused at issue does. Which cause an SALU word with a j or q code raises is the reading of log 22. -/
def Obligations.TrapsAtIssue : Prop := Claims.StaticTraps ∧ Claims.LaneTraps

/-- Loads and stores of the share and the private slice. What a byte reads that nothing has written is the model's choice (log 1). -/
def Obligations.LocalAccesses : Prop := Claims.LocalLoads ∧ Claims.LocalStores

/-- The full/empty words and their banks. -/
def Obligations.FullEmpty : Prop := Claims.FullEmptyWords ∧ Claims.FullEmptyBank

/-- Loads that migrate, and loads of sealed pages. -/
def Obligations.LoadPaths : Prop := Claims.MigratingLoads ∧ Claims.SealedLoads

/-- Writes and atomics at a home. Which of two waiting classes the unit serves first after reset is the model's choice (log 4); the statement does not rest on it. -/
def Obligations.HomeUpdates : Prop := Claims.HomeWrites ∧ Claims.HomeAtomics

/-- Reads, watches and refusals at a home. -/
def Obligations.HomeAnswers : Prop := Claims.HomeReads ∧ Claims.HomeWatches ∧ Claims.HomeRefusals

/-- Knights, pawns and parked records. -/
def Obligations.Migration : Prop := Claims.Knights ∧ Claims.Pawns

/-- HOMEQ, MIGR and the events of a thread. -/
def Obligations.ThreadFlow : Prop := Claims.WhereAndMove ∧ Claims.ThreadEvents

/-- SEAL and UNSEAL at the issuer and at the homes. -/
def Obligations.Sealing : Prop := Claims.SealWords ∧ Claims.SealHomes

/-- Tokens and fills, probes, and the deferred directory. How often a page is probed is the reading of log 32. -/
def Obligations.CopiesAndRights : Prop := Claims.TokensAndFills ∧ Claims.Probes ∧ Claims.Directory

/-- Window accesses and the window agent. What one package shows of a window on several chips is what its own members see (log 18). -/
def Obligations.Windows : Prop := Claims.WindowAccess ∧ Claims.WindowAgent

/-- The barrier words and the barrier agent. -/
def Obligations.Barriers : Prop := Claims.BarrierWords ∧ Claims.BarrierAgent

/-- Byte-counting barriers and TEMPO. -/
def Obligations.CountedBarriers : Prop := Claims.ByteBarriers ∧ Claims.Tempos

/-- SEND, RECVP, RECVW and PROBE. The order of the checks and what ADDR names are the readings of log 30. -/
def Obligations.MessageWords : Prop := Claims.SendWords ∧ Claims.ReceiveWords

/-- POST, CPOLL, CWAIT and completion rings. -/
def Obligations.Rings : Prop := Claims.Posts ∧ Claims.RingWords ∧ Claims.CompletionRings

/-- Kernels, steals, retirement and gangs. Which space a placement takes is the model's reading (logs 13 and 37). -/
def Obligations.KernelsAndGangs : Prop := Claims.Kernels ∧ Claims.StealsRetirementGangs

/-- The engine words and the jobs they start. The readings of log 39 apply. -/
def Obligations.Engines : Prop := Claims.EngineWords ∧ Claims.EngineJobs

/-- The matrix words and the matrix engine. Which free entry an operation takes is free (log 9), and the readings of log 40 apply. -/
def Obligations.Matrix : Prop := Claims.MatrixWords ∧ Claims.MatrixEngine

/-- The states of a page, placement and moves. The readings of log 33 apply. -/
def Obligations.PagesAndMoves : Prop := Claims.PageStates ∧ Claims.PlacementAndMoves

/-- Contexts, partitions, castling and residency. The order of a castling's steps is the model's reading (log 42). -/
def Obligations.ContextsAndBanks : Prop := Claims.ContextLife ∧ Claims.Residency

/-- Links and the host port. How a refused host access is answered follows the reading of log 41. -/
def Obligations.LinksAndHost : Prop := Claims.LinkStates ∧ Claims.HostPort

/-- Readings, bands and the states of the device. Where the rules leave readings and bands open, logs 16 and 44 say what the model does. -/
def Obligations.ColdDevice : Prop := Claims.ColdDeviceA ∧ Claims.Containment

/-- Every instruction and every step answers a next state. Which numbers a request's fields hold is the model's reading (log 17). -/
def Obligations.StepStops : Prop := Claims.EveryInstructionAnswers ∧ Claims.StepStopsA
end

