-- ==== Sys2Proof/Laws/State.lean ====
section
/-! SUPPORT. What each shared update of the state does to each field: one lemma a field and update, true by definition, so that no proof unfolds a
record update. -/

namespace Sys2Proof.Laws
open Sys2Proof Machine

/-! ### setT -/

@[simp] theorem setT_slog (s : State) (tk : Nat) (t : Thr) : (s.setT tk t).slog = s.slog := rfl
@[simp] theorem setT_heldP (s : State) (tk : Nat) (t : Thr) : (s.setT tk t).heldP = s.heldP := rfl
@[simp] theorem setT_watches (s : State) (tk : Nat) (t : Thr) : (s.setT tk t).watches = s.watches := rfl
@[simp] theorem setT_dirs (s : State) (tk : Nat) (t : Thr) : (s.setT tk t).dirs = s.dirs := rfl
@[simp] theorem setT_hooks (s : State) (tk : Nat) (t : Thr) : (s.setT tk t).hooks = s.hooks := rfl
@[simp] theorem setT_asks (s : State) (tk : Nat) (t : Thr) : (s.setT tk t).asks = s.asks := rfl
@[simp] theorem setT_owed (s : State) (tk : Nat) (t : Thr) : (s.setT tk t).owed = s.owed := rfl
@[simp] theorem setT_moves (s : State) (tk : Nat) (t : Thr) : (s.setT tk t).moves = s.moves := rfl
@[simp] theorem setT_logged (s : State) (tk : Nat) (t : Thr) : (s.setT tk t).logged = s.logged := rfl
@[simp] theorem setT_rehome (s : State) (tk : Nat) (t : Thr) : (s.setT tk t).rehome = s.rehome := rfl
@[simp] theorem setT_heldF (s : State) (tk : Nat) (t : Thr) : (s.setT tk t).heldF = s.heldF := rfl
@[simp] theorem setT_fwds (s : State) (tk : Nat) (t : Thr) : (s.setT tk t).fwds = s.fwds := rfl
@[simp] theorem setT_outs (s : State) (tk : Nat) (t : Thr) : (s.setT tk t).outs = s.outs := rfl
@[simp] theorem setT_flights (s : State) (tk : Nat) (t : Thr) : (s.setT tk t).flights = s.flights := rfl
@[simp] theorem setT_packets (s : State) (tk : Nat) (t : Thr) : (s.setT tk t).packets = s.packets := rfl
@[simp] theorem setT_ncyc (s : State) (tk : Nat) (t : Thr) : (s.setT tk t).ncyc = s.ncyc := rfl
@[simp] theorem setT_reps (s : State) (tk : Nat) (t : Thr) : (s.setT tk t).reps = s.reps := rfl
@[simp] theorem setT_epochs (s : State) (tk : Nat) (t : Thr) : (s.setT tk t).epochs = s.epochs := rfl
@[simp] theorem setT_fe (s : State) (tk : Nat) (t : Thr) : (s.setT tk t).fe = s.fe := rfl
@[simp] theorem setT_empt (s : State) (tk : Nat) (t : Thr) : (s.setT tk t).empt = s.empt := rfl
@[simp] theorem setT_poison (s : State) (tk : Nat) (t : Thr) : (s.setT tk t).poison = s.poison := rfl
@[simp] theorem setT_owners (s : State) (tk : Nat) (t : Thr) : (s.setT tk t).owners = s.owners := rfl
@[simp] theorem setT_dev (s : State) (tk : Nat) (t : Thr) : (s.setT tk t).dev = s.dev := rfl
@[simp] theorem setT_ev (s : State) (tk : Nat) (t : Thr) : (s.setT tk t).ev = s.ev := rfl
@[simp] theorem setT_mem (s : State) (tk : Nat) (t : Thr) : (s.setT tk t).mem = s.mem := rfl
@[simp] theorem setT_pages (s : State) (tk : Nat) (t : Thr) : (s.setT tk t).pages = s.pages := rfl
@[simp] theorem setT_ctxs (s : State) (tk : Nat) (t : Thr) : (s.setT tk t).ctxs = s.ctxs := rfl
@[simp] theorem setT_kern (s : State) (tk : Nat) (t : Thr) : (s.setT tk t).kern = s.kern := rfl
@[simp] theorem setT_groups (s : State) (tk : Nat) (t : Thr) : (s.setT tk t).groups = s.groups := rfl
@[simp] theorem setT_sgrants (s : State) (tk : Nat) (t : Thr) : (s.setT tk t).sgrants = s.sgrants := rfl
@[simp] theorem setT_wgrants (s : State) (tk : Nat) (t : Thr) : (s.setT tk t).wgrants = s.wgrants := rfl
@[simp] theorem setT_rings (s : State) (tk : Nat) (t : Thr) : (s.setT tk t).rings = s.rings := rfl
@[simp] theorem setT_queues (s : State) (tk : Nat) (t : Thr) : (s.setT tk t).queues = s.queues := rfl
@[simp] theorem setT_nodes (s : State) (tk : Nat) (t : Thr) : (s.setT tk t).nodes = s.nodes := rfl
@[simp] theorem setT_crecs (s : State) (tk : Nat) (t : Thr) : (s.setT tk t).crecs = s.crecs := rfl
@[simp] theorem setT_posts (s : State) (tk : Nat) (t : Thr) : (s.setT tk t).posts = s.posts := rfl
@[simp] theorem setT_jobs (s : State) (tk : Nat) (t : Thr) : (s.setT tk t).jobs = s.jobs := rfl
@[simp] theorem setT_engines (s : State) (tk : Nat) (t : Thr) : (s.setT tk t).engines = s.engines := rfl
@[simp] theorem setT_bagents (s : State) (tk : Nat) (t : Thr) : (s.setT tk t).bagents = s.bagents := rfl
@[simp] theorem setT_gagents (s : State) (tk : Nat) (t : Thr) : (s.setT tk t).gagents = s.gagents := rfl
@[simp] theorem setT_tagents (s : State) (tk : Nat) (t : Thr) : (s.setT tk t).tagents = s.tagents := rfl
@[simp] theorem setT_resvs (s : State) (tk : Nat) (t : Thr) : (s.setT tk t).resvs = s.resvs := rfl
@[simp] theorem setT_ovf (s : State) (tk : Nat) (t : Thr) : (s.setT tk t).ovf = s.ovf := rfl
@[simp] theorem setT_pawns (s : State) (tk : Nat) (t : Thr) : (s.setT tk t).pawns = s.pawns := rfl
@[simp] theorem setT_spawned (s : State) (tk : Nat) (t : Thr) : (s.setT tk t).spawned = s.spawned := rfl
@[simp] theorem setT_saves (s : State) (tk : Nat) (t : Thr) : (s.setT tk t).saves = s.saves := rfl
@[simp] theorem setT_msgq (s : State) (tk : Nat) (t : Thr) : (s.setT tk t).msgq = s.msgq := rfl
@[simp] theorem setT_smat (s : State) (tk : Nat) (t : Thr) : (s.setT tk t).smat = s.smat := rfl
@[simp] theorem setT_fqp (s : State) (tk : Nat) (t : Thr) : (s.setT tk t).fqp = s.fqp := rfl
@[simp] theorem setT_flush (s : State) (tk : Nat) (t : Thr) : (s.setT tk t).flush = s.flush := rfl
@[simp] theorem setT_replies (s : State) (tk : Nat) (t : Thr) : (s.setT tk t).replies = s.replies := rfl
@[simp] theorem setT_hostq (s : State) (tk : Nat) (t : Thr) : (s.setT tk t).hostq = s.hostq := rfl
@[simp] theorem setT_hostOut (s : State) (tk : Nat) (t : Thr) : (s.setT tk t).hostOut = s.hostOut := rfl
@[simp] theorem setT_inbox (s : State) (tk : Nat) (t : Thr) : (s.setT tk t).inbox = s.inbox := rfl
@[simp] theorem setT_chip (s : State) (tk : Nat) (t : Thr) : (s.setT tk t).chip = s.chip := rfl
@[simp] theorem setT_thr (s : State) (tk : Nat) (t : Thr) : (s.setT tk t).thr = s.thr.set tk t := rfl
@[simp] theorem setT_crews (s : State) (tk : Nat) (t : Thr) : (s.setT tk t).crews = s.crews := rfl
@[simp] theorem setT_cores (s : State) (tk : Nat) (t : Thr) : (s.setT tk t).cores = s.cores := rfl
@[simp] theorem setT_iss (s : State) (tk : Nat) (t : Thr) : (s.setT tk t).iss = s.iss := rfl
@[simp] theorem setT_agenda (s : State) (tk : Nat) (t : Thr) : (s.setT tk t).agenda = s.agenda := rfl
@[simp] theorem setT_turn (s : State) (tk : Nat) (t : Thr) : (s.setT tk t).turn = s.turn := rfl
@[simp] theorem setT_tick (s : State) (tk : Nat) (t : Thr) : (s.setT tk t).tick = s.tick := rfl
@[simp] theorem setT_ids (s : State) (tk : Nat) (t : Thr) : (s.setT tk t).ids = s.ids := rfl

/-! ### setC -/

@[simp] theorem setC_slog (s : State) (ck : Nat) (c : Crew) : (s.setC ck c).slog = s.slog := rfl
@[simp] theorem setC_heldP (s : State) (ck : Nat) (c : Crew) : (s.setC ck c).heldP = s.heldP := rfl
@[simp] theorem setC_watches (s : State) (ck : Nat) (c : Crew) : (s.setC ck c).watches = s.watches := rfl
@[simp] theorem setC_dirs (s : State) (ck : Nat) (c : Crew) : (s.setC ck c).dirs = s.dirs := rfl
@[simp] theorem setC_hooks (s : State) (ck : Nat) (c : Crew) : (s.setC ck c).hooks = s.hooks := rfl
@[simp] theorem setC_asks (s : State) (ck : Nat) (c : Crew) : (s.setC ck c).asks = s.asks := rfl
@[simp] theorem setC_owed (s : State) (ck : Nat) (c : Crew) : (s.setC ck c).owed = s.owed := rfl
@[simp] theorem setC_moves (s : State) (ck : Nat) (c : Crew) : (s.setC ck c).moves = s.moves := rfl
@[simp] theorem setC_logged (s : State) (ck : Nat) (c : Crew) : (s.setC ck c).logged = s.logged := rfl
@[simp] theorem setC_rehome (s : State) (ck : Nat) (c : Crew) : (s.setC ck c).rehome = s.rehome := rfl
@[simp] theorem setC_heldF (s : State) (ck : Nat) (c : Crew) : (s.setC ck c).heldF = s.heldF := rfl
@[simp] theorem setC_fwds (s : State) (ck : Nat) (c : Crew) : (s.setC ck c).fwds = s.fwds := rfl
@[simp] theorem setC_outs (s : State) (ck : Nat) (c : Crew) : (s.setC ck c).outs = s.outs := rfl
@[simp] theorem setC_flights (s : State) (ck : Nat) (c : Crew) : (s.setC ck c).flights = s.flights := rfl
@[simp] theorem setC_packets (s : State) (ck : Nat) (c : Crew) : (s.setC ck c).packets = s.packets := rfl
@[simp] theorem setC_ncyc (s : State) (ck : Nat) (c : Crew) : (s.setC ck c).ncyc = s.ncyc := rfl
@[simp] theorem setC_reps (s : State) (ck : Nat) (c : Crew) : (s.setC ck c).reps = s.reps := rfl
@[simp] theorem setC_epochs (s : State) (ck : Nat) (c : Crew) : (s.setC ck c).epochs = s.epochs := rfl
@[simp] theorem setC_fe (s : State) (ck : Nat) (c : Crew) : (s.setC ck c).fe = s.fe := rfl
@[simp] theorem setC_empt (s : State) (ck : Nat) (c : Crew) : (s.setC ck c).empt = s.empt := rfl
@[simp] theorem setC_poison (s : State) (ck : Nat) (c : Crew) : (s.setC ck c).poison = s.poison := rfl
@[simp] theorem setC_owners (s : State) (ck : Nat) (c : Crew) : (s.setC ck c).owners = s.owners := rfl
@[simp] theorem setC_dev (s : State) (ck : Nat) (c : Crew) : (s.setC ck c).dev = s.dev := rfl
@[simp] theorem setC_ev (s : State) (ck : Nat) (c : Crew) : (s.setC ck c).ev = s.ev := rfl
@[simp] theorem setC_mem (s : State) (ck : Nat) (c : Crew) : (s.setC ck c).mem = s.mem := rfl
@[simp] theorem setC_pages (s : State) (ck : Nat) (c : Crew) : (s.setC ck c).pages = s.pages := rfl
@[simp] theorem setC_ctxs (s : State) (ck : Nat) (c : Crew) : (s.setC ck c).ctxs = s.ctxs := rfl
@[simp] theorem setC_kern (s : State) (ck : Nat) (c : Crew) : (s.setC ck c).kern = s.kern := rfl
@[simp] theorem setC_groups (s : State) (ck : Nat) (c : Crew) : (s.setC ck c).groups = s.groups := rfl
@[simp] theorem setC_sgrants (s : State) (ck : Nat) (c : Crew) : (s.setC ck c).sgrants = s.sgrants := rfl
@[simp] theorem setC_wgrants (s : State) (ck : Nat) (c : Crew) : (s.setC ck c).wgrants = s.wgrants := rfl
@[simp] theorem setC_rings (s : State) (ck : Nat) (c : Crew) : (s.setC ck c).rings = s.rings := rfl
@[simp] theorem setC_queues (s : State) (ck : Nat) (c : Crew) : (s.setC ck c).queues = s.queues := rfl
@[simp] theorem setC_nodes (s : State) (ck : Nat) (c : Crew) : (s.setC ck c).nodes = s.nodes := rfl
@[simp] theorem setC_crecs (s : State) (ck : Nat) (c : Crew) : (s.setC ck c).crecs = s.crecs := rfl
@[simp] theorem setC_posts (s : State) (ck : Nat) (c : Crew) : (s.setC ck c).posts = s.posts := rfl
@[simp] theorem setC_jobs (s : State) (ck : Nat) (c : Crew) : (s.setC ck c).jobs = s.jobs := rfl
@[simp] theorem setC_engines (s : State) (ck : Nat) (c : Crew) : (s.setC ck c).engines = s.engines := rfl
@[simp] theorem setC_bagents (s : State) (ck : Nat) (c : Crew) : (s.setC ck c).bagents = s.bagents := rfl
@[simp] theorem setC_gagents (s : State) (ck : Nat) (c : Crew) : (s.setC ck c).gagents = s.gagents := rfl
@[simp] theorem setC_tagents (s : State) (ck : Nat) (c : Crew) : (s.setC ck c).tagents = s.tagents := rfl
@[simp] theorem setC_resvs (s : State) (ck : Nat) (c : Crew) : (s.setC ck c).resvs = s.resvs := rfl
@[simp] theorem setC_ovf (s : State) (ck : Nat) (c : Crew) : (s.setC ck c).ovf = s.ovf := rfl
@[simp] theorem setC_pawns (s : State) (ck : Nat) (c : Crew) : (s.setC ck c).pawns = s.pawns := rfl
@[simp] theorem setC_spawned (s : State) (ck : Nat) (c : Crew) : (s.setC ck c).spawned = s.spawned := rfl
@[simp] theorem setC_saves (s : State) (ck : Nat) (c : Crew) : (s.setC ck c).saves = s.saves := rfl
@[simp] theorem setC_msgq (s : State) (ck : Nat) (c : Crew) : (s.setC ck c).msgq = s.msgq := rfl
@[simp] theorem setC_smat (s : State) (ck : Nat) (c : Crew) : (s.setC ck c).smat = s.smat := rfl
@[simp] theorem setC_fqp (s : State) (ck : Nat) (c : Crew) : (s.setC ck c).fqp = s.fqp := rfl
@[simp] theorem setC_flush (s : State) (ck : Nat) (c : Crew) : (s.setC ck c).flush = s.flush := rfl
@[simp] theorem setC_replies (s : State) (ck : Nat) (c : Crew) : (s.setC ck c).replies = s.replies := rfl
@[simp] theorem setC_hostq (s : State) (ck : Nat) (c : Crew) : (s.setC ck c).hostq = s.hostq := rfl
@[simp] theorem setC_hostOut (s : State) (ck : Nat) (c : Crew) : (s.setC ck c).hostOut = s.hostOut := rfl
@[simp] theorem setC_inbox (s : State) (ck : Nat) (c : Crew) : (s.setC ck c).inbox = s.inbox := rfl
@[simp] theorem setC_chip (s : State) (ck : Nat) (c : Crew) : (s.setC ck c).chip = s.chip := rfl
@[simp] theorem setC_thr (s : State) (ck : Nat) (c : Crew) : (s.setC ck c).thr = s.thr := rfl
@[simp] theorem setC_crews (s : State) (ck : Nat) (c : Crew) : (s.setC ck c).crews = s.crews.set ck c := rfl
@[simp] theorem setC_cores (s : State) (ck : Nat) (c : Crew) : (s.setC ck c).cores = s.cores := rfl
@[simp] theorem setC_iss (s : State) (ck : Nat) (c : Crew) : (s.setC ck c).iss = s.iss := rfl
@[simp] theorem setC_agenda (s : State) (ck : Nat) (c : Crew) : (s.setC ck c).agenda = s.agenda := rfl
@[simp] theorem setC_turn (s : State) (ck : Nat) (c : Crew) : (s.setC ck c).turn = s.turn := rfl
@[simp] theorem setC_tick (s : State) (ck : Nat) (c : Crew) : (s.setC ck c).tick = s.tick := rfl
@[simp] theorem setC_ids (s : State) (ck : Nat) (c : Crew) : (s.setC ck c).ids = s.ids := rfl

/-! ### setCore -/

@[simp] theorem setCore_slog (s : State) (n : Nat) (c : CoreSt) : (s.setCore n c).slog = s.slog := rfl
@[simp] theorem setCore_heldP (s : State) (n : Nat) (c : CoreSt) : (s.setCore n c).heldP = s.heldP := rfl
@[simp] theorem setCore_watches (s : State) (n : Nat) (c : CoreSt) : (s.setCore n c).watches = s.watches := rfl
@[simp] theorem setCore_dirs (s : State) (n : Nat) (c : CoreSt) : (s.setCore n c).dirs = s.dirs := rfl
@[simp] theorem setCore_hooks (s : State) (n : Nat) (c : CoreSt) : (s.setCore n c).hooks = s.hooks := rfl
@[simp] theorem setCore_asks (s : State) (n : Nat) (c : CoreSt) : (s.setCore n c).asks = s.asks := rfl
@[simp] theorem setCore_owed (s : State) (n : Nat) (c : CoreSt) : (s.setCore n c).owed = s.owed := rfl
@[simp] theorem setCore_moves (s : State) (n : Nat) (c : CoreSt) : (s.setCore n c).moves = s.moves := rfl
@[simp] theorem setCore_logged (s : State) (n : Nat) (c : CoreSt) : (s.setCore n c).logged = s.logged := rfl
@[simp] theorem setCore_rehome (s : State) (n : Nat) (c : CoreSt) : (s.setCore n c).rehome = s.rehome := rfl
@[simp] theorem setCore_heldF (s : State) (n : Nat) (c : CoreSt) : (s.setCore n c).heldF = s.heldF := rfl
@[simp] theorem setCore_fwds (s : State) (n : Nat) (c : CoreSt) : (s.setCore n c).fwds = s.fwds := rfl
@[simp] theorem setCore_outs (s : State) (n : Nat) (c : CoreSt) : (s.setCore n c).outs = s.outs := rfl
@[simp] theorem setCore_flights (s : State) (n : Nat) (c : CoreSt) : (s.setCore n c).flights = s.flights := rfl
@[simp] theorem setCore_packets (s : State) (n : Nat) (c : CoreSt) : (s.setCore n c).packets = s.packets := rfl
@[simp] theorem setCore_ncyc (s : State) (n : Nat) (c : CoreSt) : (s.setCore n c).ncyc = s.ncyc := rfl
@[simp] theorem setCore_reps (s : State) (n : Nat) (c : CoreSt) : (s.setCore n c).reps = s.reps := rfl
@[simp] theorem setCore_epochs (s : State) (n : Nat) (c : CoreSt) : (s.setCore n c).epochs = s.epochs := rfl
@[simp] theorem setCore_fe (s : State) (n : Nat) (c : CoreSt) : (s.setCore n c).fe = s.fe := rfl
@[simp] theorem setCore_empt (s : State) (n : Nat) (c : CoreSt) : (s.setCore n c).empt = s.empt := rfl
@[simp] theorem setCore_poison (s : State) (n : Nat) (c : CoreSt) : (s.setCore n c).poison = s.poison := rfl
@[simp] theorem setCore_owners (s : State) (n : Nat) (c : CoreSt) : (s.setCore n c).owners = s.owners := rfl
@[simp] theorem setCore_dev (s : State) (n : Nat) (c : CoreSt) : (s.setCore n c).dev = s.dev := rfl
@[simp] theorem setCore_ev (s : State) (n : Nat) (c : CoreSt) : (s.setCore n c).ev = s.ev := rfl
@[simp] theorem setCore_mem (s : State) (n : Nat) (c : CoreSt) : (s.setCore n c).mem = s.mem := rfl
@[simp] theorem setCore_pages (s : State) (n : Nat) (c : CoreSt) : (s.setCore n c).pages = s.pages := rfl
@[simp] theorem setCore_ctxs (s : State) (n : Nat) (c : CoreSt) : (s.setCore n c).ctxs = s.ctxs := rfl
@[simp] theorem setCore_kern (s : State) (n : Nat) (c : CoreSt) : (s.setCore n c).kern = s.kern := rfl
@[simp] theorem setCore_groups (s : State) (n : Nat) (c : CoreSt) : (s.setCore n c).groups = s.groups := rfl
@[simp] theorem setCore_sgrants (s : State) (n : Nat) (c : CoreSt) : (s.setCore n c).sgrants = s.sgrants := rfl
@[simp] theorem setCore_wgrants (s : State) (n : Nat) (c : CoreSt) : (s.setCore n c).wgrants = s.wgrants := rfl
@[simp] theorem setCore_rings (s : State) (n : Nat) (c : CoreSt) : (s.setCore n c).rings = s.rings := rfl
@[simp] theorem setCore_queues (s : State) (n : Nat) (c : CoreSt) : (s.setCore n c).queues = s.queues := rfl
@[simp] theorem setCore_nodes (s : State) (n : Nat) (c : CoreSt) : (s.setCore n c).nodes = s.nodes := rfl
@[simp] theorem setCore_crecs (s : State) (n : Nat) (c : CoreSt) : (s.setCore n c).crecs = s.crecs := rfl
@[simp] theorem setCore_posts (s : State) (n : Nat) (c : CoreSt) : (s.setCore n c).posts = s.posts := rfl
@[simp] theorem setCore_jobs (s : State) (n : Nat) (c : CoreSt) : (s.setCore n c).jobs = s.jobs := rfl
@[simp] theorem setCore_engines (s : State) (n : Nat) (c : CoreSt) : (s.setCore n c).engines = s.engines := rfl
@[simp] theorem setCore_bagents (s : State) (n : Nat) (c : CoreSt) : (s.setCore n c).bagents = s.bagents := rfl
@[simp] theorem setCore_gagents (s : State) (n : Nat) (c : CoreSt) : (s.setCore n c).gagents = s.gagents := rfl
@[simp] theorem setCore_tagents (s : State) (n : Nat) (c : CoreSt) : (s.setCore n c).tagents = s.tagents := rfl
@[simp] theorem setCore_resvs (s : State) (n : Nat) (c : CoreSt) : (s.setCore n c).resvs = s.resvs := rfl
@[simp] theorem setCore_ovf (s : State) (n : Nat) (c : CoreSt) : (s.setCore n c).ovf = s.ovf := rfl
@[simp] theorem setCore_pawns (s : State) (n : Nat) (c : CoreSt) : (s.setCore n c).pawns = s.pawns := rfl
@[simp] theorem setCore_spawned (s : State) (n : Nat) (c : CoreSt) : (s.setCore n c).spawned = s.spawned := rfl
@[simp] theorem setCore_saves (s : State) (n : Nat) (c : CoreSt) : (s.setCore n c).saves = s.saves := rfl
@[simp] theorem setCore_msgq (s : State) (n : Nat) (c : CoreSt) : (s.setCore n c).msgq = s.msgq := rfl
@[simp] theorem setCore_smat (s : State) (n : Nat) (c : CoreSt) : (s.setCore n c).smat = s.smat := rfl
@[simp] theorem setCore_fqp (s : State) (n : Nat) (c : CoreSt) : (s.setCore n c).fqp = s.fqp := rfl
@[simp] theorem setCore_flush (s : State) (n : Nat) (c : CoreSt) : (s.setCore n c).flush = s.flush := rfl
@[simp] theorem setCore_replies (s : State) (n : Nat) (c : CoreSt) : (s.setCore n c).replies = s.replies := rfl
@[simp] theorem setCore_hostq (s : State) (n : Nat) (c : CoreSt) : (s.setCore n c).hostq = s.hostq := rfl
@[simp] theorem setCore_hostOut (s : State) (n : Nat) (c : CoreSt) : (s.setCore n c).hostOut = s.hostOut := rfl
@[simp] theorem setCore_inbox (s : State) (n : Nat) (c : CoreSt) : (s.setCore n c).inbox = s.inbox := rfl
@[simp] theorem setCore_chip (s : State) (n : Nat) (c : CoreSt) : (s.setCore n c).chip = s.chip := rfl
@[simp] theorem setCore_thr (s : State) (n : Nat) (c : CoreSt) : (s.setCore n c).thr = s.thr := rfl
@[simp] theorem setCore_crews (s : State) (n : Nat) (c : CoreSt) : (s.setCore n c).crews = s.crews := rfl
@[simp] theorem setCore_cores (s : State) (n : Nat) (c : CoreSt) : (s.setCore n c).cores = s.cores.set n c := rfl
@[simp] theorem setCore_iss (s : State) (n : Nat) (c : CoreSt) : (s.setCore n c).iss = s.iss := rfl
@[simp] theorem setCore_agenda (s : State) (n : Nat) (c : CoreSt) : (s.setCore n c).agenda = s.agenda := rfl
@[simp] theorem setCore_turn (s : State) (n : Nat) (c : CoreSt) : (s.setCore n c).turn = s.turn := rfl
@[simp] theorem setCore_tick (s : State) (n : Nat) (c : CoreSt) : (s.setCore n c).tick = s.tick := rfl
@[simp] theorem setCore_ids (s : State) (n : Nat) (c : CoreSt) : (s.setCore n c).ids = s.ids := rfl

/-! ### fresh -/

@[simp] theorem fresh_slog (s : State) : (s.fresh).slog = s.slog := rfl
@[simp] theorem fresh_heldP (s : State) : (s.fresh).heldP = s.heldP := rfl
@[simp] theorem fresh_watches (s : State) : (s.fresh).watches = s.watches := rfl
@[simp] theorem fresh_dirs (s : State) : (s.fresh).dirs = s.dirs := rfl
@[simp] theorem fresh_hooks (s : State) : (s.fresh).hooks = s.hooks := rfl
@[simp] theorem fresh_asks (s : State) : (s.fresh).asks = s.asks := rfl
@[simp] theorem fresh_owed (s : State) : (s.fresh).owed = s.owed := rfl
@[simp] theorem fresh_moves (s : State) : (s.fresh).moves = s.moves := rfl
@[simp] theorem fresh_logged (s : State) : (s.fresh).logged = s.logged := rfl
@[simp] theorem fresh_rehome (s : State) : (s.fresh).rehome = s.rehome := rfl
@[simp] theorem fresh_heldF (s : State) : (s.fresh).heldF = s.heldF := rfl
@[simp] theorem fresh_fwds (s : State) : (s.fresh).fwds = s.fwds := rfl
@[simp] theorem fresh_outs (s : State) : (s.fresh).outs = s.outs := rfl
@[simp] theorem fresh_flights (s : State) : (s.fresh).flights = s.flights := rfl
@[simp] theorem fresh_packets (s : State) : (s.fresh).packets = s.packets := rfl
@[simp] theorem fresh_ncyc (s : State) : (s.fresh).ncyc = s.ncyc := rfl
@[simp] theorem fresh_reps (s : State) : (s.fresh).reps = s.reps := rfl
@[simp] theorem fresh_epochs (s : State) : (s.fresh).epochs = s.epochs := rfl
@[simp] theorem fresh_fe (s : State) : (s.fresh).fe = s.fe := rfl
@[simp] theorem fresh_empt (s : State) : (s.fresh).empt = s.empt := rfl
@[simp] theorem fresh_poison (s : State) : (s.fresh).poison = s.poison := rfl
@[simp] theorem fresh_owners (s : State) : (s.fresh).owners = s.owners := rfl
@[simp] theorem fresh_dev (s : State) : (s.fresh).dev = s.dev := rfl
@[simp] theorem fresh_ev (s : State) : (s.fresh).ev = s.ev := rfl
@[simp] theorem fresh_mem (s : State) : (s.fresh).mem = s.mem := rfl
@[simp] theorem fresh_pages (s : State) : (s.fresh).pages = s.pages := rfl
@[simp] theorem fresh_ctxs (s : State) : (s.fresh).ctxs = s.ctxs := rfl
@[simp] theorem fresh_kern (s : State) : (s.fresh).kern = s.kern := rfl
@[simp] theorem fresh_groups (s : State) : (s.fresh).groups = s.groups := rfl
@[simp] theorem fresh_sgrants (s : State) : (s.fresh).sgrants = s.sgrants := rfl
@[simp] theorem fresh_wgrants (s : State) : (s.fresh).wgrants = s.wgrants := rfl
@[simp] theorem fresh_rings (s : State) : (s.fresh).rings = s.rings := rfl
@[simp] theorem fresh_queues (s : State) : (s.fresh).queues = s.queues := rfl
@[simp] theorem fresh_nodes (s : State) : (s.fresh).nodes = s.nodes := rfl
@[simp] theorem fresh_crecs (s : State) : (s.fresh).crecs = s.crecs := rfl
@[simp] theorem fresh_posts (s : State) : (s.fresh).posts = s.posts := rfl
@[simp] theorem fresh_jobs (s : State) : (s.fresh).jobs = s.jobs := rfl
@[simp] theorem fresh_engines (s : State) : (s.fresh).engines = s.engines := rfl
@[simp] theorem fresh_bagents (s : State) : (s.fresh).bagents = s.bagents := rfl
@[simp] theorem fresh_gagents (s : State) : (s.fresh).gagents = s.gagents := rfl
@[simp] theorem fresh_tagents (s : State) : (s.fresh).tagents = s.tagents := rfl
@[simp] theorem fresh_resvs (s : State) : (s.fresh).resvs = s.resvs := rfl
@[simp] theorem fresh_ovf (s : State) : (s.fresh).ovf = s.ovf := rfl
@[simp] theorem fresh_pawns (s : State) : (s.fresh).pawns = s.pawns := rfl
@[simp] theorem fresh_spawned (s : State) : (s.fresh).spawned = s.spawned := rfl
@[simp] theorem fresh_saves (s : State) : (s.fresh).saves = s.saves := rfl
@[simp] theorem fresh_msgq (s : State) : (s.fresh).msgq = s.msgq := rfl
@[simp] theorem fresh_smat (s : State) : (s.fresh).smat = s.smat := rfl
@[simp] theorem fresh_fqp (s : State) : (s.fresh).fqp = s.fqp := rfl
@[simp] theorem fresh_flush (s : State) : (s.fresh).flush = s.flush := rfl
@[simp] theorem fresh_replies (s : State) : (s.fresh).replies = s.replies := rfl
@[simp] theorem fresh_hostq (s : State) : (s.fresh).hostq = s.hostq := rfl
@[simp] theorem fresh_hostOut (s : State) : (s.fresh).hostOut = s.hostOut := rfl
@[simp] theorem fresh_inbox (s : State) : (s.fresh).inbox = s.inbox := rfl
@[simp] theorem fresh_chip (s : State) : (s.fresh).chip = s.chip := rfl
@[simp] theorem fresh_thr (s : State) : (s.fresh).thr = s.thr := rfl
@[simp] theorem fresh_crews (s : State) : (s.fresh).crews = s.crews := rfl
@[simp] theorem fresh_cores (s : State) : (s.fresh).cores = s.cores := rfl
@[simp] theorem fresh_iss (s : State) : (s.fresh).iss = s.iss := rfl
@[simp] theorem fresh_agenda (s : State) : (s.fresh).agenda = s.agenda := rfl
@[simp] theorem fresh_turn (s : State) : (s.fresh).turn = s.turn := rfl
@[simp] theorem fresh_tick (s : State) : (s.fresh).tick = s.tick := rfl
@[simp] theorem fresh_ids (s : State) : (s.fresh).ids = s.ids + 1 := rfl

/-! ### post -/

@[simp] theorem post_slog (s : State) (i : Instr) (a : Arg) : (s.post i a).slog = s.slog := rfl
@[simp] theorem post_heldP (s : State) (i : Instr) (a : Arg) : (s.post i a).heldP = s.heldP := rfl
@[simp] theorem post_watches (s : State) (i : Instr) (a : Arg) : (s.post i a).watches = s.watches := rfl
@[simp] theorem post_dirs (s : State) (i : Instr) (a : Arg) : (s.post i a).dirs = s.dirs := rfl
@[simp] theorem post_hooks (s : State) (i : Instr) (a : Arg) : (s.post i a).hooks = s.hooks := rfl
@[simp] theorem post_asks (s : State) (i : Instr) (a : Arg) : (s.post i a).asks = s.asks := rfl
@[simp] theorem post_owed (s : State) (i : Instr) (a : Arg) : (s.post i a).owed = s.owed := rfl
@[simp] theorem post_moves (s : State) (i : Instr) (a : Arg) : (s.post i a).moves = s.moves := rfl
@[simp] theorem post_logged (s : State) (i : Instr) (a : Arg) : (s.post i a).logged = s.logged := rfl
@[simp] theorem post_rehome (s : State) (i : Instr) (a : Arg) : (s.post i a).rehome = s.rehome := rfl
@[simp] theorem post_heldF (s : State) (i : Instr) (a : Arg) : (s.post i a).heldF = s.heldF := rfl
@[simp] theorem post_fwds (s : State) (i : Instr) (a : Arg) : (s.post i a).fwds = s.fwds := rfl
@[simp] theorem post_outs (s : State) (i : Instr) (a : Arg) : (s.post i a).outs = s.outs := rfl
@[simp] theorem post_flights (s : State) (i : Instr) (a : Arg) : (s.post i a).flights = s.flights := rfl
@[simp] theorem post_packets (s : State) (i : Instr) (a : Arg) : (s.post i a).packets = s.packets := rfl
@[simp] theorem post_ncyc (s : State) (i : Instr) (a : Arg) : (s.post i a).ncyc = s.ncyc := rfl
@[simp] theorem post_reps (s : State) (i : Instr) (a : Arg) : (s.post i a).reps = s.reps := rfl
@[simp] theorem post_epochs (s : State) (i : Instr) (a : Arg) : (s.post i a).epochs = s.epochs := rfl
@[simp] theorem post_fe (s : State) (i : Instr) (a : Arg) : (s.post i a).fe = s.fe := rfl
@[simp] theorem post_empt (s : State) (i : Instr) (a : Arg) : (s.post i a).empt = s.empt := rfl
@[simp] theorem post_poison (s : State) (i : Instr) (a : Arg) : (s.post i a).poison = s.poison := rfl
@[simp] theorem post_owners (s : State) (i : Instr) (a : Arg) : (s.post i a).owners = s.owners := rfl
@[simp] theorem post_dev (s : State) (i : Instr) (a : Arg) : (s.post i a).dev = s.dev := rfl
@[simp] theorem post_ev (s : State) (i : Instr) (a : Arg) : (s.post i a).ev = s.ev := rfl
@[simp] theorem post_mem (s : State) (i : Instr) (a : Arg) : (s.post i a).mem = s.mem := rfl
@[simp] theorem post_pages (s : State) (i : Instr) (a : Arg) : (s.post i a).pages = s.pages := rfl
@[simp] theorem post_ctxs (s : State) (i : Instr) (a : Arg) : (s.post i a).ctxs = s.ctxs := rfl
@[simp] theorem post_kern (s : State) (i : Instr) (a : Arg) : (s.post i a).kern = s.kern := rfl
@[simp] theorem post_groups (s : State) (i : Instr) (a : Arg) : (s.post i a).groups = s.groups := rfl
@[simp] theorem post_sgrants (s : State) (i : Instr) (a : Arg) : (s.post i a).sgrants = s.sgrants := rfl
@[simp] theorem post_wgrants (s : State) (i : Instr) (a : Arg) : (s.post i a).wgrants = s.wgrants := rfl
@[simp] theorem post_rings (s : State) (i : Instr) (a : Arg) : (s.post i a).rings = s.rings := rfl
@[simp] theorem post_queues (s : State) (i : Instr) (a : Arg) : (s.post i a).queues = s.queues := rfl
@[simp] theorem post_nodes (s : State) (i : Instr) (a : Arg) : (s.post i a).nodes = s.nodes := rfl
@[simp] theorem post_crecs (s : State) (i : Instr) (a : Arg) : (s.post i a).crecs = s.crecs := rfl
@[simp] theorem post_posts (s : State) (i : Instr) (a : Arg) : (s.post i a).posts = s.posts := rfl
@[simp] theorem post_jobs (s : State) (i : Instr) (a : Arg) : (s.post i a).jobs = s.jobs := rfl
@[simp] theorem post_engines (s : State) (i : Instr) (a : Arg) : (s.post i a).engines = s.engines := rfl
@[simp] theorem post_bagents (s : State) (i : Instr) (a : Arg) : (s.post i a).bagents = s.bagents := rfl
@[simp] theorem post_gagents (s : State) (i : Instr) (a : Arg) : (s.post i a).gagents = s.gagents := rfl
@[simp] theorem post_tagents (s : State) (i : Instr) (a : Arg) : (s.post i a).tagents = s.tagents := rfl
@[simp] theorem post_resvs (s : State) (i : Instr) (a : Arg) : (s.post i a).resvs = s.resvs := rfl
@[simp] theorem post_ovf (s : State) (i : Instr) (a : Arg) : (s.post i a).ovf = s.ovf := rfl
@[simp] theorem post_pawns (s : State) (i : Instr) (a : Arg) : (s.post i a).pawns = s.pawns := rfl
@[simp] theorem post_spawned (s : State) (i : Instr) (a : Arg) : (s.post i a).spawned = s.spawned := rfl
@[simp] theorem post_saves (s : State) (i : Instr) (a : Arg) : (s.post i a).saves = s.saves := rfl
@[simp] theorem post_msgq (s : State) (i : Instr) (a : Arg) : (s.post i a).msgq = s.msgq := rfl
@[simp] theorem post_smat (s : State) (i : Instr) (a : Arg) : (s.post i a).smat = s.smat := rfl
@[simp] theorem post_fqp (s : State) (i : Instr) (a : Arg) : (s.post i a).fqp = s.fqp := rfl
@[simp] theorem post_flush (s : State) (i : Instr) (a : Arg) : (s.post i a).flush = s.flush := rfl
@[simp] theorem post_replies (s : State) (i : Instr) (a : Arg) : (s.post i a).replies = s.replies := rfl
@[simp] theorem post_hostq (s : State) (i : Instr) (a : Arg) : (s.post i a).hostq = s.hostq := rfl
@[simp] theorem post_hostOut (s : State) (i : Instr) (a : Arg) : (s.post i a).hostOut = s.hostOut := rfl
@[simp] theorem post_inbox (s : State) (i : Instr) (a : Arg) : (s.post i a).inbox = s.inbox := rfl
@[simp] theorem post_chip (s : State) (i : Instr) (a : Arg) : (s.post i a).chip = s.chip := rfl
@[simp] theorem post_thr (s : State) (i : Instr) (a : Arg) : (s.post i a).thr = s.thr := rfl
@[simp] theorem post_crews (s : State) (i : Instr) (a : Arg) : (s.post i a).crews = s.crews := rfl
@[simp] theorem post_cores (s : State) (i : Instr) (a : Arg) : (s.post i a).cores = s.cores := rfl
@[simp] theorem post_iss (s : State) (i : Instr) (a : Arg) : (s.post i a).iss = s.iss := rfl
@[simp] theorem post_agenda (s : State) (i : Instr) (a : Arg) : (s.post i a).agenda = s.agenda ++ [⟨i, a⟩] := rfl
@[simp] theorem post_turn (s : State) (i : Instr) (a : Arg) : (s.post i a).turn = s.turn := rfl
@[simp] theorem post_tick (s : State) (i : Instr) (a : Arg) : (s.post i a).tick = s.tick := rfl
@[simp] theorem post_ids (s : State) (i : Instr) (a : Arg) : (s.post i a).ids = s.ids := rfl

/-! ### wrMem -/

@[simp] theorem wrMem_slog (s : State) (a n v : Nat) : (s.wrMem a n v).slog = s.slog := rfl
@[simp] theorem wrMem_heldP (s : State) (a n v : Nat) : (s.wrMem a n v).heldP = s.heldP := rfl
@[simp] theorem wrMem_watches (s : State) (a n v : Nat) : (s.wrMem a n v).watches = s.watches := rfl
@[simp] theorem wrMem_dirs (s : State) (a n v : Nat) : (s.wrMem a n v).dirs = s.dirs := rfl
@[simp] theorem wrMem_hooks (s : State) (a n v : Nat) : (s.wrMem a n v).hooks = s.hooks := rfl
@[simp] theorem wrMem_asks (s : State) (a n v : Nat) : (s.wrMem a n v).asks = s.asks := rfl
@[simp] theorem wrMem_owed (s : State) (a n v : Nat) : (s.wrMem a n v).owed = s.owed := rfl
@[simp] theorem wrMem_moves (s : State) (a n v : Nat) : (s.wrMem a n v).moves = s.moves := rfl
@[simp] theorem wrMem_logged (s : State) (a n v : Nat) : (s.wrMem a n v).logged = s.logged := rfl
@[simp] theorem wrMem_rehome (s : State) (a n v : Nat) : (s.wrMem a n v).rehome = s.rehome := rfl
@[simp] theorem wrMem_heldF (s : State) (a n v : Nat) : (s.wrMem a n v).heldF = s.heldF := rfl
@[simp] theorem wrMem_fwds (s : State) (a n v : Nat) : (s.wrMem a n v).fwds = s.fwds := rfl
@[simp] theorem wrMem_outs (s : State) (a n v : Nat) : (s.wrMem a n v).outs = s.outs := rfl
@[simp] theorem wrMem_flights (s : State) (a n v : Nat) : (s.wrMem a n v).flights = s.flights := rfl
@[simp] theorem wrMem_packets (s : State) (a n v : Nat) : (s.wrMem a n v).packets = s.packets := rfl
@[simp] theorem wrMem_ncyc (s : State) (a n v : Nat) : (s.wrMem a n v).ncyc = s.ncyc := rfl
@[simp] theorem wrMem_reps (s : State) (a n v : Nat) : (s.wrMem a n v).reps = s.reps := rfl
@[simp] theorem wrMem_epochs (s : State) (a n v : Nat) : (s.wrMem a n v).epochs = s.epochs := rfl
@[simp] theorem wrMem_fe (s : State) (a n v : Nat) : (s.wrMem a n v).fe = s.fe := rfl
@[simp] theorem wrMem_empt (s : State) (a n v : Nat) : (s.wrMem a n v).empt = s.empt := rfl
@[simp] theorem wrMem_poison (s : State) (a n v : Nat) : (s.wrMem a n v).poison = s.poison := rfl
@[simp] theorem wrMem_owners (s : State) (a n v : Nat) : (s.wrMem a n v).owners = s.owners := rfl
@[simp] theorem wrMem_dev (s : State) (a n v : Nat) : (s.wrMem a n v).dev = s.dev := rfl
@[simp] theorem wrMem_ev (s : State) (a n v : Nat) : (s.wrMem a n v).ev = s.ev := rfl
@[simp] theorem wrMem_mem (s : State) (a n v : Nat) : (s.wrMem a n v).mem = memWrN s.mem a n v := rfl
@[simp] theorem wrMem_pages (s : State) (a n v : Nat) : (s.wrMem a n v).pages = s.pages := rfl
@[simp] theorem wrMem_ctxs (s : State) (a n v : Nat) : (s.wrMem a n v).ctxs = s.ctxs := rfl
@[simp] theorem wrMem_kern (s : State) (a n v : Nat) : (s.wrMem a n v).kern = s.kern := rfl
@[simp] theorem wrMem_groups (s : State) (a n v : Nat) : (s.wrMem a n v).groups = s.groups := rfl
@[simp] theorem wrMem_sgrants (s : State) (a n v : Nat) : (s.wrMem a n v).sgrants = s.sgrants := rfl
@[simp] theorem wrMem_wgrants (s : State) (a n v : Nat) : (s.wrMem a n v).wgrants = s.wgrants := rfl
@[simp] theorem wrMem_rings (s : State) (a n v : Nat) : (s.wrMem a n v).rings = s.rings := rfl
@[simp] theorem wrMem_queues (s : State) (a n v : Nat) : (s.wrMem a n v).queues = s.queues := rfl
@[simp] theorem wrMem_nodes (s : State) (a n v : Nat) : (s.wrMem a n v).nodes = s.nodes := rfl
@[simp] theorem wrMem_crecs (s : State) (a n v : Nat) : (s.wrMem a n v).crecs = s.crecs := rfl
@[simp] theorem wrMem_posts (s : State) (a n v : Nat) : (s.wrMem a n v).posts = s.posts := rfl
@[simp] theorem wrMem_jobs (s : State) (a n v : Nat) : (s.wrMem a n v).jobs = s.jobs := rfl
@[simp] theorem wrMem_engines (s : State) (a n v : Nat) : (s.wrMem a n v).engines = s.engines := rfl
@[simp] theorem wrMem_bagents (s : State) (a n v : Nat) : (s.wrMem a n v).bagents = s.bagents := rfl
@[simp] theorem wrMem_gagents (s : State) (a n v : Nat) : (s.wrMem a n v).gagents = s.gagents := rfl
@[simp] theorem wrMem_tagents (s : State) (a n v : Nat) : (s.wrMem a n v).tagents = s.tagents := rfl
@[simp] theorem wrMem_resvs (s : State) (a n v : Nat) : (s.wrMem a n v).resvs = s.resvs := rfl
@[simp] theorem wrMem_ovf (s : State) (a n v : Nat) : (s.wrMem a n v).ovf = s.ovf := rfl
@[simp] theorem wrMem_pawns (s : State) (a n v : Nat) : (s.wrMem a n v).pawns = s.pawns := rfl
@[simp] theorem wrMem_spawned (s : State) (a n v : Nat) : (s.wrMem a n v).spawned = s.spawned := rfl
@[simp] theorem wrMem_saves (s : State) (a n v : Nat) : (s.wrMem a n v).saves = s.saves := rfl
@[simp] theorem wrMem_msgq (s : State) (a n v : Nat) : (s.wrMem a n v).msgq = s.msgq := rfl
@[simp] theorem wrMem_smat (s : State) (a n v : Nat) : (s.wrMem a n v).smat = s.smat := rfl
@[simp] theorem wrMem_fqp (s : State) (a n v : Nat) : (s.wrMem a n v).fqp = s.fqp := rfl
@[simp] theorem wrMem_flush (s : State) (a n v : Nat) : (s.wrMem a n v).flush = s.flush := rfl
@[simp] theorem wrMem_replies (s : State) (a n v : Nat) : (s.wrMem a n v).replies = s.replies := rfl
@[simp] theorem wrMem_hostq (s : State) (a n v : Nat) : (s.wrMem a n v).hostq = s.hostq := rfl
@[simp] theorem wrMem_hostOut (s : State) (a n v : Nat) : (s.wrMem a n v).hostOut = s.hostOut := rfl
@[simp] theorem wrMem_inbox (s : State) (a n v : Nat) : (s.wrMem a n v).inbox = s.inbox := rfl
@[simp] theorem wrMem_chip (s : State) (a n v : Nat) : (s.wrMem a n v).chip = s.chip := rfl
@[simp] theorem wrMem_thr (s : State) (a n v : Nat) : (s.wrMem a n v).thr = s.thr := rfl
@[simp] theorem wrMem_crews (s : State) (a n v : Nat) : (s.wrMem a n v).crews = s.crews := rfl
@[simp] theorem wrMem_cores (s : State) (a n v : Nat) : (s.wrMem a n v).cores = s.cores := rfl
@[simp] theorem wrMem_iss (s : State) (a n v : Nat) : (s.wrMem a n v).iss = s.iss := rfl
@[simp] theorem wrMem_agenda (s : State) (a n v : Nat) : (s.wrMem a n v).agenda = s.agenda := rfl
@[simp] theorem wrMem_turn (s : State) (a n v : Nat) : (s.wrMem a n v).turn = s.turn := rfl
@[simp] theorem wrMem_tick (s : State) (a n v : Nat) : (s.wrMem a n v).tick = s.tick := rfl
@[simp] theorem wrMem_ids (s : State) (a n v : Nat) : (s.wrMem a n v).ids = s.ids := rfl

/-! ### endWord -/

@[simp] theorem endWord_slog (s : State) : (s.endWord).slog = s.slog := rfl
@[simp] theorem endWord_heldP (s : State) : (s.endWord).heldP = s.heldP := rfl
@[simp] theorem endWord_watches (s : State) : (s.endWord).watches = s.watches := rfl
@[simp] theorem endWord_dirs (s : State) : (s.endWord).dirs = s.dirs := rfl
@[simp] theorem endWord_hooks (s : State) : (s.endWord).hooks = s.hooks := rfl
@[simp] theorem endWord_asks (s : State) : (s.endWord).asks = s.asks := rfl
@[simp] theorem endWord_owed (s : State) : (s.endWord).owed = s.owed := rfl
@[simp] theorem endWord_moves (s : State) : (s.endWord).moves = s.moves := rfl
@[simp] theorem endWord_logged (s : State) : (s.endWord).logged = s.logged := rfl
@[simp] theorem endWord_rehome (s : State) : (s.endWord).rehome = s.rehome := rfl
@[simp] theorem endWord_heldF (s : State) : (s.endWord).heldF = s.heldF := rfl
@[simp] theorem endWord_fwds (s : State) : (s.endWord).fwds = s.fwds := rfl
@[simp] theorem endWord_outs (s : State) : (s.endWord).outs = s.outs := rfl
@[simp] theorem endWord_flights (s : State) : (s.endWord).flights = s.flights := rfl
@[simp] theorem endWord_packets (s : State) : (s.endWord).packets = s.packets := rfl
@[simp] theorem endWord_ncyc (s : State) : (s.endWord).ncyc = s.ncyc := rfl
@[simp] theorem endWord_reps (s : State) : (s.endWord).reps = s.reps := rfl
@[simp] theorem endWord_epochs (s : State) : (s.endWord).epochs = s.epochs := rfl
@[simp] theorem endWord_fe (s : State) : (s.endWord).fe = s.fe := rfl
@[simp] theorem endWord_empt (s : State) : (s.endWord).empt = s.empt := rfl
@[simp] theorem endWord_poison (s : State) : (s.endWord).poison = s.poison := rfl
@[simp] theorem endWord_owners (s : State) : (s.endWord).owners = s.owners := rfl
@[simp] theorem endWord_dev (s : State) : (s.endWord).dev = s.dev := rfl
@[simp] theorem endWord_ev (s : State) : (s.endWord).ev = s.ev := rfl
@[simp] theorem endWord_mem (s : State) : (s.endWord).mem = s.mem := rfl
@[simp] theorem endWord_pages (s : State) : (s.endWord).pages = s.pages := rfl
@[simp] theorem endWord_ctxs (s : State) : (s.endWord).ctxs = s.ctxs := rfl
@[simp] theorem endWord_kern (s : State) : (s.endWord).kern = s.kern := rfl
@[simp] theorem endWord_groups (s : State) : (s.endWord).groups = s.groups := rfl
@[simp] theorem endWord_sgrants (s : State) : (s.endWord).sgrants = s.sgrants := rfl
@[simp] theorem endWord_wgrants (s : State) : (s.endWord).wgrants = s.wgrants := rfl
@[simp] theorem endWord_rings (s : State) : (s.endWord).rings = s.rings := rfl
@[simp] theorem endWord_queues (s : State) : (s.endWord).queues = s.queues := rfl
@[simp] theorem endWord_nodes (s : State) : (s.endWord).nodes = s.nodes := rfl
@[simp] theorem endWord_crecs (s : State) : (s.endWord).crecs = s.crecs := rfl
@[simp] theorem endWord_posts (s : State) : (s.endWord).posts = s.posts := rfl
@[simp] theorem endWord_jobs (s : State) : (s.endWord).jobs = s.jobs := rfl
@[simp] theorem endWord_engines (s : State) : (s.endWord).engines = s.engines := rfl
@[simp] theorem endWord_bagents (s : State) : (s.endWord).bagents = s.bagents := rfl
@[simp] theorem endWord_gagents (s : State) : (s.endWord).gagents = s.gagents := rfl
@[simp] theorem endWord_tagents (s : State) : (s.endWord).tagents = s.tagents := rfl
@[simp] theorem endWord_resvs (s : State) : (s.endWord).resvs = s.resvs := rfl
@[simp] theorem endWord_ovf (s : State) : (s.endWord).ovf = s.ovf := rfl
@[simp] theorem endWord_pawns (s : State) : (s.endWord).pawns = s.pawns := rfl
@[simp] theorem endWord_spawned (s : State) : (s.endWord).spawned = s.spawned := rfl
@[simp] theorem endWord_saves (s : State) : (s.endWord).saves = s.saves := rfl
@[simp] theorem endWord_msgq (s : State) : (s.endWord).msgq = s.msgq := rfl
@[simp] theorem endWord_smat (s : State) : (s.endWord).smat = s.smat := rfl
@[simp] theorem endWord_fqp (s : State) : (s.endWord).fqp = s.fqp := rfl
@[simp] theorem endWord_flush (s : State) : (s.endWord).flush = s.flush := rfl
@[simp] theorem endWord_replies (s : State) : (s.endWord).replies = s.replies := rfl
@[simp] theorem endWord_hostq (s : State) : (s.endWord).hostq = s.hostq := rfl
@[simp] theorem endWord_hostOut (s : State) : (s.endWord).hostOut = s.hostOut := rfl
@[simp] theorem endWord_inbox (s : State) : (s.endWord).inbox = s.inbox := rfl
@[simp] theorem endWord_chip (s : State) : (s.endWord).chip = s.chip := rfl
@[simp] theorem endWord_thr (s : State) : (s.endWord).thr = s.thr := rfl
@[simp] theorem endWord_crews (s : State) : (s.endWord).crews = s.crews := rfl
@[simp] theorem endWord_cores (s : State) : (s.endWord).cores = s.cores := rfl
@[simp] theorem endWord_iss (s : State) : (s.endWord).iss = { s.iss with pfx := .none } := rfl
@[simp] theorem endWord_agenda (s : State) : (s.endWord).agenda = s.agenda := rfl
@[simp] theorem endWord_turn (s : State) : (s.endWord).turn = s.turn := rfl
@[simp] theorem endWord_tick (s : State) : (s.endWord).tick = s.tick := rfl
@[simp] theorem endWord_ids (s : State) : (s.endWord).ids = s.ids := rfl

/-! ### dropLane -/

@[simp] theorem dropLane_slog (s : State) (l : LaneRef) (d : Drop) : (s.dropLane l d).slog = s.slog := rfl
@[simp] theorem dropLane_heldP (s : State) (l : LaneRef) (d : Drop) : (s.dropLane l d).heldP = s.heldP := rfl
@[simp] theorem dropLane_watches (s : State) (l : LaneRef) (d : Drop) : (s.dropLane l d).watches = s.watches := rfl
@[simp] theorem dropLane_dirs (s : State) (l : LaneRef) (d : Drop) : (s.dropLane l d).dirs = s.dirs := rfl
@[simp] theorem dropLane_hooks (s : State) (l : LaneRef) (d : Drop) : (s.dropLane l d).hooks = s.hooks := rfl
@[simp] theorem dropLane_asks (s : State) (l : LaneRef) (d : Drop) : (s.dropLane l d).asks = s.asks := rfl
@[simp] theorem dropLane_owed (s : State) (l : LaneRef) (d : Drop) : (s.dropLane l d).owed = s.owed := rfl
@[simp] theorem dropLane_moves (s : State) (l : LaneRef) (d : Drop) : (s.dropLane l d).moves = s.moves := rfl
@[simp] theorem dropLane_logged (s : State) (l : LaneRef) (d : Drop) : (s.dropLane l d).logged = s.logged := rfl
@[simp] theorem dropLane_rehome (s : State) (l : LaneRef) (d : Drop) : (s.dropLane l d).rehome = s.rehome := rfl
@[simp] theorem dropLane_heldF (s : State) (l : LaneRef) (d : Drop) : (s.dropLane l d).heldF = s.heldF := rfl
@[simp] theorem dropLane_fwds (s : State) (l : LaneRef) (d : Drop) : (s.dropLane l d).fwds = s.fwds := rfl
@[simp] theorem dropLane_outs (s : State) (l : LaneRef) (d : Drop) : (s.dropLane l d).outs = s.outs := rfl
@[simp] theorem dropLane_flights (s : State) (l : LaneRef) (d : Drop) : (s.dropLane l d).flights = s.flights := rfl
@[simp] theorem dropLane_packets (s : State) (l : LaneRef) (d : Drop) : (s.dropLane l d).packets = s.packets := rfl
@[simp] theorem dropLane_ncyc (s : State) (l : LaneRef) (d : Drop) : (s.dropLane l d).ncyc = s.ncyc := rfl
@[simp] theorem dropLane_reps (s : State) (l : LaneRef) (d : Drop) : (s.dropLane l d).reps = s.reps := rfl
@[simp] theorem dropLane_epochs (s : State) (l : LaneRef) (d : Drop) : (s.dropLane l d).epochs = s.epochs := rfl
@[simp] theorem dropLane_fe (s : State) (l : LaneRef) (d : Drop) : (s.dropLane l d).fe = s.fe := rfl
@[simp] theorem dropLane_empt (s : State) (l : LaneRef) (d : Drop) : (s.dropLane l d).empt = s.empt := rfl
@[simp] theorem dropLane_poison (s : State) (l : LaneRef) (d : Drop) : (s.dropLane l d).poison = s.poison := rfl
@[simp] theorem dropLane_owners (s : State) (l : LaneRef) (d : Drop) : (s.dropLane l d).owners = s.owners := rfl
@[simp] theorem dropLane_dev (s : State) (l : LaneRef) (d : Drop) : (s.dropLane l d).dev = s.dev := rfl
@[simp] theorem dropLane_ev (s : State) (l : LaneRef) (d : Drop) : (s.dropLane l d).ev = s.ev := rfl
@[simp] theorem dropLane_mem (s : State) (l : LaneRef) (d : Drop) : (s.dropLane l d).mem = s.mem := rfl
@[simp] theorem dropLane_pages (s : State) (l : LaneRef) (d : Drop) : (s.dropLane l d).pages = s.pages := rfl
@[simp] theorem dropLane_ctxs (s : State) (l : LaneRef) (d : Drop) : (s.dropLane l d).ctxs = s.ctxs := rfl
@[simp] theorem dropLane_kern (s : State) (l : LaneRef) (d : Drop) : (s.dropLane l d).kern = s.kern := rfl
@[simp] theorem dropLane_groups (s : State) (l : LaneRef) (d : Drop) : (s.dropLane l d).groups = s.groups := rfl
@[simp] theorem dropLane_sgrants (s : State) (l : LaneRef) (d : Drop) : (s.dropLane l d).sgrants = s.sgrants := rfl
@[simp] theorem dropLane_wgrants (s : State) (l : LaneRef) (d : Drop) : (s.dropLane l d).wgrants = s.wgrants := rfl
@[simp] theorem dropLane_rings (s : State) (l : LaneRef) (d : Drop) : (s.dropLane l d).rings = s.rings := rfl
@[simp] theorem dropLane_queues (s : State) (l : LaneRef) (d : Drop) : (s.dropLane l d).queues = s.queues := rfl
@[simp] theorem dropLane_nodes (s : State) (l : LaneRef) (d : Drop) : (s.dropLane l d).nodes = s.nodes := rfl
@[simp] theorem dropLane_crecs (s : State) (l : LaneRef) (d : Drop) : (s.dropLane l d).crecs = s.crecs := rfl
@[simp] theorem dropLane_posts (s : State) (l : LaneRef) (d : Drop) : (s.dropLane l d).posts = s.posts := rfl
@[simp] theorem dropLane_jobs (s : State) (l : LaneRef) (d : Drop) : (s.dropLane l d).jobs = s.jobs := rfl
@[simp] theorem dropLane_engines (s : State) (l : LaneRef) (d : Drop) : (s.dropLane l d).engines = s.engines := rfl
@[simp] theorem dropLane_bagents (s : State) (l : LaneRef) (d : Drop) : (s.dropLane l d).bagents = s.bagents := rfl
@[simp] theorem dropLane_gagents (s : State) (l : LaneRef) (d : Drop) : (s.dropLane l d).gagents = s.gagents := rfl
@[simp] theorem dropLane_tagents (s : State) (l : LaneRef) (d : Drop) : (s.dropLane l d).tagents = s.tagents := rfl
@[simp] theorem dropLane_resvs (s : State) (l : LaneRef) (d : Drop) : (s.dropLane l d).resvs = s.resvs := rfl
@[simp] theorem dropLane_ovf (s : State) (l : LaneRef) (d : Drop) : (s.dropLane l d).ovf = s.ovf := rfl
@[simp] theorem dropLane_pawns (s : State) (l : LaneRef) (d : Drop) : (s.dropLane l d).pawns = s.pawns := rfl
@[simp] theorem dropLane_spawned (s : State) (l : LaneRef) (d : Drop) : (s.dropLane l d).spawned = s.spawned := rfl
@[simp] theorem dropLane_saves (s : State) (l : LaneRef) (d : Drop) : (s.dropLane l d).saves = s.saves := rfl
@[simp] theorem dropLane_msgq (s : State) (l : LaneRef) (d : Drop) : (s.dropLane l d).msgq = s.msgq := rfl
@[simp] theorem dropLane_smat (s : State) (l : LaneRef) (d : Drop) : (s.dropLane l d).smat = s.smat := rfl
@[simp] theorem dropLane_fqp (s : State) (l : LaneRef) (d : Drop) : (s.dropLane l d).fqp = s.fqp := rfl
@[simp] theorem dropLane_flush (s : State) (l : LaneRef) (d : Drop) : (s.dropLane l d).flush = s.flush := rfl
@[simp] theorem dropLane_replies (s : State) (l : LaneRef) (d : Drop) : (s.dropLane l d).replies = s.replies := rfl
@[simp] theorem dropLane_hostq (s : State) (l : LaneRef) (d : Drop) : (s.dropLane l d).hostq = s.hostq := rfl
@[simp] theorem dropLane_hostOut (s : State) (l : LaneRef) (d : Drop) : (s.dropLane l d).hostOut = s.hostOut := rfl
@[simp] theorem dropLane_inbox (s : State) (l : LaneRef) (d : Drop) : (s.dropLane l d).inbox = s.inbox := rfl
@[simp] theorem dropLane_chip (s : State) (l : LaneRef) (d : Drop) : (s.dropLane l d).chip = s.chip := rfl
@[simp] theorem dropLane_thr (s : State) (l : LaneRef) (d : Drop) : (s.dropLane l d).thr = s.thr := rfl
@[simp] theorem dropLane_crews (s : State) (l : LaneRef) (d : Drop) : (s.dropLane l d).crews = s.crews := rfl
@[simp] theorem dropLane_cores (s : State) (l : LaneRef) (d : Drop) : (s.dropLane l d).cores = s.cores := rfl
@[simp] theorem dropLane_iss (s : State) (l : LaneRef) (d : Drop) : (s.dropLane l d).iss = { s.iss with lanes := s.iss.lanes.filter (· != l), drops := s.iss.drops ++ [(l, d)] } := rfl
@[simp] theorem dropLane_agenda (s : State) (l : LaneRef) (d : Drop) : (s.dropLane l d).agenda = s.agenda := rfl
@[simp] theorem dropLane_turn (s : State) (l : LaneRef) (d : Drop) : (s.dropLane l d).turn = s.turn := rfl
@[simp] theorem dropLane_tick (s : State) (l : LaneRef) (d : Drop) : (s.dropLane l d).tick = s.tick := rfl
@[simp] theorem dropLane_ids (s : State) (l : LaneRef) (d : Drop) : (s.dropLane l d).ids = s.ids := rfl

/-! ### The other updates are these -/

@[simp] theorem modT_eq (s : State) (tk : Nat) (f : Thr → Thr) : s.modT tk f = s.setT tk (f (s.T tk)) := rfl
@[simp] theorem modC_eq (s : State) (ck : Nat) (f : Crew → Crew) : s.modC ck f = s.setC ck (f (s.C ck)) := rfl
@[simp] theorem modCore_eq (s : State) (n : Nat) (f : CoreSt → CoreSt) : s.modCore n f = s.setCore n (f (s.core n)) := rfl
@[simp] theorem wrG_eq (s : State) (tk n : Nat) (v : Word) : s.wrG tk n v = s.setT tk ((s.T tk).setG n v) := rfl
@[simp] theorem block_eq (s : State) (tk : Nat) (w : Wait) : s.block tk w = s.setT tk { s.T tk with st := .blocked, wait := w } := rfl

end Sys2Proof.Laws
end

