-- ==== Sys2Proof/Laws/Tables.lean ====
section
/-! SUPPORT. Reading a table after a set, for every table, sorted or not; threads, crews and cores after their updates. -/

namespace Sys2Proof.Laws
open Sys2Proof Machine

/-- An entry read after a set: the new one at its key, every other as before. -/
theorem get_set {α : Type} (t : Tab α) (n m : Nat) (x : α) : Tab.get? (Tab.set t n x) m = if m = n then some x else Tab.get? t m := by
  induction t with
  | nil => simp only [Tab.set, Tab.get?]; split <;> simp_all
  | cons e t ih =>
    obtain ⟨k, v⟩ := e
    unfold Tab.set
    split
    · next h => subst h; simp only [Tab.get?]; split <;> rfl
    · split
      · next h1 h2 =>
        simp only [Tab.get?]
        by_cases hm : m = n
        · simp [hm]
        · by_cases hl : m < n
          · have hk : m ≠ k := by omega
            have hlk : m < k := by omega
            simp [hm, hl, hk, hlk]
          · simp [hm, hl]
      · next h1 h2 =>
        simp only [Tab.get?, ih]
        by_cases hk : m = k
        · subst hk; have : m ≠ n := fun h => h1 h.symm; simp [this]
        · by_cases hl : m < k
          · have : m ≠ n := by omega
            simp [hk, hl, this]
          · simp [hk, hl]

@[simp] theorem get_set_same {α : Type} (t : Tab α) (n : Nat) (x : α) : Tab.get? (Tab.set t n x) n = some x := by simp [get_set]

theorem get_set_other {α : Type} (t : Tab α) {n m : Nat} (x : α) (h : m ≠ n) : Tab.get? (Tab.set t n x) m = Tab.get? t m := by simp [get_set, h]

theorem T_setT (s : State) (tk m : Nat) (t : Thr) : (s.setT tk t).T m = if m = tk then t else s.T m := by
  simp only [State.T, setT_thr, get_set]; split <;> rfl

theorem C_setC (s : State) (ck m : Nat) (c : Crew) : (s.setC ck c).C m = if m = ck then c else s.C m := by
  simp only [State.C, setC_crews, get_set]; split <;> rfl

theorem core_setCore (s : State) (n m : Nat) (c : CoreSt) : (s.setCore n c).core m = if m = n then c else s.core m := by
  simp only [State.core, setCore_cores, get_set]; split <;> rfl

@[simp] theorem T_setT_same (s : State) (tk : Nat) (t : Thr) : (s.setT tk t).T tk = t := by simp [T_setT]
@[simp] theorem C_setC_same (s : State) (ck : Nat) (c : Crew) : (s.setC ck c).C ck = c := by simp [C_setC]
@[simp] theorem core_setCore_same (s : State) (n : Nat) (c : CoreSt) : (s.setCore n c).core n = c := by simp [core_setCore]

@[simp] theorem C_setT (s : State) (tk m : Nat) (t : Thr) : (s.setT tk t).C m = s.C m := rfl
@[simp] theorem core_setT (s : State) (tk m : Nat) (t : Thr) : (s.setT tk t).core m = s.core m := rfl
@[simp] theorem T_setC (s : State) (ck m : Nat) (c : Crew) : (s.setC ck c).T m = s.T m := rfl
@[simp] theorem core_setC (s : State) (ck m : Nat) (c : Crew) : (s.setC ck c).core m = s.core m := rfl
@[simp] theorem T_setCore (s : State) (n m : Nat) (c : CoreSt) : (s.setCore n c).T m = s.T m := rfl
@[simp] theorem C_setCore (s : State) (n m : Nat) (c : CoreSt) : (s.setCore n c).C m = s.C m := rfl

/-- A context read after a change of one. -/
theorem ctx_modCtx (s : State) (n m : Nat) (f : Ctx → Ctx) : (s.modCtx n f).ctx m = if m = n then f (s.ctx n) else s.ctx m := by
  simp only [State.ctx, State.modCtx, get_set]; split <;> rfl

end Sys2Proof.Laws
end

