-- ==== Sys2Proof/Laws/Memory.lean ====
section
/-! SUPPORT. The laws of the memory list: a byte read after a write, and the canonical form, which every operation on memory keeps. -/

namespace Sys2Proof.Laws
open Sys2Proof Machine

/-- Every listed key lies above a bound. -/
def Above (lo : Option Nat) (k : Nat) : Prop := ∀ l, lo = some l → l < k

theorem wfFrom_cons {lo : Option Nat} {k : Nat} {v : Byte} {t : List Host.Cell} :
    memWfFrom lo ((k, v) :: t) = true ↔ Above lo k ∧ v ≠ 0 ∧ memWfFrom (some k) t = true := by
  cases lo <;> simp [memWfFrom, Above, and_assoc]

theorem wfFrom_mono {t : List Host.Cell} {a b : Option Nat} (hab : ∀ k, Above b k → Above a k) (h : memWfFrom b t = true) :
    memWfFrom a t = true := by
  cases t with
  | nil => cases a <;> rfl
  | cons e t => obtain ⟨k, v⟩ := e; rw [wfFrom_cons] at *; exact ⟨hab k h.1, h.2⟩

/-- No key up to the bound is listed, so a byte there reads 0. -/
theorem memRd_below {t : List Host.Cell} {l a : Nat} (h : memWfFrom (some l) t = true) (ha : a ≤ l) : memRd t a = 0 := by
  cases t with
  | nil => rfl
  | cons e t =>
    obtain ⟨k, v⟩ := e
    rw [wfFrom_cons] at h
    have := h.1 l rfl
    simp only [memRd]
    rw [if_neg (by omega), if_pos (by omega)]

/-- One byte written keeps the form above any bound below it. -/
theorem wfFrom_memWr {m : List Host.Cell} {lo : Option Nat} (a : Nat) (v : Byte) (h : memWfFrom lo m = true) (ha : Above lo a) :
    memWfFrom lo (memWr m a v) = true := by
  induction m generalizing lo with
  | nil =>
    simp only [memWr]
    split
    · exact h
    · rw [wfFrom_cons]; exact ⟨ha, by assumption, rfl⟩
  | cons e t ih =>
    obtain ⟨k, w⟩ := e
    have h' := wfFrom_cons.mp h
    simp only [memWr]
    split
    · next hk =>
      subst hk
      split
      · exact wfFrom_mono (fun x hx l hl => lt_trans (ha l hl) (hx a rfl)) h'.2.2
      · rw [wfFrom_cons]; exact ⟨ha, by assumption, h'.2.2⟩
    · split
      · split
        · exact h
        · rw [wfFrom_cons]
          refine ⟨ha, by assumption, ?_⟩
          rw [wfFrom_cons]
          exact ⟨fun l hl => by cases hl; assumption, h'.2.1, h'.2.2⟩
      · rw [wfFrom_cons]
        exact ⟨h'.1, h'.2.1, ih h'.2.2 (fun l hl => by cases hl; omega)⟩

/-- A byte read after one is written. -/
theorem memRd_memWr_from {m : List Host.Cell} {lo : Option Nat} (a b : Nat) (v : Byte) (h : memWfFrom lo m = true) :
    memRd (memWr m a v) b = if b = a then v else memRd m b := by
  induction m generalizing lo with
  | nil =>
    simp only [memWr]
    split
    · next hv => subst hv; simp [memRd]
    · simp only [memRd]; split <;> simp_all
  | cons e t ih =>
    obtain ⟨k, w⟩ := e
    have h' := wfFrom_cons.mp h
    simp only [memWr]
    split
    · next hk =>
      subst hk
      split
      · next hv =>
        subst hv
        simp only [memRd]
        split
        · next hb => subst hb; exact memRd_below h'.2.2 (le_refl _)
        · split
          · next hb => exact memRd_below h'.2.2 (by omega)
          · rfl
      · simp only [memRd]; split <;> rfl
    · next hk =>
      split
      · next hlt =>
        split
        · next hv =>
          subst hv
          split
          · next hb => subst hb; simp only [memRd]; rw [if_neg hk, if_pos hlt]
          · rfl
        · simp only [memRd]
          split
          · rfl
          · next hb =>
            split
            · next hbl => rw [if_neg (by omega), if_pos (by omega)]
            · rfl
      · next hge =>
        simp only [memRd, ih h'.2.2]
        by_cases hb : b = k
        · subst hb; have : b ≠ a := fun e => hk e.symm; simp [this]
        · by_cases hl : b < k
          · have : b ≠ a := by omega
            simp [hb, hl, this]
          · simp [hb, hl]

/-- A byte of a canonical memory read after one is written. -/
theorem memRd_memWr {m : List Host.Cell} (a b : Nat) (v : Byte) (h : Memory.wf m = true) :
    memRd (memWr m a v) b = if b = a then v else memRd m b := memRd_memWr_from a b v h

/-- One byte written keeps the canonical form. -/
theorem wf_memWr {m : List Host.Cell} (a : Nat) (v : Byte) (h : Memory.wf m = true) : Memory.wf (memWr m a v) = true :=
  wfFrom_memWr a v h (fun _ hl => by cases hl)

/-- A write of n bytes keeps the canonical form. -/
theorem wf_memWrN {m : List Host.Cell} (a n v : Nat) (h : Memory.wf m = true) : Memory.wf (memWrN m a n v) = true := by
  induction n generalizing m a v with
  | zero => exact h
  | succ n ih => exact ih _ _ (wf_memWr _ _ h)

/-- A byte outside a write of n bytes. -/
theorem memRd_memWrN_out {m : List Host.Cell} (a n v b : Nat) (h : Memory.wf m = true) (hb : b < a ∨ a + n ≤ b) :
    memRd (memWrN m a n v) b = memRd m b := by
  induction n generalizing m a v with
  | zero => rfl
  | succ n ih =>
    simp only [memWrN]
    rw [ih _ _ (wf_memWr _ _ h) (by omega), memRd_memWr _ _ _ h, if_neg (by omega)]

/-- A byte inside a write of n bytes is that byte of the number (R1). -/
theorem memRd_memWrN_in {m : List Host.Cell} (a n v i : Nat) (h : Memory.wf m = true) (hi : i < n) :
    memRd (memWrN m a n v) (a + i) = BitVec.ofNat 8 (v / 256 ^ i) := by
  induction n generalizing m a v i with
  | zero => omega
  | succ n ih =>
    simp only [memWrN]
    cases i with
    | zero => rw [memRd_memWrN_out _ _ _ _ (wf_memWr _ _ h) (by omega), memRd_memWr _ _ _ h, if_pos (by omega)]; simp
    | succ i =>
      rw [show a + (i + 1) = a + 1 + i from by omega, ih _ _ _ (wf_memWr _ _ h) (by omega), Nat.div_div_eq_div_mul]
      congr 2
      rw [Nat.pow_succ, Nat.mul_comm]

/-- The number that n bytes make reads only them. -/
theorem memRdN_congr {m m' : List Host.Cell} (a n : Nat) (h : ∀ i, i < n → memRd m (a + i) = memRd m' (a + i)) : memRdN m a n = memRdN m' a n := by
  induction n generalizing a with
  | zero => rfl
  | succ n ih =>
    simp only [memRdN]
    have h0 := h 0 (by omega)
    simp only [Nat.add_zero] at h0
    rw [h0, ih (a + 1) (fun i hi => by have := h (i + 1) (by omega); rwa [show a + 1 + i = a + (i + 1) from by omega])]

/-- Read after write to the same place. -/
theorem memRdN_memWrN {m : List Host.Cell} (a n v : Nat) (h : Memory.wf m = true) : memRdN (memWrN m a n v) a n = v % 256 ^ n := by
  induction n generalizing m a v with
  | zero => simp [memRdN, Nat.mod_one]
  | succ n ih =>
    have h0 := memRd_memWrN_in a (n + 1) v 0 h (by omega)
    simp only [Nat.add_zero, Nat.pow_zero, Nat.div_one] at h0
    simp only [memRdN, h0]
    have h1 : memRdN (memWrN m a (n + 1) v) (a + 1) n = v / 256 % 256 ^ n := by simp only [memWrN]; exact ih _ _ (wf_memWr _ _ h)
    rw [h1, BitVec.toNat_ofNat, show (256 : Nat) ^ (n + 1) = 256 * 256 ^ n from by rw [Nat.pow_succ, Nat.mul_comm], Nat.mod_mul]

/-- Read after a write elsewhere. -/
theorem memRdN_memWrN_out {m : List Host.Cell} (a n v b k : Nat) (h : Memory.wf m = true) (hb : b + k ≤ a ∨ a + n ≤ b) :
    memRdN (memWrN m a n v) b k = memRdN m b k :=
  memRdN_congr _ _ fun i hi => memRd_memWrN_out _ _ _ _ h (by omega)

/-- Cells cleared keep the form (R257, R365). -/
theorem wfFrom_filter {m : List Host.Cell} {lo : Option Nat} (p : Host.Cell → Bool) (h : memWfFrom lo m = true) : memWfFrom lo (m.filter p) = true := by
  induction m generalizing lo with
  | nil => exact h
  | cons e t ih =>
    obtain ⟨k, v⟩ := e
    have h' := wfFrom_cons.mp h
    rw [List.filter_cons]
    split
    · rw [wfFrom_cons]; exact ⟨h'.1, h'.2.1, ih h'.2.2⟩
    · exact ih (wfFrom_mono (fun x hx l hl => lt_trans (h'.1 l hl) (hx k rfl)) h'.2.2)

theorem wf_clearCells {m : List Host.Cell} (a n : Nat) (h : Memory.wf m = true) : Memory.wf (clearCells m a n) = true := wfFrom_filter _ h

/-- A state's write keeps the form. -/
theorem wf_wrMem {s : State} (a n v : Nat) (h : Memory.wf s.mem = true) : Memory.wf (s.wrMem a n v).mem = true := wf_memWrN a n v h

end Sys2Proof.Laws
end

