-- ==== Sys2Proof/Laws/Lanes.lean ====
section
/-! SUPPORT. What a word does lane by lane: the checks of classes 2 to 4, and an effect on each issuing lane's own thread. -/

namespace Sys2Proof.Laws
open Sys2Proof Machine

/-- A word that passes the checks of classes 2 to 4 has its effect (R57). -/
theorem word_ok {i : Instr} {s : State} (k : State → State) (h : s.staticFault i = none) : word i s k = .next (k s).endWord := by
  simp [word, h]

/-- A word that fails them traps in every issuing lane (R57). -/
theorem word_static {i : Instr} {s : State} {c : Cause} (k : State → State) (h : s.staticFault i = some c) :
    word i s k = .next (s.failAll c 0 0).endWord := by
  simp [word, h]

/-- A word always answers a next state. -/
theorem word_next (i : Instr) (s : State) (k : State → State) : ∃ t, word i s k = .next t := ⟨_, rfl⟩

/-- Two states that differ in their threads alone. -/
def ThrOnly (s t : State) : Prop := t = { s with thr := t.thr }

theorem ThrOnly.refl (s : State) : ThrOnly s s := rfl
theorem ThrOnly.setT {s t : State} (h : ThrOnly s t) (tk : Nat) (x : Thr) : ThrOnly s (t.setT tk x) := by
  unfold ThrOnly at *; rw [h]; rfl
theorem ThrOnly.iss {s t : State} (h : ThrOnly s t) : t.iss = s.iss := by rw [h]
theorem ThrOnly.crews {s t : State} (h : ThrOnly s t) : t.crews = s.crews := by rw [h]
theorem ThrOnly.cores {s t : State} (h : ThrOnly s t) : t.cores = s.cores := by rw [h]

/-- A thread as a word reads it depends on the copies the chain took, else on the thread itself (R45). -/
theorem rT_of {s t : State} {tk : Nat} (hi : t.iss = s.iss) (hT : t.T tk = s.T tk) : t.rT tk = s.rT tk := by
  simp only [State.rT, hi, hT]
theorem rC_of {s t : State} {ck : Nat} (hi : t.iss = s.iss) (hc : t.crews = s.crews) : t.rC ck = s.rC ck := by
  simp only [State.rC, State.C, hi, hc]

theorem kmOf_of {s t : State} {l : LaneRef} (hi : t.iss = s.iss) (hc : t.crews = s.crews) : t.kmOf l = s.kmOf l := by
  simp only [State.kmOf, hi, rC_of hi hc]
theorem active_of {s t : State} {pr : Bool} {l : LaneRef} (hi : t.iss = s.iss) (hc : t.crews = s.crews) (hT : t.T l.tk = s.T l.tk) :
    t.active pr l = s.active pr l := by
  simp only [State.active, kmOf_of hi hc, rT_of hi hT]
theorem mz_of {s t : State} (hi : t.iss = s.iss) : t.mz = s.mz := by simp only [State.mz, hi]
theorem rmode_of {s t : State} {x : Thr} (hi : t.iss = s.iss) : t.rmode x = s.rmode x := by simp only [State.rmode, hi]

/-- An effect on each issuing lane's own thread, for lanes that are different threads: the other fields stay, and each thread is what its lane's
effect makes of it. -/
theorem fold_lanes (s : State) (g : State → LaneRef → State) (f : LaneRef → Thr → Thr) (lanes : List LaneRef)
    (hn : (lanes.map (·.tk)).Nodup)
    (hg : ∀ u l, ThrOnly s u → u.T l.tk = s.T l.tk → l ∈ lanes → g u l = u.setT l.tk (f l (s.T l.tk)) ∨ (g u l = u ∧ f l (s.T l.tk) = s.T l.tk)) :
    ThrOnly s (lanes.foldl g s) ∧ ∀ tk, (lanes.foldl g s).T tk = match lanes.find? (·.tk == tk) with
      | some l => f l (s.T tk)
      | none => s.T tk := by
  suffices H : ∀ (ls : List LaneRef) (u : State), (ls.map (·.tk)).Nodup → (∀ l ∈ ls, l ∈ lanes) → ThrOnly s u → (∀ l ∈ ls, u.T l.tk = s.T l.tk) →
      ThrOnly s (ls.foldl g u) ∧ ∀ tk, (ls.foldl g u).T tk = match ls.find? (·.tk == tk) with
        | some l => f l (s.T tk)
        | none => u.T tk from
    H lanes s hn (fun _ h => h) rfl (fun _ _ => rfl)
  intro ls
  induction ls with
  | nil => intro u _ _ hu _; exact ⟨hu, fun tk => rfl⟩
  | cons l r ih =>
    intro u hn hm hu hT
    simp only [List.map_cons, List.nodup_cons] at hn
    have hne : ∀ x ∈ r, x.tk ≠ l.tk := fun x hx e => hn.1 (List.mem_map.mpr ⟨x, hx, e⟩)
    have hl : (g u l).T l.tk = f l (s.T l.tk) ∧ ThrOnly s (g u l) ∧ ∀ tk, tk ≠ l.tk → (g u l).T tk = u.T tk := by
      rcases hg u l hu (hT l (by simp)) (hm l (by simp)) with h | ⟨h, h'⟩
      · rw [h]; exact ⟨by simp, hu.setT _ _, fun tk htk => by simp [T_setT, htk]⟩
      · rw [h, h']; exact ⟨hT l (by simp), hu, fun _ _ => rfl⟩
    have := ih (g u l) hn.2 (fun x hx => hm x (by simp [hx])) hl.2.1 (fun x hx => by rw [hl.2.2 _ (hne x hx)]; exact hT x (by simp [hx]))
    refine ⟨this.1, fun tk => ?_⟩
    rw [List.foldl_cons, this.2 tk]
    by_cases hk : l.tk = tk
    · subst hk
      have hnone : r.find? (·.tk == l.tk) = none := by
        rw [List.find?_eq_none]; intro x hx; simpa using hne x hx
      rw [hnone, List.find?_cons]
      simpa using hl.1
    · have : (l.tk == tk) = false := by simpa using hk
      rw [List.find?_cons]
      simp only [this]
      cases hf : r.find? (·.tk == tk) with
      | some x => rfl
      | none => exact hl.2.2 tk (fun e => hk e.symm)

/-- The same for the issuing lanes. -/
theorem eachLane_threads (s : State) (g : State → LaneRef → State) (f : LaneRef → Thr → Thr) (hn : (s.iss.lanes.map (·.tk)).Nodup)
    (hg : ∀ u l, ThrOnly s u → u.T l.tk = s.T l.tk → l ∈ s.iss.lanes → g u l = u.setT l.tk (f l (s.T l.tk)) ∨ (g u l = u ∧ f l (s.T l.tk) = s.T l.tk)) :
    ThrOnly s (s.eachLane g) ∧ ∀ tk, (s.eachLane g).T tk = match s.iss.lanes.find? (·.tk == tk) with
      | some l => f l (s.T tk)
      | none => s.T tk :=
  fold_lanes s g f s.iss.lanes hn hg

/-- A lane's result committed, field by field (R84). -/
theorem commit_eq (t : Thr) (d : Nat) (r : LaneRes) :
    t.commit d r = { t with g := t.g.setIfInBounds d r.v, flags := t.flags ||| r.fl, srng := r.srng.getD t.srng } := by
  unfold Thr.commit; cases h : r.srng <;> simp [Thr.setG, Thr.raise]

/-- Two states that differ in their threads and in the chain's draws alone. -/
def ThrDraws (s t : State) : Prop := t = { s with thr := t.thr, iss := { s.iss with draws := t.iss.draws } }

theorem ThrDraws.rT {s t : State} (h : ThrDraws s t) {tk : Nat} (hT : t.T tk = s.T tk) : t.rT tk = s.rT tk := by
  have : t.iss.pre = s.iss.pre := by rw [h]
  simp only [State.rT, this, hT]
theorem ThrDraws.mz {s t : State} (h : ThrDraws s t) : t.mz = s.mz := by rw [h]; rfl
theorem ThrDraws.active {s t : State} (h : ThrDraws s t) {pr : Bool} {l : LaneRef} (hT : t.T l.tk = s.T l.tk) : t.active pr l = s.active pr l := by
  have hk : t.kmOf l = s.kmOf l := by rw [h]; rfl
  simp only [State.active, hk, h.rT hT]

/-- What one lane's draw adds to a chain's draws (R132). -/
def addDraw (s : State) (pr : Bool) (f : Thr → LaneRes) (a : List (Nat × Word)) (l : LaneRef) : List (Nat × Word) :=
  match if s.active pr l then (f (s.drawT l.tk)).srng else none with
  | some y => (l.tk, y) :: a
  | none => a

/-- What laneOp does in one lane, in a state that differs from the first in threads and draws: the lane's thread as it was, and its draws those of the first. -/
theorem laneOp_lane (s u : State) (d : Nat) (pr : Bool) (f : Thr → LaneRes) (l : LaneRef) (hu : ThrDraws s u) (hT : u.T l.tk = s.T l.tk)
    (hd : u.iss.draws.find? (·.1 == l.tk) = s.iss.draws.find? (·.1 == l.tk)) :
    (if u.active pr l then (u.modT l.tk (·.commit d (f (u.drawT l.tk)))).drew l.tk (f (u.drawT l.tk)).srng else if u.mz then u.wrG l.tk d 0 else u)
      = { u with thr := (if s.active pr l then u.setT l.tk ((s.T l.tk).commit d (f (s.drawT l.tk))) else if s.mz then u.setT l.tk ((s.T l.tk).setG d 0) else u).thr
                 iss := { u.iss with draws := addDraw s pr f u.iss.draws l } } := by
  have hdr : u.drawT l.tk = s.drawT l.tk := by simp only [State.drawT, hd, hu.rT hT]
  simp only [hu.active hT, hu.mz, hdr, addDraw]
  by_cases ha : s.active pr l
  · simp only [ha, if_true, modT_eq, hT]
    cases (f (s.drawT l.tk)).srng <;> rfl
  · by_cases hz : s.mz
    · simp [ha, hz, State.wrG, hT]; rfl
    · simp [ha, hz]

/-- A word that writes g[d] in each issuing lane (R84): an active lane takes its result, an inactive one 0 with MZ; the chain keeps its draws; nothing else changes. -/
theorem laneOp_threads (s : State) (d : Nat) (pr : Bool) (f : Thr → LaneRes) (hn : (s.iss.lanes.map (·.tk)).Nodup) :
    ThrDraws s (s.laneOp d pr f) ∧ (s.laneOp d pr f).iss.draws = s.iss.lanes.foldl (addDraw s pr f) s.iss.draws
      ∧ ∀ tk, (s.laneOp d pr f).T tk = match s.iss.lanes.find? (·.tk == tk) with
        | some l => if s.active pr l then (s.T tk).commit d (f (s.drawT l.tk)) else if s.mz then (s.T tk).setG d 0 else s.T tk
        | none => s.T tk := by
  suffices H : ∀ (ls : List LaneRef) (u : State), (ls.map (·.tk)).Nodup → ThrDraws s u → (∀ l ∈ ls, u.T l.tk = s.T l.tk) →
      (∀ l ∈ ls, u.iss.draws.find? (·.1 == l.tk) = s.iss.draws.find? (·.1 == l.tk)) →
      let t := ls.foldl (fun s l => if s.active pr l then (s.modT l.tk (·.commit d (f (s.drawT l.tk)))).drew l.tk (f (s.drawT l.tk)).srng
        else if s.mz then s.wrG l.tk d 0 else s) u
      ThrDraws s t ∧ t.iss.draws = ls.foldl (addDraw s pr f) u.iss.draws ∧ ∀ tk, t.T tk = match ls.find? (·.tk == tk) with
        | some l => if s.active pr l then (s.T tk).commit d (f (s.drawT l.tk)) else if s.mz then (s.T tk).setG d 0 else s.T tk
        | none => u.T tk from
    H s.iss.lanes s hn rfl (fun _ _ => rfl) (fun _ _ => rfl)
  intro ls
  induction ls with
  | nil => intro u _ hu _ _; exact ⟨hu, rfl, fun _ => rfl⟩
  | cons l r ih =>
    intro u hn hu hT hd
    simp only [List.map_cons, List.nodup_cons] at hn
    have hne : ∀ x ∈ r, x.tk ≠ l.tk := fun x hx e => hn.1 (List.mem_map.mpr ⟨x, hx, e⟩)
    have hl := laneOp_lane s u d pr f l hu (hT l (by simp)) (hd l (by simp))
    simp only [List.foldl_cons]
    rw [hl]
    generalize hv : (if s.active pr l then u.setT l.tk ((s.T l.tk).commit d (f (s.drawT l.tk))) else if s.mz then u.setT l.tk ((s.T l.tk).setG d 0) else u) = v
    have hvl : v.T l.tk = if s.active pr l then (s.T l.tk).commit d (f (s.drawT l.tk)) else if s.mz then (s.T l.tk).setG d 0 else s.T l.tk := by
      subst hv; split
      · simp
      · split
        · simp
        · exact hT l (by simp)
    have hvo : ∀ k, k ≠ l.tk → v.T k = u.T k := by
      intro k hk; subst hv; split
      · simp [T_setT, hk]
      · split
        · simp [T_setT, hk]
        · rfl
    have hw : ∀ k, ({ u with thr := v.thr, iss := { u.iss with draws := addDraw s pr f u.iss.draws l } } : State).T k = v.T k := fun _ => rfl
    have hw' : ThrDraws s { u with thr := v.thr, iss := { u.iss with draws := addDraw s pr f u.iss.draws l } } := by
      unfold ThrDraws at hu ⊢; rw [hu]
    have := ih { u with thr := v.thr, iss := { u.iss with draws := addDraw s pr f u.iss.draws l } } hn.2 hw'
      (fun x hx => by rw [hw, hvo _ (hne x hx)]; exact hT x (by simp [hx]))
      (fun x hx => by
        rw [← hd x (by simp [hx])]
        simp only [addDraw]
        split
        · have : (l.tk == x.tk) = false := by simpa using fun e => hne x hx e.symm
          simp [this]
        · rfl)
    refine ⟨this.1, this.2.1, fun tk => ?_⟩
    rw [this.2.2 tk]
    by_cases hk : l.tk = tk
    · subst hk
      have hnone : r.find? (·.tk == l.tk) = none := by
        rw [List.find?_eq_none]; intro x hx; simpa using hne x hx
      rw [hnone, List.find?_cons]
      simpa [hw] using hvl
    · have : (l.tk == tk) = false := by simpa using hk
      rw [List.find?_cons]
      simp only [this]
      cases r.find? (·.tk == tk) with
      | some x => rfl
      | none => rw [hw]; exact hvo tk (fun e => hk e.symm)

end Sys2Proof.Laws
end

