-- ==== Sys2Proof/Laws/Ops.lean ====
section
/-! SUPPORT. What the shared operations can do, said once each: messages, waking, taking a trap, locks, and the words that stop in every lane. -/

namespace Sys2Proof.Laws
open Sys2Proof Machine

/-! ### Messages -/

/-- A message to the sender's own agent has arrived at once; any other is a new frame that carries it (R185). -/
theorem send_cases (s : State) (src chip dst : Nat) (i : Instr) (a : Arg) :
    (chip = s.chip ∧ dst = src ∧ s.send src chip dst i a = s.post i a) ∨
    (¬ (chip = s.chip ∧ dst = src) ∧ ∃ f : Flight, f.ev = ⟨i, a⟩ ∧ f.chip = chip ∧ f.dst = dst ∧ f.src = src ∧
      s.send src chip dst i a = { s with flights := s.flights ++ [f], ids := s.ids + 1 }) := by
  by_cases h : chip = s.chip ∧ dst = src
  · exact .inl ⟨h.1, h.2, by simp [State.send, h]⟩
  · right
    refine ⟨h, ?_⟩
    unfold State.send
    rw [if_neg h]
    exact ⟨_, rfl, rfl, rfl, rfl, rfl⟩

/-- A message changes nothing but what carries it. -/
theorem send_frame (s : State) (src chip dst : Nat) (i : Instr) (a : Arg) :
    ∃ f g n, s.send src chip dst i a = { s with flights := f, agenda := g, ids := n } := by
  rcases send_cases s src chip dst i a with ⟨_, _, h⟩ | ⟨_, _, _, _, _, _, h⟩ <;> rw [h] <;> exact ⟨_, _, _, rfl⟩

@[simp] theorem send_thr (s : State) (src chip dst : Nat) (i : Instr) (a : Arg) : (s.send src chip dst i a).thr = s.thr := by
  obtain ⟨_, _, _, h⟩ := send_frame s src chip dst i a; rw [h]
@[simp] theorem send_crews (s : State) (src chip dst : Nat) (i : Instr) (a : Arg) : (s.send src chip dst i a).crews = s.crews := by
  obtain ⟨_, _, _, h⟩ := send_frame s src chip dst i a; rw [h]
@[simp] theorem send_cores (s : State) (src chip dst : Nat) (i : Instr) (a : Arg) : (s.send src chip dst i a).cores = s.cores := by
  obtain ⟨_, _, _, h⟩ := send_frame s src chip dst i a; rw [h]
@[simp] theorem send_mem (s : State) (src chip dst : Nat) (i : Instr) (a : Arg) : (s.send src chip dst i a).mem = s.mem := by
  obtain ⟨_, _, _, h⟩ := send_frame s src chip dst i a; rw [h]
@[simp] theorem send_iss (s : State) (src chip dst : Nat) (i : Instr) (a : Arg) : (s.send src chip dst i a).iss = s.iss := by
  obtain ⟨_, _, _, h⟩ := send_frame s src chip dst i a; rw [h]
@[simp] theorem send_pages (s : State) (src chip dst : Nat) (i : Instr) (a : Arg) : (s.send src chip dst i a).pages = s.pages := by
  obtain ⟨_, _, _, h⟩ := send_frame s src chip dst i a; rw [h]
@[simp] theorem send_dev (s : State) (src chip dst : Nat) (i : Instr) (a : Arg) : (s.send src chip dst i a).dev = s.dev := by
  obtain ⟨_, _, _, h⟩ := send_frame s src chip dst i a; rw [h]
@[simp] theorem send_chip (s : State) (src chip dst : Nat) (i : Instr) (a : Arg) : (s.send src chip dst i a).chip = s.chip := by
  obtain ⟨_, _, _, h⟩ := send_frame s src chip dst i a; rw [h]
@[simp] theorem send_T (s : State) (src chip dst : Nat) (i : Instr) (a : Arg) (tk : Nat) : (s.send src chip dst i a).T tk = s.T tk := by
  simp [State.T]
@[simp] theorem send_C (s : State) (src chip dst : Nat) (i : Instr) (a : Arg) (ck : Nat) : (s.send src chip dst i a).C ck = s.C ck := by
  simp [State.C]

/-- A message is carried after it was sent. -/
theorem send_carried (s : State) (src chip dst : Nat) (i : Instr) (a : Arg) :
    ⟨i, a⟩ ∈ (s.send src chip dst i a).agenda ∨ ∃ f ∈ (s.send src chip dst i a).flights, f.ev = ⟨i, a⟩ ∧ f.chip = chip ∧ f.dst = dst := by
  rcases send_cases s src chip dst i a with ⟨_, _, h⟩ | ⟨_, f, hf, hc, hd, _, h⟩ <;> rw [h]
  · left; simp
  · right; exact ⟨f, by simp, hf, hc, hd⟩

/-! ### Waking and traps (R67, R374, R379) -/

/-- A thread without a pending trap becomes READY at its core's clock. -/
theorem wake_ready {s : State} {tk : Nat} (h : (s.T tk).ptrap = []) :
    s.wake tk = s.setT tk { s.T tk with st := .ready, wait := .none, readyAt := s.clockOf (coreOfTk tk) } := by
  simp [State.wake, h]

/-- A trap of a thread whose handler can take it: the frame is pushed, VIEW is 0, the pc is HANDLER. -/
theorem trapNow_enters {s : State} {tk : Nat} {i : TrapInfo} (hc : i.cause ≠ .uncorrectable) (hd : (s.T tk).frames.length < 4)
    (hh : (s.T tk).handler ≠ 0) (ht : s.targetFault tk (s.T tk).handler.toNat = none) :
    s.trapNow tk i = s.setT tk { s.T tk with
      frames := ⟨i.pc, i.word, i.cause, i.addr, i.info⟩ :: (s.T tk).frames, view := 0, pc := (s.T tk).handler, st := .ready, wait := .none
      readyAt := s.clockOf (coreOfTk tk), fresh := none, got := [] } := by
  unfold State.trapNow
  rw [if_neg hc, if_neg (by omega), if_neg (fun h => h.elim hh (by simp [ht]))]

/-- An escalation leaves every thread but its own. -/
theorem escalate_T (s : State) (tk m : Nat) (c : Cause) (pc : BitVec 56) (addr info : Word) (h : m ≠ tk) :
    (s.escalate tk c pc addr info).T m = s.T m := by
  unfold State.escalate
  simp only
  split <;> simp [State.T, get_set_other _ _ h]

/-- An escalated thread is TRAPPED at the given pc and keeps its frames. -/
theorem escalate_self (s : State) (tk : Nat) (c : Cause) (pc : BitVec 56) (addr info : Word) :
    (s.escalate tk c pc addr info).T tk = { s.T tk with st := .trapped, wait := .none, pc := pc, esc := some ⟨c.num, addr, info⟩, fresh := none, got := [] } := by
  unfold State.escalate
  simp only
  split <;> simp [State.T]

@[simp] theorem escalate_mem (s : State) (tk : Nat) (c : Cause) (pc : BitVec 56) (addr info : Word) : (s.escalate tk c pc addr info).mem = s.mem := by
  unfold State.escalate; simp only; split <;> rfl

@[simp] theorem trapNow_mem (s : State) (tk : Nat) (i : TrapInfo) : (s.trapNow tk i).mem = s.mem := by
  unfold State.trapNow; simp only; split; · simp
  split; · simp
  split <;> simp

@[simp] theorem trapAll_mem (s : State) (tk : Nat) (is : List TrapInfo) : (s.trapAll tk is).mem = s.mem := by
  induction is generalizing s with
  | nil => rfl
  | cons i r ih => unfold State.trapAll; split; · rfl
                   rw [ih, trapNow_mem]

@[simp] theorem sendFill_mem (s : State) (chip : Nat) (f : Fill) : (s.sendFill chip f).mem = s.mem := by
  unfold State.sendFill State.sliceFill; simp only; repeat' split
  all_goals simp

@[simp] theorem needLine_mem (s : State) (tk k chip : Nat) (f : Fill) : (s.needLine tk k chip f).mem = s.mem := by
  unfold State.needLine; simp only; split <;> simp [State.block]

@[simp] theorem needProbe_mem (s : State) (p : Probe) : (s.needProbe p).mem = s.mem := by
  unfold State.needProbe; simp only; split <;> simp [State.block]

@[simp] theorem seek_mem (s : State) (tk : Nat) (w : CodeWord) : (s.seek tk w).mem = s.mem := by
  unfold State.seek; split <;> simp

@[simp] theorem takePending_mem (s : State) (tk : Nat) : (s.takePending tk).mem = s.mem := by
  unfold State.takePending; simp only; split
  · simp
  · split <;> simp

@[simp] theorem takeTrap_mem (s : State) (tk : Nat) (i : TrapInfo) : (s.takeTrap tk i).mem = s.mem := by
  unfold State.takeTrap; simp

@[simp] theorem wake_mem (s : State) (tk : Nat) : (s.wake tk).mem = s.mem := by
  unfold State.wake; split <;> simp

@[simp] theorem applyDrop_mem (s : State) (l : LaneRef) (d : Drop) : (s.applyDrop l d).mem = s.mem := by
  unfold State.applyDrop; split <;> simp [State.block]

@[simp] theorem drop_mem (s : State) (l : LaneRef) (d : Drop) : (s.drop l d).mem = s.mem := by simp [State.drop]
@[simp] theorem fail_mem (s : State) (l : LaneRef) (c : Cause) (addr info : Word) : (s.fail l c addr info).mem = s.mem := by simp [State.fail]
@[simp] theorem hold_mem (s : State) (l : LaneRef) (w : Wait) : (s.hold l w).mem = s.mem := by simp [State.hold]

/-- A word that traps in every lane writes no memory. -/
@[simp] theorem failAll_mem (s : State) (c : Cause) (addr info : Word) : (s.failAll c addr info).mem = s.mem := by
  unfold State.failAll
  generalize s.iss.lanes = ls
  induction ls generalizing s with
  | nil => rfl
  | cons l r ih => rw [List.foldl_cons, ih, fail_mem]

/-! ### Locks (R56) -/

theorem clockOf_of {s t : State} {c : Nat} (h : t.cores = s.cores) : t.clockOf c = s.clockOf c := by simp only [State.clockOf, State.core, h]

/-- A lock in each issuing lane: nothing else of a thread changes, and no other field. -/
theorem lockLanes_threads (s : State) (id d regs la : Nat) (on : LaneRef → Bool) (hn : (s.iss.lanes.map (·.tk)).Nodup) :
    ThrOnly s (s.lockLanes id d regs la on) ∧ ∀ tk, (s.lockLanes id d regs la on).T tk = match s.iss.lanes.find? (·.tk == tk) with
      | some l => { s.T tk with locks := (s.T tk).locks ++
          [lockOf id d regs la (on l) (if on l || s.iss.lanes.any on then none else some (s.clockOf s.iss.core)) (if !on l && s.mz then some 0 else none)] }
      | none => s.T tk := by
  refine eachLane_threads s _ (fun l t => { t with locks := t.locks ++
    [lockOf id d regs la (on l) (if on l || s.iss.lanes.any on then none else some (s.clockOf s.iss.core)) (if !on l && s.mz then some 0 else none)] }) hn
    fun u l hu hT _ => ?_
  left
  simp [hT, mz_of hu.iss]

/-- A released lock leaves its thread's locks and writes what it carries. -/
theorem release_T (s : State) (tk id : Nat) (k : Lock) (h : (s.T tk).locks.find? (·.id == id) = some k) :
    (s.release tk id).T tk =
      (match k.val with
        | some v => ({ s.T tk with locks := (s.T tk).locks.filter (·.id != id) } : Thr).setG k.d v
        | none => { s.T tk with locks := (s.T tk).locks.filter (·.id != id) }).raise k.fl := by
  unfold State.release
  simp only [h, T_setT_same] <;> cases k.val <;> rfl

@[simp] theorem release_mem (s : State) (tk id : Nat) : (s.release tk id).mem = s.mem := by
  unfold State.release; simp only; split <;> rfl

end Sys2Proof.Laws
end

