-- ==== Sys2Proof/Laws/PerInstr.lean ====
section
/-! SUPPORT. One fact about every instruction as syntax: its word fits 32 bits and carries its major in bits 30 to 25 (R41), an event of the part has
none. -/

namespace Sys2Proof.Laws.Encoded
open Sys2Proof
set_option Elab.async false

/-- The word of an instruction, where it has one, fits 32 bits and carries its major. -/
def Statement (i : Instr) : Prop := ∀ w, encode i = some w → w < 2 ^ 32 ∧ majorOf w = i.major

/-- A word with fixed bits, fields below bit 25 and a chain bit. -/
theorem parts {i : Instr} {b t x k c m : Nat} (he : encode i = some (b + t)) (ht : t = x + 2147483648 * c) (hc : c ≤ 1) (hk : x ≤ k)
    (hx : Nat.blt (b % 33554432 + k) 33554432 = true) (hb : b / 33554432 = m) (hm : (Nat.blt m 64 && m == i.major) = true) : Statement i := by
  intro w hw
  rw [he] at hw
  have hm := Bool.and_eq_true _ _ ▸ hm
  have h1 := Nat.blt_eq ▸ hm.1
  have h2 := eq_of_beq hm.2
  have := Nat.blt_eq ▸ hx
  have := Option.some.inj hw
  simp only [majorOf, fld, ← h2]
  omega

theorem CtlF_parts (f : CtlF) : ∃ x, f.toWord = x + 2147483648 * 0 ∧ 0 ≤ 1 ∧ x ≤ 8191 := by
  have hi := f.i.isLt
  exact ⟨f.toWord - 2147483648 * 0, by unfold CtlF.toWord; omega⟩
theorem BrF_parts (f : BrF) : ∃ x, f.toWord = x + 2147483648 * 0 ∧ 0 ≤ 1 ∧ x ≤ 4194303 := by
  have ho := f.o.isLt
  exact ⟨f.toWord - 2147483648 * 0, by unfold BrF.toWord; omega⟩
theorem JrF_parts (f : JrF) : ∃ x, f.toWord = x + 2147483648 * 0 ∧ 0 ≤ 1 ∧ x ≤ 1015812 := by
  have ha := f.a.isLt; have hp := f.p.isLt
  exact ⟨f.toWord - 2147483648 * 0, by unfold JrF.toWord; omega⟩
theorem RetF_parts (f : RetF) : ∃ x, f.toWord = x + 2147483648 * 0 ∧ 0 ≤ 1 ∧ x ≤ 4 := by
  have hp := f.p.isLt
  exact ⟨f.toWord - 2147483648 * 0, by unfold RetF.toWord; omega⟩
theorem PredAF_parts (f : PredAF) : ∃ x, f.toWord = x + 2147483648 * f.c.toNat ∧ f.c.toNat ≤ 1 ∧ x ≤ 1015808 := by
  have hc := f.c.isLt; have ha := f.a.isLt
  exact ⟨f.toWord - 2147483648 * f.c.toNat, by unfold PredAF.toWord; omega⟩
theorem ChainF_parts (f : ChainF) : ∃ x, f.toWord = x + 2147483648 * f.c.toNat ∧ f.c.toNat ≤ 1 ∧ x ≤ 0 := by
  have hc := f.c.isLt
  exact ⟨f.toWord - 2147483648 * f.c.toNat, by unfold ChainF.toWord; omega⟩
theorem PredDF_parts (f : PredDF) : ∃ x, f.toWord = x + 2147483648 * f.c.toNat ∧ f.c.toNat ≤ 1 ∧ x ≤ 32505856 := by
  have hc := f.c.isLt; have hd := f.d.isLt
  exact ⟨f.toWord - 2147483648 * f.c.toNat, by unfold PredDF.toWord; omega⟩
theorem RejF_parts (f : RejF) : ∃ x, f.toWord = x + 2147483648 * f.c.toNat ∧ f.c.toNat ≤ 1 ∧ x ≤ 33423360 := by
  have hc := f.c.isLt; have hj := f.j.isLt
  exact ⟨f.toWord - 2147483648 * f.c.toNat, by unfold RejF.toWord; omega⟩
theorem S2F_parts (f : S2F) : ∃ x, f.toWord = x + 2147483648 * f.c.toNat ∧ f.c.toNat ≤ 1 ∧ x ≤ 33553920 := by
  have hc := f.c.isLt; have hd := f.d.isLt; have ha := f.a.isLt
  exact ⟨f.toWord - 2147483648 * f.c.toNat, by unfold S2F.toWord; omega⟩
theorem L3F_parts (f : L3F) : ∃ x, f.toWord = x + 2147483648 * f.c.toNat ∧ f.c.toNat ≤ 1 ∧ x ≤ 33553471 := by
  have hc := f.c.isLt; have hd := f.d.isLt; have ha := f.a.isLt; have hb := f.b.isLt; have ht := f.t.isLt; have hp := f.p.isLt; have hm := f.m.isLt
  exact ⟨f.toWord - 2147483648 * f.c.toNat, by unfold L3F.toWord; omega⟩
theorem SelF_parts (f : SelF) : ∃ x, f.toWord = x + 2147483648 * f.c.toNat ∧ f.c.toNat ≤ 1 ∧ x ≤ 33553467 := by
  have hc := f.c.isLt; have hd := f.d.isLt; have ha := f.a.isLt; have hb := f.b.isLt; have ht := f.t.isLt; have hm := f.m.isLt
  exact ⟨f.toWord - 2147483648 * f.c.toNat, by unfold SelF.toWord; omega⟩
theorem LongF_parts (f : LongF) : ∃ x, f.toWord = x + 2147483648 * f.c.toNat ∧ f.c.toNat ≤ 1 ∧ x ≤ 33553471 := by
  have hc := f.c.isLt; have hd := f.d.isLt; have ha := f.a.isLt; have hb := f.b.isLt; have ht := f.t.isLt; have hp := f.p.isLt; have hl := f.l.isLt
  exact ⟨f.toWord - 2147483648 * f.c.toNat, by unfold LongF.toWord; omega⟩
theorem UnF_parts (f : UnF) : ∃ x, f.toWord = x + 2147483648 * f.c.toNat ∧ f.c.toNat ≤ 1 ∧ x ≤ 33521724 := by
  have hc := f.c.isLt; have hd := f.d.isLt; have ha := f.a.isLt; have ht := f.t.isLt; have hp := f.p.isLt
  exact ⟨f.toWord - 2147483648 * f.c.toNat, by unfold UnF.toWord; omega⟩
theorem L3NF_parts (f : L3NF) : ∃ x, f.toWord = x + 2147483648 * f.c.toNat ∧ f.c.toNat ≤ 1 ∧ x ≤ 33553468 := by
  have hc := f.c.isLt; have hd := f.d.isLt; have ha := f.a.isLt; have hb := f.b.isLt; have ht := f.t.isLt; have hp := f.p.isLt
  exact ⟨f.toWord - 2147483648 * f.c.toNat, by unfold L3NF.toWord; omega⟩
theorem LiF_parts (f : LiF) : ∃ x, f.toWord = x + 2147483648 * f.c.toNat ∧ f.c.toNat ≤ 1 ∧ x ≤ 33554428 := by
  have hc := f.c.isLt; have hd := f.d.isLt; have ha := f.a.isLt; have hi := f.i.isLt; have hp := f.p.isLt
  exact ⟨f.toWord - 2147483648 * f.c.toNat, by unfold LiF.toWord; omega⟩
theorem CmpF_parts (f : CmpF) : ∃ x, f.toWord = x + 2147483648 * f.c.toNat ∧ f.c.toNat ≤ 1 ∧ x ≤ 33554428 := by
  have hc := f.c.isLt; have hd := f.d.isLt; have ha := f.a.isLt; have hb := f.b.isLt; have hk := f.k.isLt; have ht := f.t.isLt; have hp := f.p.isLt
  exact ⟨f.toWord - 2147483648 * f.c.toNat, by unfold CmpF.toWord; omega⟩
theorem CmpPF_parts (f : CmpPF) : ∃ x, f.toWord = x + 2147483648 * f.c.toNat ∧ f.c.toNat ≤ 1 ∧ x ≤ 1048572 := by
  have hc := f.c.isLt; have ha := f.a.isLt; have hb := f.b.isLt; have hk := f.k.isLt; have ht := f.t.isLt; have hp := f.p.isLt
  exact ⟨f.toWord - 2147483648 * f.c.toNat, by unfold CmpPF.toWord; omega⟩
theorem MovF_parts (f : MovF) : ∃ x, f.toWord = x + 2147483648 * f.c.toNat ∧ f.c.toNat ≤ 1 ∧ x ≤ 33554428 := by
  have hc := f.c.isLt; have hd := f.d.isLt; have hi := f.i.isLt; have hh := f.h.isLt
  exact ⟨f.toWord - 2147483648 * f.c.toNat, by unfold MovF.toWord; omega⟩
theorem FmaF_parts (f : FmaF) : ∃ x, f.toWord = x + 2147483648 * f.c.toNat ∧ f.c.toNat ≤ 1 ∧ x ≤ 33554430 := by
  have hc := f.c.isLt; have hd := f.d.isLt; have ha := f.a.isLt; have hb := f.b.isLt; have he := f.e.isLt; have ht := f.t.isLt; have hp := f.p.isLt
  exact ⟨f.toWord - 2147483648 * f.c.toNat, by unfold FmaF.toWord; omega⟩
theorem SpecF_parts (f : SpecF) : ∃ x, f.toWord = x + 2147483648 * f.c.toNat ∧ f.c.toNat ≤ 1 ∧ x ≤ 33521727 := by
  have hc := f.c.isLt; have hd := f.d.isLt; have ha := f.a.isLt; have ht := f.t.isLt; have hp := f.p.isLt; have hl := f.l.isLt
  exact ⟨f.toWord - 2147483648 * f.c.toNat, by unfold SpecF.toWord; omega⟩
theorem SiF_parts (f : SiF) : ∃ x, f.toWord = x + 2147483648 * f.c.toNat ∧ f.c.toNat ≤ 1 ∧ x ≤ 33431551 := by
  have hc := f.c.isLt; have hd := f.d.isLt; have hi := f.i.isLt
  exact ⟨f.toWord - 2147483648 * f.c.toNat, by unfold SiF.toWord; omega⟩
theorem XmvF_parts (f : XmvF) : ∃ x, f.toWord = x + 2147483648 * f.c.toNat ∧ f.c.toNat ≤ 1 ∧ x ≤ 33553415 := by
  have hc := f.c.isLt; have hd := f.d.isLt; have ha := f.a.isLt; have hb := f.b.isLt; have hp := f.p.isLt; have hm := f.m.isLt
  exact ⟨f.toWord - 2147483648 * f.c.toNat, by unfold XmvF.toWord; omega⟩
theorem ShfliF_parts (f : ShfliF) : ∃ x, f.toWord = x + 2147483648 * f.c.toNat ∧ f.c.toNat ≤ 1 ∧ x ≤ 33553412 := by
  have hc := f.c.isLt; have hd := f.d.isLt; have ha := f.a.isLt; have hb := f.b.isLt; have hp := f.p.isLt
  exact ⟨f.toWord - 2147483648 * f.c.toNat, by unfold ShfliF.toWord; omega⟩
theorem DapF_parts (f : DapF) : ∃ x, f.toWord = x + 2147483648 * f.c.toNat ∧ f.c.toNat ≤ 1 ∧ x ≤ 33521668 := by
  have hc := f.c.isLt; have hd := f.d.isLt; have ha := f.a.isLt; have hp := f.p.isLt
  exact ⟨f.toWord - 2147483648 * f.c.toNat, by unfold DapF.toWord; omega⟩
theorem LmF_parts (f : LmF) : ∃ x, f.toWord = x + 2147483648 * f.c.toNat ∧ f.c.toNat ≤ 1 ∧ x ≤ 33554428 := by
  have hc := f.c.isLt; have hd := f.d.isLt; have ha := f.a.isLt; have hl := f.l.isLt; have hs := f.s.isLt; have ho := f.o.isLt; have hp := f.p.isLt
  exact ⟨f.toWord - 2147483648 * f.c.toNat, by unfold LmF.toWord; omega⟩
theorem StF_parts (f : StF) : ∃ x, f.toWord = x + 2147483648 * f.c.toNat ∧ f.c.toNat ≤ 1 ∧ x ≤ 33523708 := by
  have hc := f.c.isLt; have hd := f.d.isLt; have ha := f.a.isLt; have hs := f.s.isLt; have ho := f.o.isLt; have hp := f.p.isLt
  exact ⟨f.toWord - 2147483648 * f.c.toNat, by unfold StF.toWord; omega⟩
theorem LdfeF_parts (f : LdfeF) : ∃ x, f.toWord = x + 2147483648 * f.c.toNat ∧ f.c.toNat ≤ 1 ∧ x ≤ 33552636 := by
  have hc := f.c.isLt; have hd := f.d.isLt; have ha := f.a.isLt; have hl := f.l.isLt; have ho := f.o.isLt; have hp := f.p.isLt
  exact ⟨f.toWord - 2147483648 * f.c.toNat, by unfold LdfeF.toWord; omega⟩
theorem StefF_parts (f : StefF) : ∃ x, f.toWord = x + 2147483648 * f.c.toNat ∧ f.c.toNat ≤ 1 ∧ x ≤ 33521916 := by
  have hc := f.c.isLt; have hd := f.d.isLt; have ha := f.a.isLt; have ho := f.o.isLt; have hp := f.p.isLt
  exact ⟨f.toWord - 2147483648 * f.c.toNat, by unfold StefF.toWord; omega⟩
theorem SeteF_parts (f : SeteF) : ∃ x, f.toWord = x + 2147483648 * f.c.toNat ∧ f.c.toNat ≤ 1 ∧ x ≤ 1016060 := by
  have hc := f.c.isLt; have ha := f.a.isLt; have ho := f.o.isLt; have hp := f.p.isLt
  exact ⟨f.toWord - 2147483648 * f.c.toNat, by unfold SeteF.toWord; omega⟩
theorem AtomF_parts (f : AtomF) : ∃ x, f.toWord = x + 2147483648 * f.c.toNat ∧ f.c.toNat ≤ 1 ∧ x ≤ 33553455 := by
  have hc := f.c.isLt; have hd := f.d.isLt; have ha := f.a.isLt; have hb := f.b.isLt; have ht := f.t.isLt; have hl := f.l.isLt
  exact ⟨f.toWord - 2147483648 * f.c.toNat, by unfold AtomF.toWord; omega⟩
theorem RedF_parts (f : RedF) : ∃ x, f.toWord = x + 2147483648 * f.c.toNat ∧ f.c.toNat ≤ 1 ∧ x ≤ 1047584 := by
  have hc := f.c.isLt; have ha := f.a.isLt; have hb := f.b.isLt; have ht := f.t.isLt
  exact ⟨f.toWord - 2147483648 * f.c.toNat, by unfold RedF.toWord; omega⟩
theorem FlowF_parts (f : FlowF) : ∃ x, f.toWord = x + 2147483648 * f.c.toNat ∧ f.c.toNat ≤ 1 ∧ x ≤ 33521664 := by
  have hc := f.c.isLt; have hd := f.d.isLt; have ha := f.a.isLt
  exact ⟨f.toWord - 2147483648 * f.c.toNat, by unfold FlowF.toWord; omega⟩
theorem SpawnF_parts (f : SpawnF) : ∃ x, f.toWord = x + 2147483648 * f.c.toNat ∧ f.c.toNat ≤ 1 ∧ x ≤ 33553408 := by
  have hc := f.c.isLt; have hd := f.d.isLt; have ha := f.a.isLt; have hb := f.b.isLt
  exact ⟨f.toWord - 2147483648 * f.c.toNat, by unfold SpawnF.toWord; omega⟩
theorem FenceF_parts (f : FenceF) : ∃ x, f.toWord = x + 2147483648 * f.c.toNat ∧ f.c.toNat ≤ 1 ∧ x ≤ 32507648 := by
  have hc := f.c.isLt; have hd := f.d.isLt; have hs := f.s.isLt
  exact ⟨f.toWord - 2147483648 * f.c.toNat, by unfold FenceF.toWord; omega⟩
theorem WaitwF_parts (f : WaitwF) : ∃ x, f.toWord = x + 2147483648 * f.c.toNat ∧ f.c.toNat ≤ 1 ∧ x ≤ 33522172 := by
  have hc := f.c.isLt; have hd := f.d.isLt; have ha := f.a.isLt; have hs := f.s.isLt; have ho := f.o.isLt; have hp := f.p.isLt
  exact ⟨f.toWord - 2147483648 * f.c.toNat, by unfold WaitwF.toWord; omega⟩
theorem XgF_parts (f : XgF) : ∃ x, f.toWord = x + 2147483648 * f.c.toNat ∧ f.c.toNat ≤ 1 ∧ x ≤ 33423856 := by
  have hc := f.c.isLt; have hs := f.s.isLt; have hg := f.g.isLt
  exact ⟨f.toWord - 2147483648 * f.c.toNat, by unfold XgF.toWord; omega⟩
theorem XlgF_parts (f : XlgF) : ∃ x, f.toWord = x + 2147483648 * f.c.toNat ∧ f.c.toNat ≤ 1 ∧ x ≤ 33546736 := by
  have hc := f.c.isLt; have hs := f.s.isLt; have hl := f.l.isLt; have hg := f.g.isLt
  exact ⟨f.toWord - 2147483648 * f.c.toNat, by unfold XlgF.toWord; omega⟩
theorem MmamF_parts (f : MmamF) : ∃ x, f.toWord = x + 2147483648 * f.c.toNat ∧ f.c.toNat ≤ 1 ∧ x ≤ 33546748 := by
  have hc := f.c.isLt; have hs := f.s.isLt; have hl := f.l.isLt; have hg := f.g.isLt; have ht := f.t.isLt
  exact ⟨f.toWord - 2147483648 * f.c.toNat, by unfold MmamF.toWord; omega⟩
theorem XsF_parts (f : XsF) : ∃ x, f.toWord = x + 2147483648 * f.c.toNat ∧ f.c.toNat ≤ 1 ∧ x ≤ 33423360 := by
  have hc := f.c.isLt; have hs := f.s.isLt
  exact ⟨f.toWord - 2147483648 * f.c.toNat, by unfold XsF.toWord; omega⟩
theorem QpopF_parts (f : QpopF) : ∃ x, f.toWord = x + 2147483648 * f.c.toNat ∧ f.c.toNat ≤ 1 ∧ x ≤ 503 := by
  have hc := f.c.isLt; have hg := f.g.isLt; have hq := f.q.isLt
  exact ⟨f.toWord - 2147483648 * f.c.toNat, by unfold QpopF.toWord; omega⟩
theorem QfreeF_parts (f : QfreeF) : ∃ x, f.toWord = x + 2147483648 * f.c.toNat ∧ f.c.toNat ≤ 1 ∧ x ≤ 7 := by
  have hc := f.c.isLt; have hq := f.q.isLt
  exact ⟨f.toWord - 2147483648 * f.c.toNat, by unfold QfreeF.toWord; omega⟩
theorem BarF_parts (f : BarF) : ∃ x, f.toWord = x + 2147483648 * f.c.toNat ∧ f.c.toNat ≤ 1 ∧ x ≤ 33423375 := by
  have hc := f.c.isLt; have hs := f.s.isLt; have hf := f.f.isLt
  exact ⟨f.toWord - 2147483648 * f.c.toNat, by unfold BarF.toWord; omega⟩
theorem CgF_parts (f : CgF) : ∃ x, f.toWord = x + 2147483648 * f.c.toNat ∧ f.c.toNat ≤ 1 ∧ x ≤ 496 := by
  have hc := f.c.isLt; have hg := f.g.isLt
  exact ⟨f.toWord - 2147483648 * f.c.toNat, by unfold CgF.toWord; omega⟩
theorem SgF_parts (f : SgF) : ∃ x, f.toWord = x + 2147483648 * 0 ∧ 0 ≤ 1 ∧ x ≤ 33423856 := by
  have hs := f.s.isLt; have hg := f.g.isLt
  exact ⟨f.toWord - 2147483648 * 0, by unfold SgF.toWord; omega⟩
theorem SF_parts (f : SF) : ∃ x, f.toWord = x + 2147483648 * 0 ∧ 0 ≤ 1 ∧ x ≤ 33423360 := by
  have hs := f.s.isLt
  exact ⟨f.toWord - 2147483648 * 0, by unfold SF.toWord; omega⟩
theorem DroprF_parts (f : DroprF) : ∃ x, f.toWord = x + 2147483648 * 0 ∧ 0 ≤ 1 ∧ x ≤ 33423375 := by
  have hs := f.s.isLt; have hk := f.k.isLt
  exact ⟨f.toWord - 2147483648 * 0, by unfold DroprF.toWord; omega⟩
theorem PfxArithF_parts (f : PfxArithF) : ∃ x, f.toWord = x + 2147483648 * 0 ∧ 0 ≤ 1 ∧ x ≤ 33550336 := by
  have hk := f.k.isLt; have hr := f.r.isLt; have he := f.e.isLt; have hz := f.z.isLt; have hv := f.v.isLt
  exact ⟨f.toWord - 2147483648 * 0, by unfold PfxArithF.toWord; omega⟩
theorem PfxMemF_parts (f : PfxMemF) : ∃ x, f.toWord = x + 2147483648 * 0 ∧ 0 ≤ 1 ∧ x ≤ 33153024 := by
  have hk := f.k.isLt; have ho := f.o.isLt; have hs := f.s.isLt; have hz := f.z.isLt
  exact ⟨f.toWord - 2147483648 * 0, by unfold PfxMemF.toWord; omega⟩

theorem nop : Statement .nop := 
  parts (b := 0x02000000) (t := 0) (x := 0) (c := 0) rfl rfl (Nat.zero_le 1) (Nat.le_refl 0) rfl rfl rfl
theorem exit : Statement .exit := 
  parts (b := 0x02002000) (t := 0) (x := 0) (c := 0) rfl rfl (Nat.zero_le 1) (Nat.le_refl 0) rfl rfl rfl
theorem yield : Statement .yield := 
  parts (b := 0x02004000) (t := 0) (x := 0) (c := 0) rfl rfl (Nat.zero_le 1) (Nat.le_refl 0) rfl rfl rfl
theorem trapf : Statement .trapf := 
  parts (b := 0x02006000) (t := 0) (x := 0) (c := 0) rfl rfl (Nat.zero_le 1) (Nat.le_refl 0) rfl rfl rfl
theorem trap (f : CtlF) : Statement (.trap f) :=
  let ⟨_, hx, hc, hm⟩ := CtlF_parts f
  parts (b := 0x02008000) (t := f.toWord) rfl hx hc hm rfl rfl rfl
theorem sleep (f : CtlF) : Statement (.sleep f) :=
  let ⟨_, hx, hc, hm⟩ := CtlF_parts f
  parts (b := 0x0200a000) (t := f.toWord) rfl hx hc hm rfl rfl rfl
theorem snap (f : CtlF) : Statement (.snap f) :=
  let ⟨_, hx, hc, hm⟩ := CtlF_parts f
  parts (b := 0x0200c000) (t := f.toWord) rfl hx hc hm rfl rfl rfl
theorem brk (f : CtlF) : Statement (.brk f) :=
  let ⟨_, hx, hc, hm⟩ := CtlF_parts f
  parts (b := 0x0200e000) (t := f.toWord) rfl hx hc hm rfl rfl rfl
theorem br (f : BrF) : Statement (.br f) :=
  let ⟨_, hx, hc, hm⟩ := BrF_parts f
  parts (b := 0x04000000) (t := f.toWord) rfl hx hc hm rfl rfl rfl
theorem call (f : BrF) : Statement (.call f) :=
  let ⟨_, hx, hc, hm⟩ := BrF_parts f
  parts (b := 0x04400000) (t := f.toWord) rfl hx hc hm rfl rfl rfl
theorem brpT (f : BrF) : Statement (.brpT f) :=
  let ⟨_, hx, hc, hm⟩ := BrF_parts f
  parts (b := 0x06000000) (t := f.toWord) rfl hx hc hm rfl rfl rfl
theorem brpF (f : BrF) : Statement (.brpF f) :=
  let ⟨_, hx, hc, hm⟩ := BrF_parts f
  parts (b := 0x06400000) (t := f.toWord) rfl hx hc hm rfl rfl rfl
theorem brpAny (f : BrF) : Statement (.brpAny f) :=
  let ⟨_, hx, hc, hm⟩ := BrF_parts f
  parts (b := 0x06800000) (t := f.toWord) rfl hx hc hm rfl rfl rfl
theorem brpAll (f : BrF) : Statement (.brpAll f) :=
  let ⟨_, hx, hc, hm⟩ := BrF_parts f
  parts (b := 0x06c00000) (t := f.toWord) rfl hx hc hm rfl rfl rfl
theorem brpNone (f : BrF) : Statement (.brpNone f) :=
  let ⟨_, hx, hc, hm⟩ := BrF_parts f
  parts (b := 0x07000000) (t := f.toWord) rfl hx hc hm rfl rfl rfl
theorem jr (f : JrF) : Statement (.jr f) :=
  let ⟨_, hx, hc, hm⟩ := JrF_parts f
  parts (b := 0x08000000) (t := f.toWord) rfl hx hc hm rfl rfl rfl
theorem ret (f : RetF) : Statement (.ret f) :=
  let ⟨_, hx, hc, hm⟩ := RetF_parts f
  parts (b := 0x08000040) (t := f.toWord) rfl hx hc hm rfl rfl rfl
theorem callr (f : JrF) : Statement (.callr f) :=
  let ⟨_, hx, hc, hm⟩ := JrF_parts f
  parts (b := 0x08000080) (t := f.toWord) rfl hx hc hm rfl rfl rfl
theorem ppush (f : PredAF) : Statement (.ppush f) :=
  let ⟨_, hx, hc, hm⟩ := PredAF_parts f
  parts (b := 0x0a000000) (t := f.toWord) rfl hx hc hm rfl rfl rfl
theorem pinv (f : ChainF) : Statement (.pinv f) :=
  let ⟨_, hx, hc, hm⟩ := ChainF_parts f
  parts (b := 0x0a000040) (t := f.toWord) rfl hx hc hm rfl rfl rfl
theorem ppop (f : ChainF) : Statement (.ppop f) :=
  let ⟨_, hx, hc, hm⟩ := ChainF_parts f
  parts (b := 0x0a000080) (t := f.toWord) rfl hx hc hm rfl rfl rfl
theorem pand (f : PredAF) : Statement (.pand f) :=
  let ⟨_, hx, hc, hm⟩ := PredAF_parts f
  parts (b := 0x0a0000c0) (t := f.toWord) rfl hx hc hm rfl rfl rfl
theorem pget (f : PredDF) : Statement (.pget f) :=
  let ⟨_, hx, hc, hm⟩ := PredDF_parts f
  parts (b := 0x0a000100) (t := f.toWord) rfl hx hc hm rfl rfl rfl
theorem pset (f : PredAF) : Statement (.pset f) :=
  let ⟨_, hx, hc, hm⟩ := PredAF_parts f
  parts (b := 0x0a000140) (t := f.toWord) rfl hx hc hm rfl rfl rfl
theorem enrol (f : RejF) : Statement (.enrol f) :=
  let ⟨_, hx, hc, hm⟩ := RejF_parts f
  parts (b := 0x0c000000) (t := f.toWord) rfl hx hc hm rfl rfl rfl
theorem park (f : RejF) : Statement (.park f) :=
  let ⟨_, hx, hc, hm⟩ := RejF_parts f
  parts (b := 0x0c000010) (t := f.toWord) rfl hx hc hm rfl rfl rfl
theorem strike (f : RejF) : Statement (.strike f) :=
  let ⟨_, hx, hc, hm⟩ := RejF_parts f
  parts (b := 0x0c000020) (t := f.toWord) rfl hx hc hm rfl rfl rfl
theorem jmov (f : S2F) : Statement (.jmov f) :=
  let ⟨_, hx, hc, hm⟩ := S2F_parts f
  parts (b := 0x0c000030) (t := f.toWord) rfl hx hc hm rfl rfl rfl
theorem add (f : L3F) : Statement (.add f) :=
  let ⟨_, hx, hc, hm⟩ := L3F_parts f
  parts (b := 0x10000000) (t := f.toWord) rfl hx hc hm rfl rfl rfl
theorem sub (f : L3F) : Statement (.sub f) :=
  let ⟨_, hx, hc, hm⟩ := L3F_parts f
  parts (b := 0x10000040) (t := f.toWord) rfl hx hc hm rfl rfl rfl
theorem mul (f : L3F) : Statement (.mul f) :=
  let ⟨_, hx, hc, hm⟩ := L3F_parts f
  parts (b := 0x10000080) (t := f.toWord) rfl hx hc hm rfl rfl rfl
theorem mulh (f : L3F) : Statement (.mulh f) :=
  let ⟨_, hx, hc, hm⟩ := L3F_parts f
  parts (b := 0x100000c0) (t := f.toWord) rfl hx hc hm rfl rfl rfl
theorem andW (f : L3F) : Statement (.andW f) :=
  let ⟨_, hx, hc, hm⟩ := L3F_parts f
  parts (b := 0x10000100) (t := f.toWord) rfl hx hc hm rfl rfl rfl
theorem orW (f : L3F) : Statement (.orW f) :=
  let ⟨_, hx, hc, hm⟩ := L3F_parts f
  parts (b := 0x10000140) (t := f.toWord) rfl hx hc hm rfl rfl rfl
theorem xorW (f : L3F) : Statement (.xorW f) :=
  let ⟨_, hx, hc, hm⟩ := L3F_parts f
  parts (b := 0x10000180) (t := f.toWord) rfl hx hc hm rfl rfl rfl
theorem andn (f : L3F) : Statement (.andn f) :=
  let ⟨_, hx, hc, hm⟩ := L3F_parts f
  parts (b := 0x100001c0) (t := f.toWord) rfl hx hc hm rfl rfl rfl
theorem shl (f : L3F) : Statement (.shl f) :=
  let ⟨_, hx, hc, hm⟩ := L3F_parts f
  parts (b := 0x10000200) (t := f.toWord) rfl hx hc hm rfl rfl rfl
theorem shr (f : L3F) : Statement (.shr f) :=
  let ⟨_, hx, hc, hm⟩ := L3F_parts f
  parts (b := 0x10000240) (t := f.toWord) rfl hx hc hm rfl rfl rfl
theorem sar (f : L3F) : Statement (.sar f) :=
  let ⟨_, hx, hc, hm⟩ := L3F_parts f
  parts (b := 0x10000280) (t := f.toWord) rfl hx hc hm rfl rfl rfl
theorem rot (f : L3F) : Statement (.rot f) :=
  let ⟨_, hx, hc, hm⟩ := L3F_parts f
  parts (b := 0x100002c0) (t := f.toWord) rfl hx hc hm rfl rfl rfl
theorem minW (f : L3F) : Statement (.minW f) :=
  let ⟨_, hx, hc, hm⟩ := L3F_parts f
  parts (b := 0x10000300) (t := f.toWord) rfl hx hc hm rfl rfl rfl
theorem maxW (f : L3F) : Statement (.maxW f) :=
  let ⟨_, hx, hc, hm⟩ := L3F_parts f
  parts (b := 0x10000340) (t := f.toWord) rfl hx hc hm rfl rfl rfl
theorem sel (f : SelF) : Statement (.sel f) :=
  let ⟨_, hx, hc, hm⟩ := SelF_parts f
  parts (b := 0x10000380) (t := f.toWord) rfl hx hc hm rfl rfl rfl
theorem addsat (f : L3F) : Statement (.addsat f) :=
  let ⟨_, hx, hc, hm⟩ := L3F_parts f
  parts (b := 0x100003c0) (t := f.toWord) rfl hx hc hm rfl rfl rfl
theorem div (f : LongF) : Statement (.div f) :=
  let ⟨_, hx, hc, hm⟩ := LongF_parts f
  parts (b := 0x12000000) (t := f.toWord) rfl hx hc hm rfl rfl rfl
theorem rem (f : LongF) : Statement (.rem f) :=
  let ⟨_, hx, hc, hm⟩ := LongF_parts f
  parts (b := 0x12000040) (t := f.toWord) rfl hx hc hm rfl rfl rfl
theorem mulw (f : L3F) : Statement (.mulw f) :=
  let ⟨_, hx, hc, hm⟩ := L3F_parts f
  parts (b := 0x12000080) (t := f.toWord) rfl hx hc hm rfl rfl rfl
theorem absd (f : L3F) : Statement (.absd f) :=
  let ⟨_, hx, hc, hm⟩ := L3F_parts f
  parts (b := 0x120000c0) (t := f.toWord) rfl hx hc hm rfl rfl rfl
theorem clz (f : UnF) : Statement (.clz f) :=
  let ⟨_, hx, hc, hm⟩ := UnF_parts f
  parts (b := 0x12000100) (t := f.toWord) rfl hx hc hm rfl rfl rfl
theorem ctz (f : UnF) : Statement (.ctz f) :=
  let ⟨_, hx, hc, hm⟩ := UnF_parts f
  parts (b := 0x12000140) (t := f.toWord) rfl hx hc hm rfl rfl rfl
theorem popc (f : UnF) : Statement (.popc f) :=
  let ⟨_, hx, hc, hm⟩ := UnF_parts f
  parts (b := 0x12000180) (t := f.toWord) rfl hx hc hm rfl rfl rfl
theorem brev (f : UnF) : Statement (.brev f) :=
  let ⟨_, hx, hc, hm⟩ := UnF_parts f
  parts (b := 0x120001c0) (t := f.toWord) rfl hx hc hm rfl rfl rfl
theorem absW (f : UnF) : Statement (.absW f) :=
  let ⟨_, hx, hc, hm⟩ := UnF_parts f
  parts (b := 0x12000200) (t := f.toWord) rfl hx hc hm rfl rfl rfl
theorem neg (f : UnF) : Statement (.neg f) :=
  let ⟨_, hx, hc, hm⟩ := UnF_parts f
  parts (b := 0x12000240) (t := f.toWord) rfl hx hc hm rfl rfl rfl
theorem bfx (f : L3NF) : Statement (.bfx f) :=
  let ⟨_, hx, hc, hm⟩ := L3NF_parts f
  parts (b := 0x12000280) (t := f.toWord) rfl hx hc hm rfl rfl rfl
theorem bfi (f : L3NF) : Statement (.bfi f) :=
  let ⟨_, hx, hc, hm⟩ := L3NF_parts f
  parts (b := 0x120002c0) (t := f.toWord) rfl hx hc hm rfl rfl rfl
theorem lea (f : L3F) : Statement (.lea f) :=
  let ⟨_, hx, hc, hm⟩ := L3F_parts f
  parts (b := 0x12000300) (t := f.toWord) rfl hx hc hm rfl rfl rfl
theorem pack (f : L3NF) : Statement (.pack f) :=
  let ⟨_, hx, hc, hm⟩ := L3NF_parts f
  parts (b := 0x12000340) (t := f.toWord) rfl hx hc hm rfl rfl rfl
theorem unpk (f : UnF) : Statement (.unpk f) :=
  let ⟨_, hx, hc, hm⟩ := UnF_parts f
  parts (b := 0x12000380) (t := f.toWord) rfl hx hc hm rfl rfl rfl
theorem swapb (f : UnF) : Statement (.swapb f) :=
  let ⟨_, hx, hc, hm⟩ := UnF_parts f
  parts (b := 0x120003c0) (t := f.toWord) rfl hx hc hm rfl rfl rfl
theorem addi (f : LiF) : Statement (.addi f) :=
  let ⟨_, hx, hc, hm⟩ := LiF_parts f
  parts (b := 0x14000000) (t := f.toWord) rfl hx hc hm rfl rfl rfl
theorem andi (f : LiF) : Statement (.andi f) :=
  let ⟨_, hx, hc, hm⟩ := LiF_parts f
  parts (b := 0x14000001) (t := f.toWord) rfl hx hc hm rfl rfl rfl
theorem ori (f : LiF) : Statement (.ori f) :=
  let ⟨_, hx, hc, hm⟩ := LiF_parts f
  parts (b := 0x14000002) (t := f.toWord) rfl hx hc hm rfl rfl rfl
theorem xori (f : LiF) : Statement (.xori f) :=
  let ⟨_, hx, hc, hm⟩ := LiF_parts f
  parts (b := 0x14000003) (t := f.toWord) rfl hx hc hm rfl rfl rfl
theorem shli (f : LiF) : Statement (.shli f) :=
  let ⟨_, hx, hc, hm⟩ := LiF_parts f
  parts (b := 0x16000000) (t := f.toWord) rfl hx hc hm rfl rfl rfl
theorem shri (f : LiF) : Statement (.shri f) :=
  let ⟨_, hx, hc, hm⟩ := LiF_parts f
  parts (b := 0x16000001) (t := f.toWord) rfl hx hc hm rfl rfl rfl
theorem sari (f : LiF) : Statement (.sari f) :=
  let ⟨_, hx, hc, hm⟩ := LiF_parts f
  parts (b := 0x16000002) (t := f.toWord) rfl hx hc hm rfl rfl rfl
theorem roti (f : LiF) : Statement (.roti f) :=
  let ⟨_, hx, hc, hm⟩ := LiF_parts f
  parts (b := 0x16000003) (t := f.toWord) rfl hx hc hm rfl rfl rfl
theorem icmp (f : CmpF) : Statement (.icmp f) :=
  let ⟨_, hx, hc, hm⟩ := CmpF_parts f
  parts (b := 0x18000000) (t := f.toWord) rfl hx hc hm rfl rfl rfl
theorem icmpp (f : CmpPF) : Statement (.icmpp f) :=
  let ⟨_, hx, hc, hm⟩ := CmpPF_parts f
  parts (b := 0x18000001) (t := f.toWord) rfl hx hc hm rfl rfl rfl
theorem movz (f : MovF) : Statement (.movz f) :=
  let ⟨_, hx, hc, hm⟩ := MovF_parts f
  parts (b := 0x1a000000) (t := f.toWord) rfl hx hc hm rfl rfl rfl
theorem movk (f : MovF) : Statement (.movk f) :=
  let ⟨_, hx, hc, hm⟩ := MovF_parts f
  parts (b := 0x1a000001) (t := f.toWord) rfl hx hc hm rfl rfl rfl
theorem movn (f : MovF) : Statement (.movn f) :=
  let ⟨_, hx, hc, hm⟩ := MovF_parts f
  parts (b := 0x1a000002) (t := f.toWord) rfl hx hc hm rfl rfl rfl
theorem fadd (f : L3F) : Statement (.fadd f) :=
  let ⟨_, hx, hc, hm⟩ := L3F_parts f
  parts (b := 0x20000000) (t := f.toWord) rfl hx hc hm rfl rfl rfl
theorem fsub (f : L3F) : Statement (.fsub f) :=
  let ⟨_, hx, hc, hm⟩ := L3F_parts f
  parts (b := 0x20000040) (t := f.toWord) rfl hx hc hm rfl rfl rfl
theorem fmul (f : L3F) : Statement (.fmul f) :=
  let ⟨_, hx, hc, hm⟩ := L3F_parts f
  parts (b := 0x20000080) (t := f.toWord) rfl hx hc hm rfl rfl rfl
theorem fmin (f : L3F) : Statement (.fmin f) :=
  let ⟨_, hx, hc, hm⟩ := L3F_parts f
  parts (b := 0x200000c0) (t := f.toWord) rfl hx hc hm rfl rfl rfl
theorem fmax (f : L3F) : Statement (.fmax f) :=
  let ⟨_, hx, hc, hm⟩ := L3F_parts f
  parts (b := 0x20000100) (t := f.toWord) rfl hx hc hm rfl rfl rfl
theorem fminnum (f : L3F) : Statement (.fminnum f) :=
  let ⟨_, hx, hc, hm⟩ := L3F_parts f
  parts (b := 0x20000140) (t := f.toWord) rfl hx hc hm rfl rfl rfl
theorem fmaxnum (f : L3F) : Statement (.fmaxnum f) :=
  let ⟨_, hx, hc, hm⟩ := L3F_parts f
  parts (b := 0x20000180) (t := f.toWord) rfl hx hc hm rfl rfl rfl
theorem fsgn (f : L3F) : Statement (.fsgn f) :=
  let ⟨_, hx, hc, hm⟩ := L3F_parts f
  parts (b := 0x200001c0) (t := f.toWord) rfl hx hc hm rfl rfl rfl
theorem fscale (f : L3F) : Statement (.fscale f) :=
  let ⟨_, hx, hc, hm⟩ := L3F_parts f
  parts (b := 0x20000200) (t := f.toWord) rfl hx hc hm rfl rfl rfl
theorem fdot2 (f : L3F) : Statement (.fdot2 f) :=
  let ⟨_, hx, hc, hm⟩ := L3F_parts f
  parts (b := 0x20000240) (t := f.toWord) rfl hx hc hm rfl rfl rfl
theorem fma (f : FmaF) : Statement (.fma f) :=
  let ⟨_, hx, hc, hm⟩ := FmaF_parts f
  parts (b := 0x22000000) (t := f.toWord) rfl hx hc hm rfl rfl rfl
theorem fnma (f : FmaF) : Statement (.fnma f) :=
  let ⟨_, hx, hc, hm⟩ := FmaF_parts f
  parts (b := 0x22000001) (t := f.toWord) rfl hx hc hm rfl rfl rfl
theorem cvtf (f : L3F) : Statement (.cvtf f) :=
  let ⟨_, hx, hc, hm⟩ := L3F_parts f
  parts (b := 0x24000000) (t := f.toWord) rfl hx hc hm rfl rfl rfl
theorem cvtfi (f : L3NF) : Statement (.cvtfi f) :=
  let ⟨_, hx, hc, hm⟩ := L3NF_parts f
  parts (b := 0x24000040) (t := f.toWord) rfl hx hc hm rfl rfl rfl
theorem cvtif (f : L3NF) : Statement (.cvtif f) :=
  let ⟨_, hx, hc, hm⟩ := L3NF_parts f
  parts (b := 0x24000080) (t := f.toWord) rfl hx hc hm rfl rfl rfl
theorem cvtn (f : LongF) : Statement (.cvtn f) :=
  let ⟨_, hx, hc, hm⟩ := LongF_parts f
  parts (b := 0x240000c0) (t := f.toWord) rfl hx hc hm rfl rfl rfl
theorem cvtw (f : L3NF) : Statement (.cvtw f) :=
  let ⟨_, hx, hc, hm⟩ := L3NF_parts f
  parts (b := 0x24000100) (t := f.toWord) rfl hx hc hm rfl rfl rfl
theorem frnd (f : UnF) : Statement (.frnd f) :=
  let ⟨_, hx, hc, hm⟩ := UnF_parts f
  parts (b := 0x24000140) (t := f.toWord) rfl hx hc hm rfl rfl rfl
theorem frcps (f : SpecF) : Statement (.frcps f) :=
  let ⟨_, hx, hc, hm⟩ := SpecF_parts f
  parts (b := 0x26000000) (t := f.toWord) rfl hx hc hm rfl rfl rfl
theorem frsqs (f : SpecF) : Statement (.frsqs f) :=
  let ⟨_, hx, hc, hm⟩ := SpecF_parts f
  parts (b := 0x26000040) (t := f.toWord) rfl hx hc hm rfl rfl rfl
theorem fexp2 (f : SpecF) : Statement (.fexp2 f) :=
  let ⟨_, hx, hc, hm⟩ := SpecF_parts f
  parts (b := 0x26000080) (t := f.toWord) rfl hx hc hm rfl rfl rfl
theorem flog2 (f : SpecF) : Statement (.flog2 f) :=
  let ⟨_, hx, hc, hm⟩ := SpecF_parts f
  parts (b := 0x260000c0) (t := f.toWord) rfl hx hc hm rfl rfl rfl
theorem fsin (f : SpecF) : Statement (.fsin f) :=
  let ⟨_, hx, hc, hm⟩ := SpecF_parts f
  parts (b := 0x26000100) (t := f.toWord) rfl hx hc hm rfl rfl rfl
theorem fcos (f : SpecF) : Statement (.fcos f) :=
  let ⟨_, hx, hc, hm⟩ := SpecF_parts f
  parts (b := 0x26000140) (t := f.toWord) rfl hx hc hm rfl rfl rfl
theorem fcmp (f : CmpF) : Statement (.fcmp f) :=
  let ⟨_, hx, hc, hm⟩ := CmpF_parts f
  parts (b := 0x28000000) (t := f.toWord) rfl hx hc hm rfl rfl rfl
theorem fcmpp (f : CmpPF) : Statement (.fcmpp f) :=
  let ⟨_, hx, hc, hm⟩ := CmpPF_parts f
  parts (b := 0x28000001) (t := f.toWord) rfl hx hc hm rfl rfl rfl
theorem fclass (f : UnF) : Statement (.fclass f) :=
  let ⟨_, hx, hc, hm⟩ := UnF_parts f
  parts (b := 0x28000002) (t := f.toWord) rfl hx hc hm rfl rfl rfl
theorem smov (f : S2F) : Statement (.smov f) :=
  let ⟨_, hx, hc, hm⟩ := S2F_parts f
  parts (b := 0x30000000) (t := f.toWord) rfl hx hc hm rfl rfl rfl
theorem sadd (f : S2F) : Statement (.sadd f) :=
  let ⟨_, hx, hc, hm⟩ := S2F_parts f
  parts (b := 0x30000010) (t := f.toWord) rfl hx hc hm rfl rfl rfl
theorem ssub (f : S2F) : Statement (.ssub f) :=
  let ⟨_, hx, hc, hm⟩ := S2F_parts f
  parts (b := 0x30000020) (t := f.toWord) rfl hx hc hm rfl rfl rfl
theorem smul (f : S2F) : Statement (.smul f) :=
  let ⟨_, hx, hc, hm⟩ := S2F_parts f
  parts (b := 0x30000030) (t := f.toWord) rfl hx hc hm rfl rfl rfl
theorem sand (f : S2F) : Statement (.sand f) :=
  let ⟨_, hx, hc, hm⟩ := S2F_parts f
  parts (b := 0x30000040) (t := f.toWord) rfl hx hc hm rfl rfl rfl
theorem sor (f : S2F) : Statement (.sor f) :=
  let ⟨_, hx, hc, hm⟩ := S2F_parts f
  parts (b := 0x30000050) (t := f.toWord) rfl hx hc hm rfl rfl rfl
theorem sxor (f : S2F) : Statement (.sxor f) :=
  let ⟨_, hx, hc, hm⟩ := S2F_parts f
  parts (b := 0x30000060) (t := f.toWord) rfl hx hc hm rfl rfl rfl
theorem sshl (f : S2F) : Statement (.sshl f) :=
  let ⟨_, hx, hc, hm⟩ := S2F_parts f
  parts (b := 0x30000070) (t := f.toWord) rfl hx hc hm rfl rfl rfl
theorem sshr (f : S2F) : Statement (.sshr f) :=
  let ⟨_, hx, hc, hm⟩ := S2F_parts f
  parts (b := 0x30000080) (t := f.toWord) rfl hx hc hm rfl rfl rfl
theorem smin (f : S2F) : Statement (.smin f) :=
  let ⟨_, hx, hc, hm⟩ := S2F_parts f
  parts (b := 0x30000090) (t := f.toWord) rfl hx hc hm rfl rfl rfl
theorem smax (f : S2F) : Statement (.smax f) :=
  let ⟨_, hx, hc, hm⟩ := S2F_parts f
  parts (b := 0x300000a0) (t := f.toWord) rfl hx hc hm rfl rfl rfl
theorem sdiv (f : S2F) : Statement (.sdiv f) :=
  let ⟨_, hx, hc, hm⟩ := S2F_parts f
  parts (b := 0x300000b0) (t := f.toWord) rfl hx hc hm rfl rfl rfl
theorem srdl (f : S2F) : Statement (.srdl f) :=
  let ⟨_, hx, hc, hm⟩ := S2F_parts f
  parts (b := 0x300000c0) (t := f.toWord) rfl hx hc hm rfl rfl rfl
theorem sbc (f : S2F) : Statement (.sbc f) :=
  let ⟨_, hx, hc, hm⟩ := S2F_parts f
  parts (b := 0x300000d0) (t := f.toWord) rfl hx hc hm rfl rfl rfl
theorem smovi (f : SiF) : Statement (.smovi f) :=
  let ⟨_, hx, hc, hm⟩ := SiF_parts f
  parts (b := 0x32000000) (t := f.toWord) rfl hx hc hm rfl rfl rfl
theorem saddi (f : SiF) : Statement (.saddi f) :=
  let ⟨_, hx, hc, hm⟩ := SiF_parts f
  parts (b := 0x32002000) (t := f.toWord) rfl hx hc hm rfl rfl rfl
theorem sandi (f : SiF) : Statement (.sandi f) :=
  let ⟨_, hx, hc, hm⟩ := SiF_parts f
  parts (b := 0x32004000) (t := f.toWord) rfl hx hc hm rfl rfl rfl
theorem sori (f : SiF) : Statement (.sori f) :=
  let ⟨_, hx, hc, hm⟩ := SiF_parts f
  parts (b := 0x32006000) (t := f.toWord) rfl hx hc hm rfl rfl rfl
theorem sshli (f : SiF) : Statement (.sshli f) :=
  let ⟨_, hx, hc, hm⟩ := SiF_parts f
  parts (b := 0x32008000) (t := f.toWord) rfl hx hc hm rfl rfl rfl
theorem sshri (f : SiF) : Statement (.sshri f) :=
  let ⟨_, hx, hc, hm⟩ := SiF_parts f
  parts (b := 0x3200a000) (t := f.toWord) rfl hx hc hm rfl rfl rfl
theorem mfsr (f : S2F) : Statement (.mfsr f) :=
  let ⟨_, hx, hc, hm⟩ := S2F_parts f
  parts (b := 0x34000000) (t := f.toWord) rfl hx hc hm rfl rfl rfl
theorem mtsr (f : S2F) : Statement (.mtsr f) :=
  let ⟨_, hx, hc, hm⟩ := S2F_parts f
  parts (b := 0x34000010) (t := f.toWord) rfl hx hc hm rfl rfl rfl
theorem sld (f : S2F) : Statement (.sld f) :=
  let ⟨_, hx, hc, hm⟩ := S2F_parts f
  parts (b := 0x34000020) (t := f.toWord) rfl hx hc hm rfl rfl rfl
theorem sst (f : S2F) : Statement (.sst f) :=
  let ⟨_, hx, hc, hm⟩ := S2F_parts f
  parts (b := 0x34000030) (t := f.toWord) rfl hx hc hm rfl rfl rfl
theorem shfl (f : XmvF) : Statement (.shfl f) :=
  let ⟨_, hx, hc, hm⟩ := XmvF_parts f
  parts (b := 0x38000000) (t := f.toWord) rfl hx hc hm rfl rfl rfl
theorem shflx (f : XmvF) : Statement (.shflx f) :=
  let ⟨_, hx, hc, hm⟩ := XmvF_parts f
  parts (b := 0x38000040) (t := f.toWord) rfl hx hc hm rfl rfl rfl
theorem shfli (f : ShfliF) : Statement (.shfli f) :=
  let ⟨_, hx, hc, hm⟩ := ShfliF_parts f
  parts (b := 0x38000082) (t := f.toWord) rfl hx hc hm rfl rfl rfl
theorem bcast (f : DapF) : Statement (.bcast f) :=
  let ⟨_, hx, hc, hm⟩ := DapF_parts f
  parts (b := 0x380000c0) (t := f.toWord) rfl hx hc hm rfl rfl rfl
theorem redl (f : L3NF) : Statement (.redl f) :=
  let ⟨_, hx, hc, hm⟩ := L3NF_parts f
  parts (b := 0x38000100) (t := f.toWord) rfl hx hc hm rfl rfl rfl
theorem scanl (f : L3NF) : Statement (.scanl f) :=
  let ⟨_, hx, hc, hm⟩ := L3NF_parts f
  parts (b := 0x38000140) (t := f.toWord) rfl hx hc hm rfl rfl rfl
theorem ballot (f : UnF) : Statement (.ballot f) :=
  let ⟨_, hx, hc, hm⟩ := UnF_parts f
  parts (b := 0x3a000000) (t := f.toWord) rfl hx hc hm rfl rfl rfl
theorem vany (f : UnF) : Statement (.vany f) :=
  let ⟨_, hx, hc, hm⟩ := UnF_parts f
  parts (b := 0x3a000040) (t := f.toWord) rfl hx hc hm rfl rfl rfl
theorem vall (f : UnF) : Statement (.vall f) :=
  let ⟨_, hx, hc, hm⟩ := UnF_parts f
  parts (b := 0x3a000080) (t := f.toWord) rfl hx hc hm rfl rfl rfl
theorem matchL (f : UnF) : Statement (.matchL f) :=
  let ⟨_, hx, hc, hm⟩ := UnF_parts f
  parts (b := 0x3a0000c0) (t := f.toWord) rfl hx hc hm rfl rfl rfl
theorem matchN (f : UnF) : Statement (.matchN f) :=
  let ⟨_, hx, hc, hm⟩ := UnF_parts f
  parts (b := 0x3a000100) (t := f.toWord) rfl hx hc hm rfl rfl rfl
theorem popl (f : UnF) : Statement (.popl f) :=
  let ⟨_, hx, hc, hm⟩ := UnF_parts f
  parts (b := 0x3a000140) (t := f.toWord) rfl hx hc hm rfl rfl rfl
theorem ld (f : LmF) : Statement (.ld f) :=
  let ⟨_, hx, hc, hm⟩ := LmF_parts f
  parts (b := 0x40000000) (t := f.toWord) rfl hx hc hm rfl rfl rfl
theorem ldsx (f : LmF) : Statement (.ldsx f) :=
  let ⟨_, hx, hc, hm⟩ := LmF_parts f
  parts (b := 0x40000001) (t := f.toWord) rfl hx hc hm rfl rfl rfl
theorem ldnm (f : LmF) : Statement (.ldnm f) :=
  let ⟨_, hx, hc, hm⟩ := LmF_parts f
  parts (b := 0x40000002) (t := f.toWord) rfl hx hc hm rfl rfl rfl
theorem st (f : StF) : Statement (.st f) :=
  let ⟨_, hx, hc, hm⟩ := StF_parts f
  parts (b := 0x42000000) (t := f.toWord) rfl hx hc hm rfl rfl rfl
theorem stnm (f : StF) : Statement (.stnm f) :=
  let ⟨_, hx, hc, hm⟩ := StF_parts f
  parts (b := 0x42000001) (t := f.toWord) rfl hx hc hm rfl rfl rfl
theorem lds (f : LmF) : Statement (.lds f) :=
  let ⟨_, hx, hc, hm⟩ := LmF_parts f
  parts (b := 0x44000000) (t := f.toWord) rfl hx hc hm rfl rfl rfl
theorem sts (f : StF) : Statement (.sts f) :=
  let ⟨_, hx, hc, hm⟩ := StF_parts f
  parts (b := 0x44000001) (t := f.toWord) rfl hx hc hm rfl rfl rfl
theorem ldw (f : LmF) : Statement (.ldw f) :=
  let ⟨_, hx, hc, hm⟩ := LmF_parts f
  parts (b := 0x44000002) (t := f.toWord) rfl hx hc hm rfl rfl rfl
theorem stw (f : StF) : Statement (.stw f) :=
  let ⟨_, hx, hc, hm⟩ := StF_parts f
  parts (b := 0x44000003) (t := f.toWord) rfl hx hc hm rfl rfl rfl
theorem ldfe (f : LdfeF) : Statement (.ldfe f) :=
  let ⟨_, hx, hc, hm⟩ := LdfeF_parts f
  parts (b := 0x46000300) (t := f.toWord) rfl hx hc hm rfl rfl rfl
theorem stef (f : StefF) : Statement (.stef f) :=
  let ⟨_, hx, hc, hm⟩ := StefF_parts f
  parts (b := 0x46000301) (t := f.toWord) rfl hx hc hm rfl rfl rfl
theorem ldff (f : LdfeF) : Statement (.ldff f) :=
  let ⟨_, hx, hc, hm⟩ := LdfeF_parts f
  parts (b := 0x46000302) (t := f.toWord) rfl hx hc hm rfl rfl rfl
theorem sete (f : SeteF) : Statement (.sete f) :=
  let ⟨_, hx, hc, hm⟩ := SeteF_parts f
  parts (b := 0x46000303) (t := f.toWord) rfl hx hc hm rfl rfl rfl
theorem ldr (f : LmF) : Statement (.ldr f) :=
  let ⟨_, hx, hc, hm⟩ := LmF_parts f
  parts (b := 0x48000000) (t := f.toWord) rfl hx hc hm rfl rfl rfl
theorem ldrna (f : LmF) : Statement (.ldrna f) :=
  let ⟨_, hx, hc, hm⟩ := LmF_parts f
  parts (b := 0x48000001) (t := f.toWord) rfl hx hc hm rfl rfl rfl
theorem ldp (f : LmF) : Statement (.ldp f) :=
  let ⟨_, hx, hc, hm⟩ := LmF_parts f
  parts (b := 0x4a000000) (t := f.toWord) rfl hx hc hm rfl rfl rfl
theorem stp (f : StF) : Statement (.stp f) :=
  let ⟨_, hx, hc, hm⟩ := StF_parts f
  parts (b := 0x4a000001) (t := f.toWord) rfl hx hc hm rfl rfl rfl
theorem atomAdd (f : AtomF) : Statement (.atomAdd f) :=
  let ⟨_, hx, hc, hm⟩ := AtomF_parts f
  parts (b := 0x4c000000) (t := f.toWord) rfl hx hc hm rfl rfl rfl
theorem atomFadd (f : AtomF) : Statement (.atomFadd f) :=
  let ⟨_, hx, hc, hm⟩ := AtomF_parts f
  parts (b := 0x4c000040) (t := f.toWord) rfl hx hc hm rfl rfl rfl
theorem atomMin (f : AtomF) : Statement (.atomMin f) :=
  let ⟨_, hx, hc, hm⟩ := AtomF_parts f
  parts (b := 0x4c000080) (t := f.toWord) rfl hx hc hm rfl rfl rfl
theorem atomMax (f : AtomF) : Statement (.atomMax f) :=
  let ⟨_, hx, hc, hm⟩ := AtomF_parts f
  parts (b := 0x4c0000c0) (t := f.toWord) rfl hx hc hm rfl rfl rfl
theorem atomAnd (f : AtomF) : Statement (.atomAnd f) :=
  let ⟨_, hx, hc, hm⟩ := AtomF_parts f
  parts (b := 0x4c000100) (t := f.toWord) rfl hx hc hm rfl rfl rfl
theorem atomOr (f : AtomF) : Statement (.atomOr f) :=
  let ⟨_, hx, hc, hm⟩ := AtomF_parts f
  parts (b := 0x4c000140) (t := f.toWord) rfl hx hc hm rfl rfl rfl
theorem atomXor (f : AtomF) : Statement (.atomXor f) :=
  let ⟨_, hx, hc, hm⟩ := AtomF_parts f
  parts (b := 0x4c000180) (t := f.toWord) rfl hx hc hm rfl rfl rfl
theorem atomXchg (f : AtomF) : Statement (.atomXchg f) :=
  let ⟨_, hx, hc, hm⟩ := AtomF_parts f
  parts (b := 0x4c0001c0) (t := f.toWord) rfl hx hc hm rfl rfl rfl
theorem atomCas (f : AtomF) : Statement (.atomCas f) :=
  let ⟨_, hx, hc, hm⟩ := AtomF_parts f
  parts (b := 0x4c000200) (t := f.toWord) rfl hx hc hm rfl rfl rfl
theorem atomInc (f : AtomF) : Statement (.atomInc f) :=
  let ⟨_, hx, hc, hm⟩ := AtomF_parts f
  parts (b := 0x4c000240) (t := f.toWord) rfl hx hc hm rfl rfl rfl
theorem atomDec (f : AtomF) : Statement (.atomDec f) :=
  let ⟨_, hx, hc, hm⟩ := AtomF_parts f
  parts (b := 0x4c000280) (t := f.toWord) rfl hx hc hm rfl rfl rfl
theorem atomFmin (f : AtomF) : Statement (.atomFmin f) :=
  let ⟨_, hx, hc, hm⟩ := AtomF_parts f
  parts (b := 0x4c0002c0) (t := f.toWord) rfl hx hc hm rfl rfl rfl
theorem atomFmax (f : AtomF) : Statement (.atomFmax f) :=
  let ⟨_, hx, hc, hm⟩ := AtomF_parts f
  parts (b := 0x4c000300) (t := f.toWord) rfl hx hc hm rfl rfl rfl
theorem atomFaddComb (f : AtomF) : Statement (.atomFaddComb f) :=
  let ⟨_, hx, hc, hm⟩ := AtomF_parts f
  parts (b := 0x4c000340) (t := f.toWord) rfl hx hc hm rfl rfl rfl
theorem redAdd (f : RedF) : Statement (.redAdd f) :=
  let ⟨_, hx, hc, hm⟩ := RedF_parts f
  parts (b := 0x4e000000) (t := f.toWord) rfl hx hc hm rfl rfl rfl
theorem redFadd (f : RedF) : Statement (.redFadd f) :=
  let ⟨_, hx, hc, hm⟩ := RedF_parts f
  parts (b := 0x4e000040) (t := f.toWord) rfl hx hc hm rfl rfl rfl
theorem redMin (f : RedF) : Statement (.redMin f) :=
  let ⟨_, hx, hc, hm⟩ := RedF_parts f
  parts (b := 0x4e000080) (t := f.toWord) rfl hx hc hm rfl rfl rfl
theorem redMax (f : RedF) : Statement (.redMax f) :=
  let ⟨_, hx, hc, hm⟩ := RedF_parts f
  parts (b := 0x4e0000c0) (t := f.toWord) rfl hx hc hm rfl rfl rfl
theorem redAnd (f : RedF) : Statement (.redAnd f) :=
  let ⟨_, hx, hc, hm⟩ := RedF_parts f
  parts (b := 0x4e000100) (t := f.toWord) rfl hx hc hm rfl rfl rfl
theorem redOr (f : RedF) : Statement (.redOr f) :=
  let ⟨_, hx, hc, hm⟩ := RedF_parts f
  parts (b := 0x4e000140) (t := f.toWord) rfl hx hc hm rfl rfl rfl
theorem redXor (f : RedF) : Statement (.redXor f) :=
  let ⟨_, hx, hc, hm⟩ := RedF_parts f
  parts (b := 0x4e000180) (t := f.toWord) rfl hx hc hm rfl rfl rfl
theorem redInc (f : RedF) : Statement (.redInc f) :=
  let ⟨_, hx, hc, hm⟩ := RedF_parts f
  parts (b := 0x4e000240) (t := f.toWord) rfl hx hc hm rfl rfl rfl
theorem redDec (f : RedF) : Statement (.redDec f) :=
  let ⟨_, hx, hc, hm⟩ := RedF_parts f
  parts (b := 0x4e000280) (t := f.toWord) rfl hx hc hm rfl rfl rfl
theorem redFmin (f : RedF) : Statement (.redFmin f) :=
  let ⟨_, hx, hc, hm⟩ := RedF_parts f
  parts (b := 0x4e0002c0) (t := f.toWord) rfl hx hc hm rfl rfl rfl
theorem redFmax (f : RedF) : Statement (.redFmax f) :=
  let ⟨_, hx, hc, hm⟩ := RedF_parts f
  parts (b := 0x4e000300) (t := f.toWord) rfl hx hc hm rfl rfl rfl
theorem redFaddComb (f : RedF) : Statement (.redFaddComb f) :=
  let ⟨_, hx, hc, hm⟩ := RedF_parts f
  parts (b := 0x4e000340) (t := f.toWord) rfl hx hc hm rfl rfl rfl
theorem migr (f : FlowF) : Statement (.migr f) :=
  let ⟨_, hx, hc, hm⟩ := FlowF_parts f
  parts (b := 0x50000000) (t := f.toWord) rfl hx hc hm rfl rfl rfl
theorem spawn (f : SpawnF) : Statement (.spawn f) :=
  let ⟨_, hx, hc, hm⟩ := SpawnF_parts f
  parts (b := 0x50000040) (t := f.toWord) rfl hx hc hm rfl rfl rfl
theorem homeq (f : FlowF) : Statement (.homeq f) :=
  let ⟨_, hx, hc, hm⟩ := FlowF_parts f
  parts (b := 0x50000080) (t := f.toWord) rfl hx hc hm rfl rfl rfl
theorem fence (f : FenceF) : Statement (.fence f) :=
  let ⟨_, hx, hc, hm⟩ := FenceF_parts f
  parts (b := 0x52000000) (t := f.toWord) rfl hx hc hm rfl rfl rfl
theorem waitw (f : WaitwF) : Statement (.waitw f) :=
  let ⟨_, hx, hc, hm⟩ := WaitwF_parts f
  parts (b := 0x52000203) (t := f.toWord) rfl hx hc hm rfl rfl rfl
theorem send (f : XgF) : Statement (.send f) :=
  let ⟨_, hx, hc, hm⟩ := XgF_parts f
  parts (b := 0x54000000) (t := f.toWord) rfl hx hc hm rfl rfl rfl
theorem recvp (f : XgF) : Statement (.recvp f) :=
  let ⟨_, hx, hc, hm⟩ := XgF_parts f
  parts (b := 0x54000200) (t := f.toWord) rfl hx hc hm rfl rfl rfl
theorem recvw (f : XgF) : Statement (.recvw f) :=
  let ⟨_, hx, hc, hm⟩ := XgF_parts f
  parts (b := 0x54000400) (t := f.toWord) rfl hx hc hm rfl rfl rfl
theorem recvwTest (f : XgF) : Statement (.recvwTest f) :=
  let ⟨_, hx, hc, hm⟩ := XgF_parts f
  parts (b := 0x54000401) (t := f.toWord) rfl hx hc hm rfl rfl rfl
theorem probe (f : XgF) : Statement (.probe f) :=
  let ⟨_, hx, hc, hm⟩ := XgF_parts f
  parts (b := 0x54000600) (t := f.toWord) rfl hx hc hm rfl rfl rfl
theorem mma (f : XlgF) : Statement (.mma f) :=
  let ⟨_, hx, hc, hm⟩ := XlgF_parts f
  parts (b := 0x58000000) (t := f.toWord) rfl hx hc hm rfl rfl rfl
theorem mmamCausal (f : XlgF) : Statement (.mmamCausal f) :=
  let ⟨_, hx, hc, hm⟩ := XlgF_parts f
  parts (b := 0x58000200) (t := f.toWord) rfl hx hc hm rfl rfl rfl
theorem mmamTree (f : MmamF) : Statement (.mmamTree f) :=
  let ⟨_, hx, hc, hm⟩ := MmamF_parts f
  parts (b := 0x58000201) (t := f.toWord) rfl hx hc hm rfl rfl rfl
theorem accz (f : XlgF) : Statement (.accz f) :=
  let ⟨_, hx, hc, hm⟩ := XlgF_parts f
  parts (b := 0x5a000000) (t := f.toWord) rfl hx hc hm rfl rfl rfl
theorem accrd (f : XlgF) : Statement (.accrd f) :=
  let ⟨_, hx, hc, hm⟩ := XlgF_parts f
  parts (b := 0x5a000200) (t := f.toWord) rfl hx hc hm rfl rfl rfl
theorem accwr (f : XlgF) : Statement (.accwr f) :=
  let ⟨_, hx, hc, hm⟩ := XlgF_parts f
  parts (b := 0x5a000400) (t := f.toWord) rfl hx hc hm rfl rfl rfl
theorem wbld (f : XlgF) : Statement (.wbld f) :=
  let ⟨_, hx, hc, hm⟩ := XlgF_parts f
  parts (b := 0x5a000600) (t := f.toWord) rfl hx hc hm rfl rfl rfl
theorem wbdrop (f : XlgF) : Statement (.wbdrop f) :=
  let ⟨_, hx, hc, hm⟩ := XlgF_parts f
  parts (b := 0x5a000800) (t := f.toWord) rfl hx hc hm rfl rfl rfl
theorem tmset (f : XlgF) : Statement (.tmset f) :=
  let ⟨_, hx, hc, hm⟩ := XlgF_parts f
  parts (b := 0x5a000a00) (t := f.toWord) rfl hx hc hm rfl rfl rfl
theorem mwait (f : XsF) : Statement (.mwait f) :=
  let ⟨_, hx, hc, hm⟩ := XsF_parts f
  parts (b := 0x5a000c00) (t := f.toWord) rfl hx hc hm rfl rfl rfl
theorem mwaitThru (f : XgF) : Statement (.mwaitThru f) :=
  let ⟨_, hx, hc, hm⟩ := XgF_parts f
  parts (b := 0x5a000c01) (t := f.toWord) rfl hx hc hm rfl rfl rfl
theorem post (f : XlgF) : Statement (.post f) :=
  let ⟨_, hx, hc, hm⟩ := XlgF_parts f
  parts (b := 0x5c000000) (t := f.toWord) rfl hx hc hm rfl rfl rfl
theorem tcopy (f : XlgF) : Statement (.tcopy f) :=
  let ⟨_, hx, hc, hm⟩ := XlgF_parts f
  parts (b := 0x5c000200) (t := f.toWord) rfl hx hc hm rfl rfl rfl
theorem layout (f : XlgF) : Statement (.layout f) :=
  let ⟨_, hx, hc, hm⟩ := XlgF_parts f
  parts (b := 0x5c000400) (t := f.toWord) rfl hx hc hm rfl rfl rfl
theorem mcast (f : XlgF) : Statement (.mcast f) :=
  let ⟨_, hx, hc, hm⟩ := XlgF_parts f
  parts (b := 0x5c000600) (t := f.toWord) rfl hx hc hm rfl rfl rfl
theorem cpoll (f : XgF) : Statement (.cpoll f) :=
  let ⟨_, hx, hc, hm⟩ := XgF_parts f
  parts (b := 0x5e000000) (t := f.toWord) rfl hx hc hm rfl rfl rfl
theorem cwait (f : XgF) : Statement (.cwait f) :=
  let ⟨_, hx, hc, hm⟩ := XgF_parts f
  parts (b := 0x5e000200) (t := f.toWord) rfl hx hc hm rfl rfl rfl
theorem qpop (f : QpopF) : Statement (.qpop f) :=
  let ⟨_, hx, hc, hm⟩ := QpopF_parts f
  parts (b := 0x5e000400) (t := f.toWord) rfl hx hc hm rfl rfl rfl
theorem qfree (f : QfreeF) : Statement (.qfree f) :=
  let ⟨_, hx, hc, hm⟩ := QfreeF_parts f
  parts (b := 0x5e000600) (t := f.toWord) rfl hx hc hm rfl rfl rfl
theorem bar (f : BarF) : Statement (.bar f) :=
  let ⟨_, hx, hc, hm⟩ := BarF_parts f
  parts (b := 0x60000000) (t := f.toWord) rfl hx hc hm rfl rfl rfl
theorem bara (f : BarF) : Statement (.bara f) :=
  let ⟨_, hx, hc, hm⟩ := BarF_parts f
  parts (b := 0x60000200) (t := f.toWord) rfl hx hc hm rfl rfl rfl
theorem barw (f : BarF) : Statement (.barw f) :=
  let ⟨_, hx, hc, hm⟩ := BarF_parts f
  parts (b := 0x60000400) (t := f.toWord) rfl hx hc hm rfl rfl rfl
theorem bexp (f : XsF) : Statement (.bexp f) :=
  let ⟨_, hx, hc, hm⟩ := XsF_parts f
  parts (b := 0x60000600) (t := f.toWord) rfl hx hc hm rfl rfl rfl
theorem barb (f : XsF) : Statement (.barb f) :=
  let ⟨_, hx, hc, hm⟩ := XsF_parts f
  parts (b := 0x60000800) (t := f.toWord) rfl hx hc hm rfl rfl rfl
theorem tempo (f : ChainF) : Statement (.tempo f) :=
  let ⟨_, hx, hc, hm⟩ := ChainF_parts f
  parts (b := 0x60000a00) (t := f.toWord) rfl hx hc hm rfl rfl rfl
theorem tempoOr (f : CgF) : Statement (.tempoOr f) :=
  let ⟨_, hx, hc, hm⟩ := CgF_parts f
  parts (b := 0x60000a01) (t := f.toWord) rfl hx hc hm rfl rfl rfl
theorem gqry (f : XgF) : Statement (.gqry f) :=
  let ⟨_, hx, hc, hm⟩ := XgF_parts f
  parts (b := 0x62000000) (t := f.toWord) rfl hx hc hm rfl rfl rfl
theorem wopen (f : XgF) : Statement (.wopen f) :=
  let ⟨_, hx, hc, hm⟩ := XgF_parts f
  parts (b := 0x62000200) (t := f.toWord) rfl hx hc hm rfl rfl rfl
theorem wdet (f : ChainF) : Statement (.wdet f) :=
  let ⟨_, hx, hc, hm⟩ := ChainF_parts f
  parts (b := 0x62000400) (t := f.toWord) rfl hx hc hm rfl rfl rfl
theorem tret (f : SgF) : Statement (.tret f) :=
  let ⟨_, hx, hc, hm⟩ := SgF_parts f
  parts (b := 0x70000000) (t := f.toWord) rfl hx hc hm rfl rfl rfl
theorem xflt (f : SgF) : Statement (.xflt f) :=
  let ⟨_, hx, hc, hm⟩ := SgF_parts f
  parts (b := 0x70000200) (t := f.toWord) rfl hx hc hm rfl rfl rfl
theorem replay (f : SgF) : Statement (.replay f) :=
  let ⟨_, hx, hc, hm⟩ := SgF_parts f
  parts (b := 0x70000400) (t := f.toWord) rfl hx hc hm rfl rfl rfl
theorem pinval (f : SF) : Statement (.pinval f) :=
  let ⟨_, hx, hc, hm⟩ := SF_parts f
  parts (b := 0x70000600) (t := f.toWord) rfl hx hc hm rfl rfl rfl
theorem dropr (f : DroprF) : Statement (.dropr f) :=
  let ⟨_, hx, hc, hm⟩ := DroprF_parts f
  parts (b := 0x70000800) (t := f.toWord) rfl hx hc hm rfl rfl rfl
theorem ctxsw (f : SgF) : Statement (.ctxsw f) :=
  let ⟨_, hx, hc, hm⟩ := SgF_parts f
  parts (b := 0x70000a00) (t := f.toWord) rfl hx hc hm rfl rfl rfl
theorem halt : Statement .halt := 
  parts (b := 0x70000c00) (t := 0) (x := 0) (c := 0) rfl rfl (Nat.zero_le 1) (Nat.le_refl 0) rfl rfl rfl
theorem prefixArith (f : PfxArithF) : Statement (.prefixArith f) :=
  let ⟨_, hx, hc, hm⟩ := PfxArithF_parts f
  parts (b := 0x7e000000) (t := f.toWord) rfl hx hc hm rfl rfl rfl
theorem prefixMemory (f : PfxMemF) : Statement (.prefixMemory f) :=
  let ⟨_, hx, hc, hm⟩ := PfxMemF_parts f
  parts (b := 0x7e000000) (t := f.toWord) rfl hx hc hm rfl rfl rfl
theorem trapvSeth (v : Word) : Statement (.trapvSeth v) := fun _ h => nomatch h
theorem trapvView (v : Word) : Statement (.trapvView v) := fun _ h => nomatch h
theorem trapvSetpc (v : Word) : Statement (.trapvSetpc v) := fun _ h => nomatch h
theorem trapvRet : Statement .trapvRet := fun _ h => nomatch h
theorem lookaheadResultDelivery : Statement .lookaheadResultDelivery := fun _ h => nomatch h
theorem takeTrap : Statement .takeTrap := fun _ h => nomatch h
theorem knightDeparture : Statement .knightDeparture := fun _ h => nomatch h
theorem knightArrival : Statement .knightArrival := fun _ h => nomatch h
theorem overflowRecordReload : Statement .overflowRecordReload := fun _ h => nomatch h
theorem spawnMessageSend : Statement .spawnMessageSend := fun _ h => nomatch h
theorem spawnRecordArrival : Statement .spawnRecordArrival := fun _ h => nomatch h
theorem exitDrainComplete : Statement .exitDrainComplete := fun _ h => nomatch h
theorem sleepDeadline : Statement .sleepDeadline := fun _ h => nomatch h
theorem feWaitingAccess : Statement .feWaitingAccess := fun _ h => nomatch h
theorem permissionProbe : Statement .permissionProbe := fun _ h => nomatch h
theorem permissionProbeReply : Statement .permissionProbeReply := fun _ h => nomatch h
theorem remoteRead : Statement .remoteRead := fun _ h => nomatch h
theorem lineFill : Statement .lineFill := fun _ h => nomatch h
theorem windowRead : Statement .windowRead := fun _ h => nomatch h
theorem readDataResponse : Statement .readDataResponse := fun _ h => nomatch h
theorem writeRequest : Statement .writeRequest := fun _ h => nomatch h
theorem windowWrite : Statement .windowWrite := fun _ h => nomatch h
theorem atomicRequest : Statement .atomicRequest := fun _ h => nomatch h
theorem watchRequest : Statement .watchRequest := fun _ h => nomatch h
theorem ackResponse : Statement .ackResponse := fun _ h => nomatch h
theorem sideLogRegistration : Statement .sideLogRegistration := fun _ h => nomatch h
theorem logpendSet : Statement .logpendSet := fun _ h => nomatch h
theorem logpendClear : Statement .logpendClear := fun _ h => nomatch h
theorem directoryQuery : Statement .directoryQuery := fun _ h => nomatch h
theorem directoryQueryReply : Statement .directoryQueryReply := fun _ h => nomatch h
theorem sealAtHome : Statement .sealAtHome := fun _ h => nomatch h
theorem unsealAtHome : Statement .unsealAtHome := fun _ h => nomatch h
theorem sealAnswer : Statement .sealAnswer := fun _ h => nomatch h
theorem tokenReturn : Statement .tokenReturn := fun _ h => nomatch h
theorem pageGive : Statement .pageGive := fun _ h => nomatch h
theorem mapFrame : Statement .mapFrame := fun _ h => nomatch h
theorem unmapFrame : Statement .unmapFrame := fun _ h => nomatch h
theorem pageWithdraw : Statement .pageWithdraw := fun _ h => nomatch h
theorem placementTableInstall : Statement .placementTableInstall := fun _ h => nomatch h
theorem homeChangeForward : Statement .homeChangeForward := fun _ h => nomatch h
theorem drainMarkerSend : Statement .drainMarkerSend := fun _ h => nomatch h
theorem homeChangeMarker : Statement .homeChangeMarker := fun _ h => nomatch h
theorem tierMoveStart : Statement .tierMoveStart := fun _ h => nomatch h
theorem tierMoveLineCopy : Statement .tierMoveLineCopy := fun _ h => nomatch h
theorem matrixOpAccept : Statement .matrixOpAccept := fun _ h => nomatch h
theorem matrixOpGrant : Statement .matrixOpGrant := fun _ h => nomatch h
theorem matrixOpComplete : Statement .matrixOpComplete := fun _ h => nomatch h
theorem queueCreate : Statement .queueCreate := fun _ h => nomatch h
theorem queuePause : Statement .queuePause := fun _ h => nomatch h
theorem queueResume : Statement .queueResume := fun _ h => nomatch h
theorem queueReset : Statement .queueReset := fun _ h => nomatch h
theorem queueDestroy : Statement .queueDestroy := fun _ h => nomatch h
theorem queueNotice : Statement .queueNotice := fun _ h => nomatch h
theorem packetConsume : Statement .packetConsume := fun _ h => nomatch h
theorem nodeComplete : Statement .nodeComplete := fun _ h => nomatch h
theorem completionRecordWrite : Statement .completionRecordWrite := fun _ h => nomatch h
theorem ringRegister : Statement .ringRegister := fun _ h => nomatch h
theorem postPublish : Statement .postPublish := fun _ h => nomatch h
theorem cwaitTimeout : Statement .cwaitTimeout := fun _ h => nomatch h
theorem engineJobAccept : Statement .engineJobAccept := fun _ h => nomatch h
theorem engineJobStart : Statement .engineJobStart := fun _ h => nomatch h
theorem engineGranule : Statement .engineGranule := fun _ h => nomatch h
theorem engineJobEnd : Statement .engineJobEnd := fun _ h => nomatch h
theorem stagingGrantWithdraw : Statement .stagingGrantWithdraw := fun _ h => nomatch h
theorem distributionStart : Statement .distributionStart := fun _ h => nomatch h
theorem crewPlacement : Statement .crewPlacement := fun _ h => nomatch h
theorem crewStart : Statement .crewStart := fun _ h => nomatch h
theorem bindFill : Statement .bindFill := fun _ h => nomatch h
theorem roamingThreadCreate : Statement .roamingThreadCreate := fun _ h => nomatch h
theorem stealRequest : Statement .stealRequest := fun _ h => nomatch h
theorem stealReply : Statement .stealReply := fun _ h => nomatch h
theorem crewRetire : Statement .crewRetire := fun _ h => nomatch h
theorem kernelEntryClear : Statement .kernelEntryClear := fun _ h => nomatch h
theorem groupEntryWrite : Statement .groupEntryWrite := fun _ h => nomatch h
theorem gangReserve : Statement .gangReserve := fun _ h => nomatch h
theorem gangReserveAnswer : Statement .gangReserveAnswer := fun _ h => nomatch h
theorem gangCommit : Statement .gangCommit := fun _ h => nomatch h
theorem gangRelease : Statement .gangRelease := fun _ h => nomatch h
theorem windowOpen : Statement .windowOpen := fun _ h => nomatch h
theorem windowDeparture : Statement .windowDeparture := fun _ h => nomatch h
theorem windowOpenReply : Statement .windowOpenReply := fun _ h => nomatch h
theorem barrierArrival : Statement .barrierArrival := fun _ h => nomatch h
theorem barrierRelease : Statement .barrierRelease := fun _ h => nomatch h
theorem tempoArrival : Statement .tempoArrival := fun _ h => nomatch h
theorem tempoRelease : Statement .tempoRelease := fun _ h => nomatch h
theorem tempoPark : Statement .tempoPark := fun _ h => nomatch h
theorem contextCreate : Statement .contextCreate := fun _ h => nomatch h
theorem contextStart : Statement .contextStart := fun _ h => nomatch h
theorem contextStop : Statement .contextStop := fun _ h => nomatch h
theorem contextResume : Statement .contextResume := fun _ h => nomatch h
theorem contextDestroy : Statement .contextDestroy := fun _ h => nomatch h
theorem teardown : Statement .teardown := fun _ h => nomatch h
theorem flushMarker : Statement .flushMarker := fun _ h => nomatch h
theorem teardownComplete : Statement .teardownComplete := fun _ h => nomatch h
theorem partitionWrite : Statement .partitionWrite := fun _ h => nomatch h
theorem apertureMap : Statement .apertureMap := fun _ h => nomatch h
theorem sendMatrixWrite : Statement .sendMatrixWrite := fun _ h => nomatch h
theorem schedulerDecision : Statement .schedulerDecision := fun _ h => nomatch h
theorem quantumExpiry : Statement .quantumExpiry := fun _ h => nomatch h
theorem castlingComplete : Statement .castlingComplete := fun _ h => nomatch h
theorem spillStart : Statement .spillStart := fun _ h => nomatch h
theorem spillComplete : Statement .spillComplete := fun _ h => nomatch h
theorem fillComplete : Statement .fillComplete := fun _ h => nomatch h
theorem castlingCoordination : Statement .castlingCoordination := fun _ h => nomatch h
theorem faultRecordWrite : Statement .faultRecordWrite := fun _ h => nomatch h
theorem firmwareRequest : Statement .firmwareRequest := fun _ h => nomatch h
theorem frameRoute : Statement .frameRoute := fun _ h => nomatch h
theorem uetPacketSend : Statement .uetPacketSend := fun _ h => nomatch h
theorem uetPacketReceive : Statement .uetPacketReceive := fun _ h => nomatch h
theorem portUnreachable : Statement .portUnreachable := fun _ h => nomatch h
theorem chipTableWrite : Statement .chipTableWrite := fun _ h => nomatch h
theorem hostBar2Access : Statement .hostBar2Access := fun _ h => nomatch h
theorem linkEnable : Statement .linkEnable := fun _ h => nomatch h
theorem linkDisable : Statement .linkDisable := fun _ h => nomatch h
theorem linkTrained : Statement .linkTrained := fun _ h => nomatch h
theorem linkTrainingFailed : Statement .linkTrainingFailed := fun _ h => nomatch h
theorem linkRetrain : Statement .linkRetrain := fun _ h => nomatch h
theorem linkRetryRequest : Statement .linkRetryRequest := fun _ h => nomatch h
theorem messageArrival : Statement .messageArrival := fun _ h => nomatch h
theorem messageFillComplete : Statement .messageFillComplete := fun _ h => nomatch h
theorem mreplyArrival : Statement .mreplyArrival := fun _ h => nomatch h
theorem sensorReading : Statement .sensorReading := fun _ h => nomatch h
theorem bandChangeBlock : Statement .bandChangeBlock := fun _ h => nomatch h
theorem band3Entry : Statement .band3Entry := fun _ h => nomatch h
theorem band3Exit : Statement .band3Exit := fun _ h => nomatch h
theorem coolDownRequest : Statement .coolDownRequest := fun _ h => nomatch h
theorem warmUpRequest : Statement .warmUpRequest := fun _ h => nomatch h
theorem coldSettleDone : Statement .coldSettleDone := fun _ h => nomatch h
theorem recalibrationHold : Statement .recalibrationHold := fun _ h => nomatch h
theorem levelLow : Statement .levelLow := fun _ h => nomatch h
theorem scrubLine : Statement .scrubLine := fun _ h => nomatch h
theorem scrubLate : Statement .scrubLate := fun _ h => nomatch h
theorem ownerRecordWrite : Statement .ownerRecordWrite := fun _ h => nomatch h
theorem resourceRetire : Statement .resourceRetire := fun _ h => nomatch h
theorem deviceReset : Statement .deviceReset := fun _ h => nomatch h
theorem fuseBlowRequest : Statement .fuseBlowRequest := fun _ h => nomatch h
theorem attestationRequest : Statement .attestationRequest := fun _ h => nomatch h
theorem snapshotRequest : Statement .snapshotRequest := fun _ h => nomatch h
theorem snapshotTriggerArrival : Statement .snapshotTriggerArrival := fun _ h => nomatch h
theorem captureRead : Statement .captureRead := fun _ h => nomatch h
theorem faultLogRead : Statement .faultLogRead := fun _ h => nomatch h
theorem illegalInstr : Statement .illegalInstr := fun _ h => nomatch h
theorem fetchFault : Statement .fetchFault := fun _ h => nomatch h
theorem barrierReleaseAck : Statement .barrierReleaseAck := fun _ h => nomatch h
theorem barrierMemberDeparture : Statement .barrierMemberDeparture := fun _ h => nomatch h
theorem tempoParticipantNotice : Statement .tempoParticipantNotice := fun _ h => nomatch h
theorem pcieCompletion : Statement .pcieCompletion := fun _ h => nomatch h
theorem uetRetransmit : Statement .uetRetransmit := fun _ h => nomatch h
theorem linkCrcError : Statement .linkCrcError := fun _ h => nomatch h
theorem portReachable : Statement .portReachable := fun _ h => nomatch h
theorem snapshotCaptureComplete : Statement .snapshotCaptureComplete := fun _ h => nomatch h

end Sys2Proof.Laws.Encoded

namespace Sys2Proof.Laws

theorem Encoded.seal (f : DapF) : Encoded.Statement (.seal f) :=
  let ⟨_, hx, hc, hm⟩ := Encoded.DapF_parts f
  Encoded.parts (b := 0x52000001) (t := f.toWord) rfl hx hc hm rfl rfl rfl
theorem Encoded.unseal (f : DapF) : Encoded.Statement (.unseal f) :=
  let ⟨_, hx, hc, hm⟩ := Encoded.DapF_parts f
  Encoded.parts (b := 0x52000002) (t := f.toWord) rfl hx hc hm rfl rfl rfl
theorem Encoded.recall : Encoded.Statement .recall := fun _ h => nomatch h

end Sys2Proof.Laws
end

