-- ==== Sys2Proof/Tests/Slice0.lean ====
section
/-! SUPPORT. The model's own tests: the operand-field rules, decoding, single steps, and for every statement states that meet its hypotheses. -/

set_option autoImplicit false
namespace Sys2Proof.Tests
open Sys2Proof Machine Claims
set_option Elab.async false

/-! ### Small states -/

/-- A register file with some registers set. -/
def regs (l : List (Nat × Nat)) : Vector Word 32 := l.foldl (fun g r => g.setIfInBounds r.1 (W r.2)) (Vector.replicate 32 0)
/-- A crew's scalar registers with some set. -/
def sregs (l : List (Nat × Nat)) : Vector Word 160 := l.foldl (fun g r => g.setIfInBounds r.1 (W r.2)) (Vector.replicate 160 0)

/-- One region at address 0, whose 2 MB granules alternate between the homes at cores 0 and 1. -/
def region : PEnt := { v := true, base := 0, len := 2 ^ 30, chip0 := 0, nchip := 1, count := 2, glog := 21, tier := 0, coreset := 3 }
/-- A page with rights. -/
def pageOf (st : PgSt) (rd wr ex : Bool) (frame : Nat) : Page :=
  { st := st, s := st == .sealed, ord := 1, rd := rd, wr := wr, ex := ex, tier := 0, ntier := 0, frame := frame, tokens := 0, nframe := 0, moved := 0 }
/-- What a permission cache holds of a page. -/
def permOf (key : Nat) (p : Page) : PermE := ⟨1, 0, key, p.rd, p.wr, p.ex, p.ord, p.s⟩
/-- The code page (address 0, core 0), data pages at 2 MB (core 1) and 4 MB (core 0), a sealed page at 6 MB (core 1). -/
def pageTab : Tab Page := [(pgKey 1 0 0 0, pageOf .sealed true false true 0), (pgKey 1 0 0 1, pageOf .mapped true true false 1),
  (pgKey 1 0 1 0, pageOf .mapped true true false 0), (pgKey 1 0 1 1, pageOf .sealed true true false 1)]
/-- The entry of the kernel: code at 0, trap handler at 48. -/
def kent0 : KEnt := { code := 0, trapv := 48, round := 1, trapen := 0, carry := 0, nscal := 0, lconst := 0, seed := 5, roam := false, fuse := false
                      chip := 0, qid := 0, pkt := 0 }
/-- A thread of context 1 with a handler. -/
def thr (kind : Nat) (g : List (Nat × Nat)) : Thr :=
  { Thr.blank with st := .ready, ctx := 1, kind := BitVec.ofNat 2 kind, handler := 48, g := regs g }
/-- A running crew of context 1 with a share of 4 KB and private slices of 1 KB. -/
def crew0 : Crew := { Crew.blank with st := .running, ctx := 1, spSize := 4096, pvSize := 1024 }
/-- Core 0 with context 1 in its active bank and the pages it knows. -/
def core0 : CoreSt := { CoreSt.blank with clock := 100, bank := CoreSt.blank.bank.setIfInBounds 0 (some 1)
                                          perm := pageTab.map fun x => permOf x.1 x.2 }
/-- Context 1, LIVE. -/
def ctx1 : Ctx := { Ctx.blank with st := .live, snap := true, ptab := [region], fqbase := 2 ^ 21, fqlog2 := 5 }
/-- A part at work: context 1 on core 0. -/
def live : State := { State.reset with
  dev := { Dev.blank with dstate := .run, band := 0, target := 0 }
  ctxs := [(1, ctx1)], pages := pageTab, kern := [(4096, kent0)], cores := [(0, core0)] }
/-- A chain of core 0 at address 96 about to act in some lanes. -/
def issue (crew : Option Nat) (lanes : List LaneRef) : Issue :=
  { core := 0, ctx := 1, crew := crew, lanes := lanes, pc := 96, wpc := 96, next := 108, widx := 0, pre := none, banks := [], loads := [], draws := [], pfx := .none, drops := [] }
/-- A crew of core 0 whose first n lanes issue; `g` gives each lane's registers. -/
def crewAt (n : Nat) (g : Nat → List (Nat × Nat)) : State :=
  { live with thr := (List.range n).map fun l => (l, thr 2 (g l)), crews := [(0, crew0)]
              iss := issue (some 0) ((List.range n).map fun l => ⟨l, l⟩) }
/-- A roaming thread that issues. -/
def roamAt (g : List (Nat × Nat)) : State := { live with thr := [(32, thr 0 g)], iss := issue none [⟨32, 0⟩] }

/-! ### What the tests look at -/

/-- The state after an instruction, where it answers a next state. -/
def after (i : Instr) (s : State) : Option State :=
  match exec i s with
  | .next t => some t
  | _ => none

/-- Register r of thread tk after an instruction. -/
def gOf (i : Instr) (s : State) (tk r : Nat) : Option Nat := (after i s).map fun t => ((t.T tk).gr r).toNat
/-- The flags of thread tk after an instruction. -/
def flagsOf (i : Instr) (s : State) (tk : Nat) : Option Nat := (after i s).map fun t => (t.T tk).flags.toNat
/-- Scalar register r of crew 0 after an instruction. -/
def sOf (i : Instr) (s : State) (r : Nat) : Option Nat := (after i s).map fun t => ((t.C 0).sr r).toNat
/-- One lane with registers g2 and g3. -/
def one (a b : Nat) : State := crewAt 1 fun _ => [(2, a), (3, b)]
/-- The top frame's cause and the pc of thread 0 after an instruction. -/
def trapOf (i : Instr) (s : State) : Option (Option Cause × Nat) := (after i s).map fun t => (((t.T 0).frames.head?).map (·.cause), (t.T 0).pc.toNat)

/-! ### The operand-field rules: an ill-formed term for each check, which the check refuses -/

theorem test_wf_integer : [Instr.add ⟨0, 1, 2, 3, 2, 0, 1⟩, .add ⟨0, 1, 2, 3, 4, 0, 3⟩, .mulw ⟨0, 1, 2, 3, 2, 0, 0⟩, .pack ⟨0, 1, 2, 3, 3, 0⟩, .unpk ⟨0, 1, 2, 2, 0⟩,
    .bfx ⟨0, 1, 2, 3, 4, 0⟩, .bfi ⟨0, 1, 2, 3, 5, 0⟩, .lea ⟨0, 1, 2, 3, 2, 0, 1⟩, .shli ⟨0, 1, 2, 64, 0⟩, .icmp ⟨0, 1, 2, 3, 6, 2, 0⟩, .icmpp ⟨0, 2, 3, 0, 4, 0⟩].all
      (fun i => !i.wf) = true := by decide
theorem test_wf_float : [Instr.fadd ⟨0, 1, 2, 3, 5, 0, 0⟩, .fadd ⟨0, 1, 2, 3, 0, 0, 1⟩, .fdot2 ⟨0, 1, 2, 3, 0, 0, 0⟩, .fma ⟨0, 1, 2, 3, 4, 5, 0⟩, .cvtf ⟨0, 1, 2, 3, 0, 0, 0⟩,
    .cvtfi ⟨0, 1, 2, 3, 0, 0⟩, .cvtif ⟨0, 1, 2, 4, 0, 0⟩, .cvtn ⟨0, 1, 2, 3, 3, 0, 0⟩, .cvtw ⟨0, 1, 2, 3, 3, 0⟩, .frnd ⟨0, 1, 2, 5, 0⟩, .frcps ⟨0, 1, 2, 5, 0, 0⟩,
    .fexp2 ⟨0, 1, 2, 1, 0, 0⟩, .fcmp ⟨0, 1, 2, 3, 8, 0, 0⟩, .fcmpp ⟨0, 2, 3, 0, 2, 0⟩, .fclass ⟨0, 1, 2, 6, 0⟩].all (fun i => !i.wf) = true := by decide
theorem test_wf_scalar : [Instr.smov ⟨0, 168, 3⟩, .sadd ⟨0, 3, 220⟩, .srdl ⟨0, 184, 187⟩, .srdl ⟨0, 3, 4⟩, .smovi ⟨0, 180, 0⟩, .sshli ⟨0, 3, 64⟩, .mfsr ⟨0, 3, 20⟩,
    .mtsr ⟨0, 3, 4⟩, .sld ⟨0, 3, 160⟩, .sst ⟨0, 160, 3⟩, .enrol ⟨0, 176⟩, .jmov ⟨0, 168, 169⟩, .shfl ⟨0, 1, 2, 3, 0, 1⟩, .redl ⟨0, 1, 2, 9, 0, 0⟩, .redl ⟨0, 1, 2, 1, 5, 0⟩,
    .ballot ⟨0, 1, 2, 1, 0⟩, .matchL ⟨0, 1, 2, 4, 0⟩].all (fun i => !i.wf) = true := by decide
theorem test_wf_memory : [Instr.sleep ⟨0⟩, .ld ⟨0, 1, 2, 0, 4, 0, 0⟩, .st ⟨0, 1, 2, 4, 0, 0⟩, .fence ⟨0, 0, 4⟩, .fence ⟨0, 1, 6⟩, .send ⟨0, 159, 4⟩, .mma ⟨0, 153, 0, 5⟩,
    .tcopy ⟨0, 157, 0, 5⟩, .cwait ⟨0, 159, 5⟩, .bar ⟨0, 160, 0⟩, .bar ⟨0, 3, 8⟩, .bexp ⟨0, 159⟩, .tret ⟨158, 4⟩, .xflt ⟨152, 4⟩, .dropr ⟨3, 0⟩,
    .prefixArith ⟨0, 7, 0, 0, 0⟩, .prefixArith ⟨0, 0, 3, 0, 0⟩, .prefixMemory ⟨0, 4, 0, 0⟩, .prefixMemory ⟨0, 1, 6, 0⟩, .prefixMemory ⟨0, 0, 1, 0⟩].all
      (fun i => !i.wf) = true := by decide

/-! ### Decoding: words that the spec writes out or that stand below bit by bit from its formats -/

/-- Words of the spec with what they stand for (1). -/
def specWords1 : List (Nat × Instr) := [
  (0x5a5022d0, .accrd ⟨0, 40, 1, 13⟩), (0x15738800, .addi ⟨0, 23, 7, 256, 0⟩), (0x4c84aa20, .atomCas ⟨0, 8, 9, 10, 1, 0⟩), (0x4c531c22, .atomAdd ⟨0, 5, 6, 7, 1, 2⟩),
  (0x603c000c, .bar ⟨0, 30, 12⟩), (0x603c020c, .bara ⟨0, 30, 12⟩), (0x60500800, .barb ⟨0, 40⟩), (0x603c040c, .barw ⟨0, 30, 12⟩),
  (0x60500600, .bexp ⟨0, 40⟩), (0x5e8c0050, .cpoll ⟨0, 70, 5⟩), (0x70180a40, .ctxsw ⟨12, 4⟩), (0x5e8c0250, .cwait ⟨0, 70, 5⟩),
  (0x703c080f, .dropr ⟨30, 15⟩), (0x0d520000, .enrol ⟨0, 169⟩), (0x28048441, .fcmpp ⟨0, 9, 1, 1, 0, 0⟩), (0x22918d20, .fma ⟨0, 9, 3, 3, 9, 0, 0⟩),
  (0x20212884, .fmul ⟨0, 2, 2, 10, 0, 1, 0⟩), (0x22b62da3, .fnma ⟨0, 11, 12, 11, 13, 0, 1⟩), (0x26a48046, .frsqs ⟨0, 10, 9, 0, 1, 2⟩), (0x20211e00, .fscale ⟨0, 2, 2, 7, 0, 0, 0⟩),
  (0x20c4fe06, .fscale ⟨0, 12, 9, 31, 0, 1, 2⟩), (0x623c0050, .gqry ⟨0, 30, 5⟩), (0x70000c00, .halt), (0x18841010, .icmp ⟨0, 8, 8, 4, 0, 2, 0⟩)]
/-- Words of the spec with what they stand for (2). -/
def specWords2 : List (Nat × Instr) := [
  (0x18000891, .icmpp ⟨0, 0, 2, 2, 2, 0⟩), (0x5c800470, .layout ⟨0, 64, 0, 7⟩), (0x40231200, .ld ⟨0, 2, 6, 2, 2, 0, 0⟩), (0x40428b00, .ld ⟨0, 4, 5, 1, 3, 0, 0⟩),
  (0x3ac480d0, .matchL ⟨0, 12, 9, 2, 0⟩), (0x3ad48110, .matchN ⟨0, 13, 9, 2, 0⟩), (0x1073875a, .maxW ⟨0, 7, 7, 1, 3, 0, 2⟩), (0x5c884680, .mcast ⟨0, 68, 2, 8⟩),
  (0x35740c00, .mfsr ⟨0, 186, 6⟩), (0x34140400, .mfsr ⟨0, 10, 2⟩), (0x585080c0, .mma ⟨0, 40, 4, 12⟩), (0x585002c5, .mmamTree ⟨0, 40, 0, 12, 1⟩),
  (0x1ab8000e, .movn ⟨0, 11, 32768, 3⟩), (0x1ad3fc04, .movz ⟨0, 13, 16320, 1⟩), (0x34279810, .mtsr ⟨0, 19, 204⟩), (0x1052b092, .mul ⟨0, 5, 5, 12, 2, 0, 2⟩),
  (0x5a280c00, .mwait ⟨0, 20⟩), (0x5a280cc1, .mwaitThru ⟨0, 20, 12⟩), (0x0d500010, .park ⟨0, 168⟩), (0x703c0600, .pinval ⟨30⟩),
  (0x5c784090, .post ⟨0, 60, 2, 9⟩), (0x54a80660, .probe ⟨0, 84, 6⟩), (0x5e000602, .qfree ⟨0, 2⟩), (0x5e0004a2, .qpop ⟨0, 10, 2⟩)]
/-- Words of the spec with what they stand for (3). -/
def specWords3 : List (Nat × Instr) := [
  (0x54a80250, .recvp ⟨0, 84, 5⟩), (0x54ac0450, .recvw ⟨0, 86, 5⟩), (0x54ac0451, .recvwTest ⟨0, 86, 5⟩), (0x4e020880, .redMin ⟨0, 4, 2, 0⟩),
  (0x12210c50, .rem ⟨0, 2, 2, 3, 2, 0, 0⟩), (0x703c0440, .replay ⟨30, 4⟩), (0x08000040, .ret ⟨0⟩), (0x32a02014, .saddi ⟨0, 80, 20⟩),
  (0x32a0401f, .sandi ⟨0, 80, 31⟩), (0x39de0150, .scanl ⟨0, 29, 28, 0, 2, 0⟩), (0x52418001, .seal ⟨0, 4, 3, 0⟩), (0x54a00040, .send ⟨0, 80, 4⟩),
  (0x167381c1, .shri ⟨0, 7, 7, 56, 0⟩), (0x31880600, .smov ⟨0, 196, 3⟩), (0x32a06052, .sori ⟨0, 80, 82⟩), (0x50728c40, .spawn ⟨0, 7, 5, 3⟩),
  (0x32a08027, .sshli ⟨0, 80, 39⟩), (0x436b8308, .st ⟨0, 22, 23, 3, 1, 0⟩), (0x44320305, .sts ⟨0, 3, 4, 3, 0, 1⟩), (0x5c802270, .tcopy ⟨0, 64, 1, 7⟩),
  (0x60000a91, .tempoOr ⟨0, 9⟩), (0x60000a00, .tempo ⟨0⟩), (0x5a640ae0, .tmset ⟨0, 50, 0, 14⟩), (0x02006000, .trapf)]
/-- Words of the spec with what they stand for (4). -/
def specWords4 : List (Nat × Instr) := [
  (0x70140040, .tret ⟨10, 4⟩), (0x52418002, .unseal ⟨0, 4, 3, 0⟩), (0x5a6006d0, .wbld ⟨0, 48, 0, 13⟩), (0x62000400, .wdet ⟨0⟩),
  (0x623c0250, .wopen ⟨0, 30, 5⟩), (0x70280240, .xflt ⟨20, 4⟩), (0x02004000, .yield), (0x30080e10, .sadd ⟨0, 4, 7⟩),
  (0x301376c0, .srdl ⟨0, 9, 187⟩), (0x32061fff, .smovi ⟨0, 3, 8191⟩), (0x34042400, .mfsr ⟨0, 2, 18⟩), (0x3821fc82, .shfli ⟨0, 2, 3, 31, 0⟩),
  (0x38008500, .redl ⟨0, 0, 1, 1, 0, 0⟩), (0x403489f1, .ldsx ⟨0, 3, 9, 1, 1, 30, 0⟩), (0x46710308, .ldfe ⟨0, 7, 2, 0, 1, 0⟩), (0x46b10309, .stef ⟨0, 11, 2, 1, 0⟩),
  (0x50218000, .migr ⟨0, 2, 3⟩), (0x50218080, .homeq ⟨0, 2, 3⟩), (0x52300400, .fence ⟨0, 3, 4⟩), (0x52628303, .waitw ⟨0, 6, 5, 1, 0, 0⟩),
  (0x24310019, .cvtf ⟨0, 3, 2, 0, 3, 0, 1⟩), (0x24611cd1, .cvtn ⟨0, 6, 2, 7, 2, 0, 1⟩), (0x22110c81, .fnma ⟨0, 1, 2, 3, 4, 0, 0⟩), (0x10631c10, .add ⟨0, 6, 6, 7, 2, 0, 0⟩)]
/-- Words of the spec with what they stand for (5). -/
def specWords5 : List (Nat × Instr) := [
  (0x04000001, .br ⟨1⟩), (0x063fffff, .brpT ⟨4194303⟩), (0x0a018000, .ppush ⟨0, 3⟩), (0x48530300, .ldr ⟨0, 5, 6, 0, 3, 0, 0⟩),
  (0x4a530300, .ldp ⟨0, 5, 6, 0, 3, 0, 0⟩), (0x7e400000, .prefixArith ⟨1, 0, 0, 0, 0⟩)]
/-- Whether each word decodes to the instruction beside it and is its encoding. -/
def agrees (l : List (Nat × Instr)) : Bool := l.all fun x => decide (decodeTableWord 32 x.1 = some x.2) && decide (encode x.2 = some x.1)
theorem test_decode_1 : agrees specWords1 = true := by decide +kernel
theorem test_decode_2 : agrees specWords2 = true := by decide +kernel
theorem test_decode_3 : agrees specWords3 = true := by decide +kernel
theorem test_decode_4 : agrees specWords4 = true := by decide +kernel
theorem test_decode_5 : agrees specWords5 = true := by decide +kernel
/-- R102: 0x10000000 | D << 20 | A << 15 | B << 10 | FN << 6 | TY << 3 | PR << 2 | MD. -/
theorem test_decode_int3 : decodeTableWord 32 0b0_001000_00110_00110_00111_0000_010_0_00 = some (.add ⟨0, 6, 6, 7, 2, 0, 0⟩) := by decide +kernel
/-- R113: FADD f32 d = 8, a = 2, b = 3. -/
theorem test_decode_fp3 : decodeTableWord 32 0b0_010000_01000_00010_00011_0000_000_0_00 = some (.fadd ⟨0, 8, 2, 3, 0, 0, 0⟩) := by decide +kernel
/-- Reserved words are refused: FN 10 of FP3 (R113), CD 5 of BRP (R95), the word 0 and the word of ones. -/
theorem test_decode_refuses : [0x20000280, 0x06000000 + 5 * 2 ^ 22, 0, 0xffffffff].all (fun w => decodeTableWord 32 w = none) = true := by decide +kernel

/-! ### One step: results that the spec works out or that a hand calculation gives -/

/-- R102: i64 addition wraps and sets INT_OVERFLOW (bit 5 of FLAGS, R33). -/
theorem test_add_wraps : (gOf (.add ⟨0, 4, 2, 3, 2, 0, 0⟩) (one (2 ^ 63 - 1) 1) 0 4, flagsOf (.add ⟨0, 4, 2, 3, 2, 0, 0⟩) (one (2 ^ 63 - 1) 1) 0)
    = (some (2 ^ 63), some 32) := by decide +kernel
/-- R102: i16x4 subtraction borrows in no neighbour; −1 in element 0 only. -/
theorem test_sub_packed : gOf (.sub ⟨0, 4, 2, 3, 4, 0, 0⟩) (one 0x0005000000000000 0x0001000000000001) 0 4 = some 0x000400000000ffff := by decide +kernel
/-- R102: (2^63)² has 2^126 as its product: the high 64 bits of n64 are 2^62. -/
theorem test_mulh : gOf (.mulh ⟨0, 4, 2, 3, 3, 0, 0⟩) (one (2 ^ 63) (2 ^ 63)) 0 4 = some (2 ^ 62) := by decide +kernel
/-- R103: an n64 shift by 64 gives 0, an i64 SAR by 64 of a negative number all ones. -/
theorem test_shift_full : (gOf (.shl ⟨0, 4, 2, 3, 3, 0, 0⟩) (one 1 64) 0 4, gOf (.sar ⟨0, 4, 2, 3, 2, 0, 0⟩) (one (2 ^ 63) 64) 0 4)
    = (some 0, some (2 ^ 64 - 1)) := by decide +kernel
/-- R102: ADDSAT i8x8 stops at 127. -/
theorem test_addsat : gOf (.addsat ⟨0, 4, 2, 3, 6, 0, 0⟩) (one 0x7f 1) 0 4 = some 0x7f := by decide +kernel
/-- R109, R21: a division by zero delivers all ones and INT_DIVZERO to its lock. -/
theorem test_div_zero : (after (.div ⟨0, 4, 2, 3, 2, 0, 0⟩) (one 7 0)).map (fun t => (t.T 0).locks.map fun k => (k.val, k.fl.toNat))
    = some [(some (W (2 ^ 64 - 1)), 64)] := by decide +kernel
/-- R107: LEA i32 adds 4 × B. -/
theorem test_lea : gOf (.lea ⟨0, 4, 2, 3, 0, 0, 0⟩) (one 100 7) 0 4 = some 128 := by decide +kernel
/-- R111: MOVN of 0x8000 at HW 3. -/
theorem test_movn : gOf (.movn ⟨0, 4, 0x8000, 3⟩) (one 0 0) 0 4 = some 0x7fffffffffffffff := by decide +kernel
/-- R118's example: a × b is 1 − 2^-46; FMUL rounds to 1.0 with INEXACT, FMA with c = −1.0 gives −2^-46 (0xa8800000) and no flag. -/
theorem test_fma_example :
    let s := crewAt 1 fun _ => [(2, 0x3f800001), (3, 0x3f7ffffe), (5, 0xbf800000)]
    (gOf (.fmul ⟨0, 4, 2, 3, 0, 0, 0⟩) s 0 4, flagsOf (.fmul ⟨0, 4, 2, 3, 0, 0, 0⟩) s 0, gOf (.fma ⟨0, 4, 2, 3, 5, 0, 0⟩) s 0 4,
      flagsOf (.fma ⟨0, 4, 2, 3, 5, 0, 0⟩) s 0) = (some 0x3f800000, some 16, some 0xa8800000, some 0) := by decide +kernel
/-- R34's worked example: 10.0, −3.0 and 0.7 under scale code 0x80 give the E2M1 codes 6, 0xb and 1. -/
theorem test_e2m1_example : ((narrowScaled e2m1F 1 0 0x41200000 0x80).bits, (narrowScaled e2m1F 1 0 0xc0400000 0x80).bits, (narrowScaled e2m1F 1 0 0x3f333333 0x80).bits)
    = (6, 0xb, 1) := by decide +kernel
/-- R114: −0 is below +0, and FMINNUM prefers the number to a NaN. -/
theorem test_fmin : (gOf (.fmin ⟨0, 4, 2, 3, 0, 0, 0⟩) (one 0 0x80000000) 0 4, gOf (.fminnum ⟨0, 4, 2, 3, 0, 0, 0⟩) (one 0x7fc00000 0x40000000) 0 4)
    = (some 0x80000000, some 0x40000000) := by decide +kernel
/-- R99, R100's example, lane 3: −2 < 5 pushes 1, PINV makes it 0. -/
theorem test_push_invert : ((after (.icmpp ⟨0, 2, 3, 2, 2, 0⟩) (one (2 ^ 64 - 2) 5)).map fun t => ((t.T 0).top, ((t.T 0).setTop (!(t.T 0).top && (t.T 0).below)).top))
    = some (true, false) := by decide +kernel
/-- R161's example: the digits of lanes 0 to 7. -/
def digits : State := crewAt 8 fun l => [(5, [3, 1, 3, 0, 1, 3, 7, 0].getD l 0)]
theorem test_vote_example : ((List.range 8).map fun l => gOf (.matchL ⟨0, 6, 5, 0, 0⟩) digits l 6) = [0x25, 0x12, 0x25, 0x88, 0x12, 0x25, 0x40, 0x88].map some
    ∧ ((List.range 8).map fun l => gOf (.popl ⟨0, 6, 5, 0, 0⟩) digits l 6) = [0, 1, 2, 3, 3, 4, 5, 6].map some := by decide +kernel
/-- R158's example: REDL min over no active lane gives 0x7fffffff and EMPTY. -/
theorem test_redl_empty : (let s := crewAt 2 fun _ => []
    let s := { s with thr := s.thr.map fun x => (x.1, { x.2 with pdepth := 1 }) }
    (after (.redl ⟨0, 6, 2, 2, 0, 1⟩) s).map fun t => (((t.C 0).sr 6).toNat, (t.C 0).empty)) = some (0x7fffffff, true) := by decide +kernel
/-- R168's worked example: 383 cores without core 217, 4 KiB granules, BASE 0x1000000000. -/
theorem test_home_example :
    (homeIn [{ v := true, base := 0x1000000000, len := 2 ^ 36, chip0 := 0, nchip := 1, count := 383, glog := 12, tier := 0, coreset := 2 ^ 384 - 1 - 2 ^ 217 }] 0x112354f7a8).map
      (fun h => (h.core, h.hg)) = some (251, 3115) := by decide +kernel
/-- R201's example at cycle t: lane 2 takes 7, lane 5 waits, lane 9 fills; here one LDFE and one LDFF of the FULL word at offset 0x40. -/
theorem test_fe_example : (let s := { crewAt 2 (fun _ => [(2, 0x40)]) with mem := [(spadKey 0 0x40, 7)] }
    (after (.ldfe ⟨0, 4, 2, 0, 0, 0⟩) s).map fun t => (t.empt, ((t.T 0).locks.map (·.val)))) = some ([spadKey 0 0x40], [some 7]) := by decide +kernel
/-- R204: an unsigned word of the 32-bit ADD wraps; the atomic group of the example leaves 118. -/
theorem test_atom_example : ([5, 3, 8, 2].foldl (fun w b => (atomNew 0 false 1 w b 0).1) 100, (atomNew 0 false 1 (2 ^ 32 - 1) 1 0).1) = (118, 0) := by decide +kernel
/-- R91, R374: TRAP 5 pushes a SOFTWARE frame and goes to HANDLER. -/
theorem test_trap_entry : trapOf (.trap ⟨5⟩) (one 0 0) = some (some .software, 48) := by decide +kernel
/-- R57, R183: a misaligned load traps. -/
theorem test_misaligned : trapOf (.ld ⟨0, 4, 2, 0, 3, 0, 0⟩) (one (2 ^ 21 + 1) 0) = some (some .misaligned, 48) := by decide +kernel
/-- R198: STS writes two bytes at offset 6, the low one first. -/
theorem test_sts : (after (.sts ⟨0, 3, 2, 1, 0, 0⟩) (one 6 0xabcd)).map (·.mem) = some [(spadKey 0 6, 0xcd), (spadKey 0 7, 0xab)] := by decide +kernel
/-- R94: BR goes to the word's address plus 4 × OFS22; CALL links. -/
theorem test_call : (after (.call ⟨0x3ffffd⟩) (one 0 0)).map (fun t => ((t.T 0).pc.toNat, ((t.T 0).gr 31).toNat)) = some (84, 108) := by decide +kernel
/-- R376: TRAPV command 6 returns to the frame's pc. -/
theorem test_trapv_ret : (let s := one 0 0
    let s := { s with thr := s.thr.map fun x => (x.1, { x.2 with frames := [⟨24, 0, .software, 0, 0⟩] }) }
    (after .trapvRet s).map fun t => ((t.T 0).pc.toNat, (t.T 0).frames.length)) = some (24, 0) := by decide +kernel
/-- R143: SDIV truncates toward zero. -/
theorem test_sdiv : sOf (.sdiv ⟨0, 6, 7⟩) { one 0 0 with crews := [(0, { crew0 with s := sregs [(6, 2 ^ 64 - 7), (7, 2)] })] } 6 = some (2 ^ 64 - 3) := by decide +kernel
/-- R8, R421, R424: after reset the part is warm, in band 4, and lists nothing. -/
theorem test_reset : State.reset.mem = [] ∧ State.reset.thr = [] ∧ State.reset.ctxs = [] ∧ State.reset.dev.band = 4 ∧ State.reset.dev.dstate = .ambient := by decide
/-- A word placed at the next fetch is the word that the next step runs: ADDI g1, g1, 1. -/
theorem test_step_runs : (match step (State.reset.withFetchWord 32 0x14108008) with | .next t => ((t.T 0).gr 1).toNat | _ => 0) = 1 := by decide +kernel

/-! ### Witnesses: for each statement, states and operands that meet its hypotheses together -/

/-- Whether a word passes the checks and its lanes are different threads. -/
def passes (i : Instr) (s : State) : Bool := decide (s.staticFault i = none ∧ (s.iss.lanes.map (·.tk)).Nodup)
theorem issues {i : Instr} {s : State} (h : passes i s = true) : Issues i s := by
  unfold passes at h
  unfold Issues
  exact of_decide_eq_true h
/-- What holds of lane 0 holds of every issuing lane where it is the only one. -/
theorem only {s : State} {P : LaneRef → Prop} (hs : s.iss.lanes = [⟨0, 0⟩]) (h : P ⟨0, 0⟩) : ∀ l ∈ s.iss.lanes, P l := by
  intro l hl
  rw [hs] at hl
  rw [List.mem_singleton.mp hl]
  exact h
/-- An event's payload is what the state was given. -/
theorem carried (s : State) (a : Arg) : (State.carry s a).ev = a := rfl

/-- Two lanes, the second inactive in a predicated word. -/
def pair : State :=
  let s := crewAt 2 fun l => [(2, l + 5), (3, 7)]
  { s with thr := s.thr.map fun x => (x.1, if x.1 = 1 then { x.2 with pdepth := 1 } else x.2) }
/-- A roaming thread with registers g2 and g3. -/
def roam1 (a b : Nat) : State := roamAt [(2, a), (3, b)]
/-- The state with thread 0 changed. -/
def with0 (s : State) (f : Thr → Thr) : State := { s with thr := s.thr.map fun x => if x.1 = 0 then (x.1, f x.2) else x }
/-- The state with crew 0 changed. -/
def withCrew (s : State) (f : Crew → Crew) : State := { s with crews := s.crews.map fun x => (x.1, f x.2) }
/-- A frame of a thread that a TRAP stopped at 24. -/
def frame0 : Frame := ⟨24, 0, .software, 0, 0⟩

theorem witness_IntegerWords : ∃ w, intWord (.add ⟨0, 4, 2, 3, 2, 1, 0⟩) = some w ∧ Issues (.add ⟨0, 4, 2, 3, 2, 1, 0⟩) pair :=
  ⟨_, rfl, issues (by decide +kernel)⟩
theorem witness_FloatWords : ∃ w, floatWord (.fma ⟨0, 4, 2, 3, 3, 1, 1⟩) = some w ∧ Issues (.fma ⟨0, 4, 2, 3, 3, 1, 1⟩) pair :=
  ⟨_, rfl, issues (by decide +kernel)⟩
theorem witness_SlowWords : ∃ w n look, slowWord (.rem ⟨0, 4, 2, 3, 3, 1, 2⟩) = some (w, n, look) ∧ Issues (.rem ⟨0, 4, 2, 3, 3, 1, 2⟩) pair :=
  ⟨_, _, _, rfl, issues (by decide +kernel)⟩
theorem witness_StackWords : ∃ f : LaneRef → Thr, Issues (.ppop ⟨0⟩) (with0 (one 1 1) fun t => t.push true)
    ∧ (∃ x y l, stackWord (with0 (one 1 1) fun t => t.push true) l x y (.ppop ⟨0⟩) ≠ none)
    ∧ ∀ l ∈ (with0 (one 1 1) fun t => t.push true).iss.lanes, stackWord (with0 (one 1 1) fun t => t.push true) l
        ((with0 (one 1 1) fun t => t.push true).rT l.tk) ((with0 (one 1 1) fun t => t.push true).T l.tk) (.ppop ⟨0⟩) = some (.ok (f l)) :=
  ⟨fun l => ((with0 (one 1 1) fun t => t.push true).T l.tk).pop, issues (by decide +kernel), ⟨Thr.blank, Thr.blank, ⟨0, 0⟩, by simp [stackWord, stackWord.need]⟩,
    only rfl rfl⟩
theorem witness_ScalarWords :
    (∃ d v, scalarWord (.sadd ⟨0, 188, 187⟩) = some (d, v) ∧ Issues (.sadd ⟨0, 188, 187⟩) pair ∧ isG d = true)
    ∧ ∃ d v, scalarWord (.sdiv ⟨0, 159, 7⟩) = some (d, v) ∧ Issues (.sdiv ⟨0, 159, 7⟩) pair ∧ isG d = false ∧ pair.iss.crew = some 0 :=
  ⟨⟨_, _, rfl, issues (by decide +kernel), rfl⟩, ⟨_, _, rfl, issues (by decide +kernel), rfl, rfl⟩⟩
theorem witness_MtsrWords :
    (Issues (.mtsr ⟨0, 15, 186⟩) (one 0x10ffff 0) ∧ ∀ l ∈ (one 0x10ffff 0).iss.lanes, bits ((one 0x10ffff 0).code 186 l.tk) 20 16 ≤ 16)
    ∧ Issues (.mtsr ⟨0, 10, 3⟩) pair ∧ Issues (.mtsr ⟨0, 18, 186⟩) pair ∧ pair.iss.crew = some 0 :=
  ⟨⟨issues (by decide +kernel), by decide +kernel⟩, issues (by decide +kernel), issues (by decide +kernel), rfl⟩
/-- A handler set, and a return from the only frame. -/
theorem witness_TrapvCommands :
    (∃ f : LaneRef → Thr, Issues (.trapvSeth 96) (one 0 0) ∧
      ∀ l ∈ (one 0 0).iss.lanes, ∃ v, trapvVal (one 0 0) l (.trapvSeth 96) = some v ∧ trapvLane (one 0 0) l.tk v ((one 0 0).T l.tk) = some (f l))
    ∧ ∃ f : LaneRef → Thr, let s := with0 (one 0 0) fun t => { t with frames := [frame0] }
      Issues .trapvRet s ∧ ∀ l ∈ s.iss.lanes, ∃ v, trapvVal s l .trapvRet = some v ∧ trapvLane s l.tk v (s.T l.tk) = some (f l) :=
  ⟨⟨fun l => { (one 0 0).T l.tk with handler := 96, view := 0 }, issues (by decide +kernel), only rfl ⟨_, rfl, by decide +kernel⟩⟩,
   ⟨fun l => { (with0 (one 0 0) fun t => { t with frames := [frame0] }).T l.tk with frames := [], view := 0, pc := 24 }, issues (by decide +kernel),
    only rfl ⟨_, rfl, by decide +kernel⟩⟩⟩
theorem witness_LaneMoves : ∃ d a p src, moveWord pair (.shfl ⟨0, 4, 2, 3, 0, 0⟩) = some (d, a, p, src) ∧ Issues (.shfl ⟨0, 4, 2, 3, 0, 0⟩) pair
    ∧ pair.iss.crew = some 0 ∧ ∀ l ∈ pair.iss.lanes, pair.active (p == 1) l = true → src l = l.pos ∨ pair.laneLocked 0 (src l) a.toNat = false :=
  ⟨4, 2, 0, fun l => moveIdx 0 3 (pair.rT l.tk) % 32, rfl, issues (by decide +kernel), rfl, by decide +kernel⟩
theorem witness_LaneVotes : ∃ f v, voteWord (.matchN ⟨0, 4, 2, 2, 1⟩) = some (f, v) ∧ Issues (.matchN ⟨0, 4, 2, 2, 1⟩) pair :=
  ⟨_, _, rfl, issues (by decide +kernel)⟩
/-- No lane active, and two lanes active, for REDL and SCANL. -/
theorem witness_LaneTrees :
    let none2 := with0 (crewAt 1 fun _ => []) fun t => { t with pdepth := 1 }
    (passes (.redl ⟨0, 4, 2, 0, 2, 1⟩) none2 = true ∧ passes (.scanl ⟨0, 4, 2, 1, 4, 1⟩) none2 = true ∧ none2.iss.crew = some 0 ∧ none2.activeLanes true = [])
    ∧ passes (.redl ⟨0, 4, 2, 0, 2, 0⟩) pair = true ∧ passes (.scanl ⟨0, 4, 2, 1, 4, 0⟩) pair = true ∧ pair.iss.crew = some 0
    ∧ ∃ low ∈ pair.activeLanes false, (∀ l ∈ pair.activeLanes false, low.pos ≤ l.pos) ∧ ((pair.activeLanes false).map (·.pos)).Nodup :=
  ⟨by decide +kernel, by decide +kernel, by decide +kernel, rfl, ⟨0, 0⟩, by decide +kernel⟩
/-- A lane whose register is free, and one whose register is locked. -/
theorem witness_ScalarReadLane :
    (Issues (.srdl ⟨0, 9, 187⟩) pair ∧ pair.iss.crew = some 0 ∧ pair.laneLocked 0 (((pair.rC 0).sr 9).toNat % 32) 3 = false)
    ∧ let s := with0 pair fun t => { t with locks := [{ id := 5, d := 3, regs := gbit 3, left := 2, active := true, due := none, val := none, fl := 0 }] }
      Issues (.srdl ⟨0, 9, 187⟩) s ∧ s.iss.crew = some 0 ∧ s.laneLocked 0 (((s.rC 0).sr 9).toNat % 32) 3 = true :=
  ⟨⟨issues (by decide +kernel), rfl, by decide +kernel⟩, issues (by decide +kernel), rfl, by decide +kernel⟩
theorem witness_RejoinWords :
    passes (.enrol ⟨0, 168⟩) pair = true ∧ passes (.strike ⟨0, 175⟩) pair = true ∧ passes (.park ⟨0, 169⟩) pair = true ∧ pair.iss.crew = some 0
    ∧ (∀ l ∈ pair.iss.lanes, l.pos < 32) ∧ (pair.iss.lanes.map (·.pos)).Nodup
    ∧ (passes (.jmov ⟨0, 175, 186⟩) pair = true ∧ isJ 175 = true ∧ ((pair.C 0).jr 7).parked = 0)
    ∧ (passes (.jmov ⟨0, 159, 168⟩) pair = true ∧ isJ 159 = false ∧ isG 159 = false) ∧ passes (.jmov ⟨0, 215, 168⟩) pair = true ∧ isG 215 = true := by decide +kernel
/-- A branch of every lane, a call through a register, a branch that no lane takes, and a branch whose target's chain the core does not hold. -/
theorem witness_Branches :
    (∃ b : LaneRef → Option (Word × Bool), Issues (.br ⟨0x3ffffd⟩) pair ∧ (∀ l, branchWord pair l (.br ⟨0x3ffffd⟩) = some (b l))
      ∧ ∀ l ∈ pair.iss.lanes, ∀ x, b l = some x → pair.targetFault l.tk x.1.toNat = none ∧ pair.targetNeeds l.tk x.1.toNat = none)
    ∧ (∃ b : LaneRef → Option (Word × Bool), Issues (.callr ⟨2, 0⟩) (one 48 0) ∧ (∀ l, branchWord (one 48 0) l (.callr ⟨2, 0⟩) = some (b l))
      ∧ ∀ l ∈ (one 48 0).iss.lanes, ∀ x, b l = some x → (one 48 0).targetFault l.tk x.1.toNat = none ∧ (one 48 0).targetNeeds l.tk x.1.toNat = none)
    ∧ (∃ b : LaneRef → Option (Word × Bool), Issues (.brpF ⟨1⟩) (one 0 0) ∧ (∀ l, branchWord (one 0 0) l (.brpF ⟨1⟩) = some (b l))
      ∧ ∀ l ∈ (one 0 0).iss.lanes, ∀ x, b l = some x → (one 0 0).targetFault l.tk x.1.toNat = none ∧ (one 0 0).targetNeeds l.tk x.1.toNat = none)
    ∧ ∃ (b : LaneRef → Option (Word × Bool)) (w : LaneRef → CodeWord), Issues (.br ⟨0x3fffff⟩) pair ∧ (∀ l, branchWord pair l (.br ⟨0x3fffff⟩) = some (b l))
      ∧ ∀ l ∈ pair.iss.lanes, ∃ x, b l = some x ∧ pair.targetFault l.tk x.1.toNat = none ∧ pair.targetNeeds l.tk x.1.toNat = some (w l) := by
  refine ⟨⟨_, issues (by decide +kernel), fun _ => rfl, ?_⟩, ⟨_, issues (by decide +kernel), fun _ => rfl, only rfl ?_⟩,
    ⟨_, issues (by decide +kernel), fun _ => rfl, only rfl ?_⟩, _, fun l => (pair.targetNeeds l.tk 92).getD (.word 0), issues (by decide +kernel), fun _ => rfl, fun l hl => ⟨_, rfl, ?_⟩⟩
  · intro l hl x hx
    injection hx with hx
    subst hx
    revert l hl
    decide +kernel
  · intro x hx
    have h : x = (48, true) := by
      have e : (if (one 48 0).active ((0 : BitVec 1) == 1) ⟨0, 0⟩ then some (((one 48 0).rT 0).gr 2, true) else none) = some ((48 : Word), true) := by decide +kernel
      exact (Option.some.inj (e.symm.trans hx)).symm
    rw [h]
    decide +kernel
  · intro x hx
    have e : (if ((one 0 0).rT 0).top then none else some ((branchWord.rel (one 0 0) ⟨1⟩ : Word), false)) = none := by decide +kernel
    exact absurd (e.symm.trans hx) (by simp)
  · revert l hl
    decide +kernel
theorem witness_ControlWords :
    ([Instr.nop, .prefixArith ⟨1, 6, 31, 1, 1⟩, .prefixMemory ⟨1, 3, 5, 1⟩, .yield, .sleep ⟨0x1fff⟩, .trap ⟨0x1fff⟩, .brk ⟨0⟩, .trapf, .exit].all fun i => passes i pair) = true
    ∧ ∀ l ∈ pair.iss.lanes, pair.logpend pair.iss.core (pair.rT l.tk).ctx = false := by decide +kernel
/-- A crew word in a roaming thread, a roaming thread's word in a crew, a privileged word outside the management core, and a locked register. -/
theorem witness_StaticTraps :
    (encode (.enrol ⟨0, 168⟩) ≠ none ∧ (roam1 0 0).staticFault (.enrol ⟨0, 168⟩) = some .crewOnly ∧ ((roam1 0 0).iss.lanes.map (·.tk)).Nodup)
    ∧ (encode (.migr ⟨0, 2, 3⟩) ≠ none ∧ pair.staticFault (.migr ⟨0, 2, 3⟩) = some .roamOnly ∧ (pair.iss.lanes.map (·.tk)).Nodup)
    ∧ encode .halt ≠ none ∧ pair.staticFault .halt = some .privileged := by decide +kernel
theorem witness_LaneTraps :
    (∃ c : LaneRef → Cause × Word × Word, Issues (.ppop ⟨0⟩) (one 0 0) ∧ (∃ l, laneTrap (one 0 0) l (.ppop ⟨0⟩) ≠ none)
      ∧ ∀ l ∈ (one 0 0).iss.lanes, laneTrap (one 0 0) l (.ppop ⟨0⟩) = some (c l))
    ∧ ∃ c : LaneRef → Cause × Word × Word, Issues (.jr ⟨2, 0⟩) (one 50 0) ∧ (∃ l, laneTrap (one 50 0) l (.jr ⟨2, 0⟩) ≠ none)
      ∧ ∀ l ∈ (one 50 0).iss.lanes, laneTrap (one 50 0) l (.jr ⟨2, 0⟩) = some (c l) :=
  ⟨⟨fun l => (laneTrap (one 0 0) l (.ppop ⟨0⟩)).getD (.software, 0, 0), issues (by decide +kernel), ⟨⟨0, 0⟩, by decide +kernel⟩, only rfl (by decide +kernel)⟩,
   ⟨fun l => (laneTrap (one 50 0) l (.jr ⟨2, 0⟩)).getD (.software, 0, 0), issues (by decide +kernel), ⟨⟨0, 0⟩, by decide +kernel⟩, only rfl (by decide +kernel)⟩⟩
/-- A trap that is taken, one whose handler's chain the core does not hold, one that finds no handler, and one that finds four frames. -/
theorem witness_TakingATrap :
    let t := (one 0 0).T 0
    (t.locks = [] ∧ t.ptrap = [] ∧ t.st ≠ .trapped ∧ t.frames.length < 4 ∧ t.handler ≠ 0 ∧ (one 0 0).targetFault 0 t.handler.toNat = none ∧ (one 0 0).targetNeeds 0 t.handler.toNat = none)
    ∧ (let s := with0 (one 0 0) fun t => { t with handler := 56 }; let t := s.T 0; t.locks = [] ∧ t.ptrap = [] ∧ t.st ≠ .trapped ∧ t.frames.length < 4 ∧ t.handler ≠ 0
      ∧ s.targetFault 0 t.handler.toNat = none ∧ s.targetNeeds 0 t.handler.toNat ≠ none)
    ∧ (let t := (with0 (one 0 0) fun t => { t with handler := 0 }).T 0; t.locks = [] ∧ t.ptrap = [] ∧ t.st ≠ .trapped ∧ t.handler = 0)
    ∧ let t := (with0 (one 0 0) fun t => { t with frames := [frame0, frame0, frame0, frame0] }).T 0; t.locks = [] ∧ t.ptrap = [] ∧ t.st ≠ .trapped ∧ t.frames.length ≥ 4 := by
  decide +kernel
/-- The last eight bytes of the share, and a private slice's last byte. -/
theorem witness_LocalLoads :
    (∃ w, localWord (one 4088 0) (.lds ⟨0, 4, 2, 1, 3, 0, 0⟩) = some (w, false) ∧ Issues (.lds ⟨0, 4, 2, 1, 3, 0, 0⟩) (one 4088 0) ∧ w.passes (one 4088 0)
      ∧ (one 4088 0).poison = [])
    ∧ ∃ w, localWord (one 1023 0) (.ldp ⟨0, 4, 2, 1, 0, 0, 0⟩) = some (w, false) ∧ Issues (.ldp ⟨0, 4, 2, 1, 0, 0, 0⟩) (one 1023 0) ∧ w.passes (one 1023 0)
      ∧ (one 1023 0).poison = [] :=
  ⟨⟨_, rfl, issues (by decide +kernel), by unfold LocalWord.passes; decide +kernel, rfl⟩, ⟨_, rfl, issues (by decide +kernel), by unfold LocalWord.passes; decide +kernel, rfl⟩⟩
theorem witness_LocalStores :
    (∃ w, localWord (one 4088 9) (.sts ⟨0, 3, 2, 3, 0, 0⟩) = some (w, true) ∧ Issues (.sts ⟨0, 3, 2, 3, 0, 0⟩) (one 4088 9) ∧ w.passes (one 4088 9)
      ∧ (one 4088 9).poison = [] ∧ Memory.wf (one 4088 9).mem = true ∧ (one 4088 9).iss.lanes.filter ((one 4088 9).active (w.p == 1)) = [⟨0, 0⟩])
    ∧ ∃ w, localWord (one 0 9) (.stp ⟨0, 3, 2, 0, 0, 0⟩) = some (w, true) ∧ Issues (.stp ⟨0, 3, 2, 0, 0, 0⟩) (one 0 9) ∧ w.passes (one 0 9)
      ∧ (one 0 9).poison = [] ∧ Memory.wf (one 0 9).mem = true :=
  ⟨⟨_, rfl, issues (by decide +kernel), by unfold LocalWord.passes; decide +kernel, rfl, rfl, by decide +kernel⟩,
   ⟨_, rfl, issues (by decide +kernel), by unfold LocalWord.passes; decide +kernel, rfl, rfl⟩⟩
theorem witness_ScalarShareWords :
    let s := withCrew (one 8 0) fun c => { c with s := sregs [(5, 4088)] }
    (passes (.sld ⟨0, 186, 5⟩) s = true ∧ s.sOffset 0 (s.code 5 s.lowLane.tk) = none ∧ isG 186 = true)
    ∧ (passes (.sld ⟨0, 160, 5⟩) s = true ∧ isG 160 = false)
    ∧ passes (.sst ⟨0, 5, 186⟩) s = true ∧ s.iss.crew = some 0 ∧ s.sOffset 0 (s.code 5 s.lowLane.tk) = none ∧ Memory.wf s.mem = true := by decide +kernel
theorem witness_FullEmptyWords : ∀ i ∈ [Instr.ldfe ⟨0, 4, 2, 0, 0, 0⟩, .stef ⟨0, 3, 2, 0, 0⟩, .ldff ⟨0, 4, 2, 0, 0, 0⟩],
    (∃ op p d la, feWord i = some (op, p, 2, 0, d, la)) ∧ passes i (one 4088 9) = true ∧ (one 4088 9).poison = []
    ∧ ∀ l ∈ (one 4088 9).iss.lanes, ofsOf (one 4088 9) 2 0 8 l % 8 = 0 ∧ ofsOf (one 4088 9) 2 0 8 l < ((one 4088 9).C (one 4088 9).ck).spSize := by
  intro i hi
  simp only [List.mem_cons, List.not_mem_nil, or_false] at hi
  obtain rfl | rfl | rfl := hi
  · exact ⟨⟨_, _, _, _, rfl⟩, by decide +kernel⟩
  · exact ⟨⟨_, _, _, _, rfl⟩, by decide +kernel⟩
  · exact ⟨⟨_, _, _, _, rfl⟩, by decide +kernel⟩
/-- An access that waits in bank 0 of core 0 for its word to be FULL. -/
def waits (op : Nat) : State := { one 0 0 with fe := [(0, [⟨0, 5, 0, spadKey 0 0, op, 9, 50⟩])] }
theorem witness_FullEmptyBank :
    (passes (.sete ⟨0, 2, 0, 0⟩) (one 4088 0) = true ∧ ∀ l ∈ (one 4088 0).iss.lanes, ofsOf (one 4088 0) 2 0 8 l % 8 = 0 ∧ ofsOf (one 4088 0) 2 0 8 l < 4096)
    ∧ (one 0 0).fePick ((one 0 0).clockOf 0) (((one 0 0).fe.get? (0 * 32 + 0)).getD []) = none
    ∧ (waits 1).fePick ((waits 1).clockOf 0) (((waits 1).fe.get? (0 * 32 + 0)).getD []) = none
    ∧ ((waits 0).fePick ((waits 0).clockOf 0) (((waits 0).fe.get? (0 * 32 + 0)).getD [])).isSome = true
    ∧ (let s := { waits 1 with empt := [spadKey 0 0] }
      (s.fePick (s.clockOf 0) ((s.fe.get? (0 * 32 + 0)).getD [])).isSome = true ∧ (s.T 0).ptrap = []) := by decide +kernel

/-- Where address 2^21 + 8 of the helper region lives, and what core 0 knows of its page. -/
def far : HomeLoc := { region := 0, chip := 0, core := 1, hg := 0, glog := 21, tier := 0, ofs := 8 }
def farPerm : PermE := permOf (pgKey 1 0 1 0) (pageOf .mapped true true false 0)
theorem witness_MemoryRequests :
    (∃ w, memWord (.ld ⟨0, 4, 2, 0, 3, 0, 0⟩) = some w ∧ Issues (.ld ⟨0, 4, 2, 0, 3, 0, 0⟩) (one (2 ^ 21 + 8) 0)
      ∧ ∀ l ∈ (one (2 ^ 21 + 8) 0).iss.lanes, okAt w (one (2 ^ 21 + 8) 0) l far farPerm
        ∧ departs (one (2 ^ 21 + 8) 0) (.ld ⟨0, 4, 2, 0, 3, 0, 0⟩) l far farPerm = false ∧ cached w farPerm = false)
    ∧ (∃ w, memWord (.st ⟨0, 3, 2, 3, 0, 0⟩) = some w ∧ Issues (.st ⟨0, 3, 2, 3, 0, 0⟩) (one (2 ^ 21 + 8) 0)
      ∧ ∀ l ∈ (one (2 ^ 21 + 8) 0).iss.lanes, okAt w (one (2 ^ 21 + 8) 0) l far farPerm
        ∧ departs (one (2 ^ 21 + 8) 0) (.st ⟨0, 3, 2, 3, 0, 0⟩) l far farPerm = false ∧ cached w farPerm = false)
    ∧ ∃ w, memWord (.atomCas ⟨0, 4, 2, 3, 1, 0⟩) = some w ∧ Issues (.atomCas ⟨0, 4, 2, 3, 1, 0⟩) (one (2 ^ 21 + 8) 0)
      ∧ ∀ l ∈ (one (2 ^ 21 + 8) 0).iss.lanes, okAt w (one (2 ^ 21 + 8) 0) l far farPerm
        ∧ departs (one (2 ^ 21 + 8) 0) (.atomCas ⟨0, 4, 2, 3, 1, 0⟩) l far farPerm = false ∧ cached w farPerm = false :=
  ⟨⟨_, rfl, issues (by decide +kernel), by unfold okAt; decide +kernel⟩, ⟨_, rfl, issues (by decide +kernel), by unfold okAt; decide +kernel⟩,
   ⟨_, rfl, issues (by decide +kernel), by unfold okAt; decide +kernel⟩⟩
theorem witness_MigratingLoads : ∃ w, memWord (.ld ⟨0, 4, 2, 0, 3, 0, 0⟩) = some w ∧ Issues (.ld ⟨0, 4, 2, 0, 3, 0, 0⟩) (roam1 (2 ^ 21 + 8) 0)
    ∧ (∀ l ∈ (roam1 (2 ^ 21 + 8) 0).iss.lanes, okAt w (roam1 (2 ^ 21 + 8) 0) l far farPerm
      ∧ departs (roam1 (2 ^ 21 + 8) 0) (.ld ⟨0, 4, 2, 0, 3, 0, 0⟩) l far farPerm = true)
    ∧ ∀ l ∈ (roam1 (2 ^ 21 + 8) 0).iss.lanes, ((roam1 (2 ^ 21 + 8) 0).T l.tk).kind ≠ 2 :=
  ⟨_, rfl, issues (by decide +kernel), by unfold okAt; decide +kernel, by decide +kernel⟩
/-- A load of a sealed page whose line no cache holds, one whose line the core's L1 holds, and one whose line its L2 slice holds. -/
theorem witness_SealedLoads : ∀ n ∈ [0, 1, 2], let s0 := one (3 * 2 ^ 21) 0
    let s : State := { s0 with reps := if n = 0 then [] else
      [{ ctx := 1, line := 49152, holder := if n = 1 then s0.l1Of 0 49152 else l2Of 0 49152, way := 0, data := 7, lo := some ⟨pgKey 1 0 1 1, 0, true⟩, hi := some ⟨pgKey 1 0 1 1, 0, true⟩ }] }
    ∃ w h e, memWord (.ldr ⟨0, 4, 2, 0, 3, 0, 0⟩) = some w ∧ w.kind = .load ∧ Issues (.ldr ⟨0, 4, 2, 0, 3, 0, 0⟩) s
    ∧ s.iss.lanes.filter (s.active (w.p == 1)) = [⟨0, 0⟩] ∧ okAt w s ⟨0, 0⟩ h e ∧ e.s = true ∧ (s.T 0).pend = []
    ∧ (s.replica 0 1 (3 * 2 ^ 21)).isSome = decide (n ≠ 0) := by
  intro n hn
  refine ⟨_, { far with hg := 1, ofs := 0 }, permOf (pgKey 1 0 1 1) (pageOf .sealed true true false 1), rfl, rfl, issues ?_, ?_, ?_, rfl, rfl, ?_⟩
  · revert n; decide +kernel
  · revert n; decide +kernel
  · unfold okAt; revert n; decide +kernel
  · revert n; decide +kernel
/-- A misaligned address, an address above 2^56 and one in no region; a page of which the core knows nothing. -/
theorem witness_MemoryChecks :
    (∃ w, memWord (.ld ⟨0, 4, 2, 0, 3, 0, 0⟩) = some w ∧ Issues (.ld ⟨0, 4, 2, 0, 3, 0, 0⟩) (one (2 ^ 21 + 1) 0)
      ∧ ∀ l ∈ (one (2 ^ 21 + 1) 0).iss.lanes, (one (2 ^ 21 + 1) 0).active (w.p == 1) l = true
        ∧ (one (2 ^ 21 + 1) 0).check l (w.ea (one (2 ^ 21 + 1) 0) l) w.size w.need w.tier = .fault .misaligned)
    ∧ (∃ w p, memWord (.ld ⟨0, 4, 2, 0, 3, 0, 0⟩) = some w ∧ Issues (.ld ⟨0, 4, 2, 0, 3, 0, 0⟩) (one (2 ^ 23) 0) ∧ (one (2 ^ 23) 0).iss.lanes = [⟨0, 0⟩]
      ∧ (one (2 ^ 23) 0).active (w.p == 1) ⟨0, 0⟩ = true ∧ (one (2 ^ 23) 0).check ⟨0, 0⟩ (w.ea (one (2 ^ 23) 0) ⟨0, 0⟩) w.size w.need w.tier = .probe p)
    ∧ (bits (W (2 ^ 56)) 63 56 ≠ 0) ∧ bits (W (2 ^ 56 - 8)) 63 56 = 0 ∧ (W (2 ^ 56 - 8)).toNat % 8 = 0
      ∧ (one 0 0).homeAt (one 0 0).iss.core (one 0 0).iss.ctx (W (2 ^ 56 - 8)).toNat = none :=
  ⟨⟨_, rfl, issues (by decide +kernel), by decide +kernel⟩,
   ⟨_, { ctx := 1, key := pgKey 1 0 0 2, home := 0, chip := 0, schip := 0, src := 0, tk := 0, again := false }, rfl, issues (by decide +kernel), rfl, by decide +kernel,
    by decide +kernel⟩, by decide +kernel⟩

/-! Homes and answers -/

/-- One lane's request for address 2^21 + 8, and the page it goes to. -/
def mlane : MLane := ⟨0, 7, ⟨0, 0, 0⟩, 0, 2 ^ 21 + 8, 8, 9, 0, 1⟩
def mreq (op : MOp) : MemReq := ⟨op, 1, 1, 0, 0, [mlane], 0, 0⟩
def farPage : Page := pageOf .mapped true true false 0
/-- The helper part with another entry for that page. -/
def paged (p : Page) : State := { live with pages := [(pgKey 1 0 1 0, p)] }
/-- An event with its payload at the helper part. -/
def got (a : Arg) : State := State.carry live a

theorem witness_HomeReads : ∃ r sx l0 h p, (got (.req (mreq (.load true)))).ev = .req r ∧ r.op = .load sx ∧ AtHome (got (.req (mreq (.load true)))) r l0 h p
    ∧ Grants p true false ∧ p.tier ≠ 2 ∧ (got (.req (mreq (.load true)))).poison = [] :=
  ⟨mreq (.load true), true, mlane, far, farPage, rfl, rfl, by unfold AtHome; decide +kernel, by unfold Grants; decide, by decide, rfl⟩
/-- A lane's request, and one of an engine for bytes 1 and 3 of the granule. -/
theorem witness_HomeWrites : (∃ r l h p, let s := got (.req { mreq .store with lanes := [{ mlane with tk := 2 ^ 30, cmp := 10, mode := 0 }] });
      s.ev = .req r ∧ r.op = .store ∧ r.lanes = [l] ∧ l.agent = true ∧ l.mode = 0 ∧ s.homeOf r.ctx l.ea = some h ∧ h.chip = s.chip ∧ h.core = r.home
      ∧ s.pages.get? (h.key r.ctx) = some p ∧ Grants p false true ∧ p.tier ≠ 2 ∧ s.poison = [] ∧ Memory.wf s.mem = true)
    ∧ ∃ r l0 h p, (got (.req (mreq .store))).ev = .req r ∧ r.op = .store ∧ AtHome (got (.req (mreq .store))) r l0 h p
    ∧ Grants p false true ∧ p.tier ≠ 2 ∧ (got (.req (mreq .store))).poison = [] ∧ Memory.wf (got (.req (mreq .store))).mem = true ∧ r.lanes = [l0] :=
  ⟨⟨{ mreq .store with lanes := [{ mlane with tk := 2 ^ 30, cmp := 10, mode := 0 }] }, _, far, farPage, rfl, rfl, rfl, by decide, rfl, by decide +kernel, rfl, rfl, by decide +kernel,
    by unfold Grants; decide, by decide, rfl, rfl⟩,
   mreq .store, mlane, far, farPage, rfl, rfl, by unfold AtHome; decide +kernel, by unfold Grants; decide, by decide, rfl, rfl, rfl⟩
/-- An ATOM of 64 bits, and a combined group of fadds. -/
theorem witness_HomeAtomics : ∀ x ∈ [(0, false), (13, true)], ∃ r l0 h p, let s := got (.req (mreq (.atom x.1 true true x.2)));
    s.ev = .req r ∧ r.op = .atom x.1 true true x.2 ∧ AtHome s r l0 h p ∧ Grants p true true ∧ p.tier ≠ 2 ∧ s.poison = []
    ∧ s.agenda.any (s.otherInput r.home (r.chip == s.chip && r.core == r.home)) = false := by
  intro x hx
  refine ⟨mreq (.atom x.1 true true x.2), mlane, far, farPage, rfl, rfl, ?_, by unfold Grants; decide, by decide, rfl, rfl⟩
  unfold AtHome
  revert x
  decide +kernel
theorem witness_HomeWatches : ∃ r l h p, (got (.req (mreq .watch))).ev = .req r ∧ r.op = .watch ∧ r.lanes = [l] ∧ AtHome (got (.req (mreq .watch))) r l h p
    ∧ Grants p true false ∧ p.tier ≠ 2 ∧ (got (.req (mreq .watch))).poison = [] :=
  ⟨mreq .watch, mlane, far, farPage, rfl, rfl, rfl, by unfold AtHome; decide +kernel, by unfold Grants; decide, by decide, rfl⟩
/-- A page that is RETIRED, one that may not be read, one that is REHOMING and one that is UNMAPPED, for a load; RETIRED, sealed, REHOMING and UNMAPPED for a
store. -/
theorem witness_HomeRefusals :
    (∀ p ∈ [{ farPage with st := .retired }, { farPage with rd := false }, { farPage with st := .rehoming }, { farPage with st := .unmapped }],
      AtHome (State.carry (paged p) (.req (mreq (.load false)))) (mreq (.load false)) mlane far p ∧ (mreq (.load false)).core ≠ 0x1ff
      ∧ (p.st = .retired ∨ (p.st ≠ .rehoming ∧ p.rd = false) ∨ p.st = .rehoming ∨ (p.st = .unmapped ∧ p.rd = true)))
    ∧ ∀ p ∈ [{ farPage with st := .retired }, { farPage with s := true }, { farPage with st := .rehoming }, { farPage with st := .unmapped }],
      AtHome (State.carry (paged p) (.req (mreq .store))) (mreq .store) mlane far p ∧ (mreq .store).core ≠ 0x1ff ∧ (mreq .store).lanes = [mlane] ∧ (paged p).slogCount 1 < 524288
      ∧ (p.st = .retired ∨ (p.st ≠ .rehoming ∧ p.s = true) ∨ p.st = .rehoming ∨ (p.st = .unmapped ∧ p.wr = true ∧ p.s = false)) := by
  constructor <;> intro p hp <;> (refine ⟨?_, ?_⟩ <;> (try unfold AtHome) <;> revert p <;> decide +kernel)

/-- An access and a lock of transaction 7. -/
def acc7 : Acc := { id := 7, kind := .load, line := some 16384, pkind := 0, acq := false, rel := false, scope := 0, held := [], out := 7, pc := 96, d := 4, ea := 2 ^ 21
                    heldAt := none, recd := false }
def lock7 : Lock := { id := 7, d := 4, regs := gbit 4, left := 0, active := true, due := none, val := some 5, fl := 0 }
/-- A roaming thread 32 that waits for transaction 7. -/
def asked (k : List Lock) : State := { live with thr := [(32, { thr 0 [] with pend := [acc7], locks := k })] }
theorem witness_Answers :
    (let s := State.carry (asked [lock7]) (.resp 32 7 (.data 9 0));
      (32 : Nat) ≠ 2 ^ 31 ∧ s.waiter 32 7 = some 32 ∧ (s.T 32).cq = none ∧ (s.T 32).locks.find? (·.id == 7) = some lock7)
    ∧ (let s := State.carry (asked []) (.resp 32 7 .ack);
      s.waiter 32 7 = some 32 ∧ (s.T 32).cq = none ∧ (s.T 32).kind ≠ 2 ∧ (s.T 32).st = .ready)
    ∧ ((State.carry (asked [lock7]) (.lock 32 7)).T 32).locks.find? (·.id == 7) = some lock7
    ∧ let s := State.carry (asked [lock7]) (.resp 32 7 (.refused .permission 0));
      s.waiter 32 7 = some 32 ∧ (s.T 32).cq = none ∧ (s.T 32).pend.find? (·.id == 7) = some acc7 ∧ (s.T 32).ptrap = [] ∧ (s.T 32).st = .ready
      ∧ (s.T 32).locks.all (·.id == 7) = true ∧ (s.T 32).frames.length < 4 ∧ (s.T 32).handler ≠ 0 ∧ s.targetFault 32 (s.T 32).handler.toNat = none
      ∧ s.targetNeeds 32 (s.T 32).handler.toNat = none ∧ ∀ b ∈ (s.T 32).pend, b.acq = false := by decide +kernel

/-! Threads -/

/-- A trap that waits. -/
def info0 : TrapInfo := { cause := .permission, pc := 96, addr := 5, info := 0, word := 0 }
/-- The departure of a load of address 2^21 + 8. -/
def mig0 (mg : Bool) : Mig := { ea := 2 ^ 21 + 8, sz := 3, sx := false, d := 4, mg := mg, acq := false, scope := 0, pc := 96 }
/-- A knight with two registers. -/
def knight0 (mg : Bool) : Knight :=
  { ctx := 1, kern := 0, mig := mig0 mg, round := 1, pw := false, number := 3, carry := 6, pcw := 24, pdepth := 0, pent := 0, flags := 0, trapen := 0, srng := 5
    regs := [(1, 10), (2, 20)], posted := [] }
/-- The helper part where core 1 holds context 1, or does not. -/
def home1 (has : Bool) : State :=
  { live with cores := [(0, core0), (1, { CoreSt.blank with bank := CoreSt.blank.bank.setIfInBounds 0 (if has then some 1 else none) })] }
/-- A departure without and with a trap that waits; a knight that is taken in, one that is parked and one that is forwarded. -/
theorem witness_Knights :
    (∀ w ∈ [[], [info0]], let s := State.carry { live with thr := [(32, { thr 0 [] with st := .blocked, wait := .depart, mig := some (mig0 false), ptrap := w })] } (.thread 32);
      (s.T 32).mig = some (mig0 false) ∧ (s.T 32).st = .blocked ∧ (s.T 32).wait = .depart ∧ (s.T 32).locks = [] ∧ (s.T 32).pend = [] ∧ (s.T 32).ptrap = w
      ∧ s.homeAt (coreOfTk 32) (s.T 32).ctx (mig0 false).ea = some far)
    ∧ (let s := State.carry (home1 true) (.knight 1 (knight0 true)); HomedHere s 1 (knight0 true).mig.ea 1 ∧ Claims.Taken s 1 1 0)
    ∧ (let s := State.carry (home1 false) (.knight 1 (knight0 true)); HomedHere s 1 (knight0 true).mig.ea 1 ∧ Parks s 1 (.knight (knight0 true)))
    ∧ (let s := State.carry live (.knight 0 (knight0 true)); homeIn (s.ctx 1).ptab (knight0 true).mig.ea = some far ∧ ¬ (far.chip = s.chip ∧ far.core = 0)) := by
  have e : ∀ a, homeIn ((State.carry (home1 a) (.knight 1 (knight0 true))).ctx 1).ptab (knight0 true).mig.ea = some far := by decide +kernel
  refine ⟨by decide +kernel, ⟨?_, by unfold Claims.Taken; decide +kernel⟩, ⟨?_, by unfold Parks; decide +kernel⟩, by decide +kernel⟩ <;>
    exact fun h hh => by rw [e] at hh; injection hh with hh; rw [← hh]; exact ⟨rfl, rfl⟩
/-- A pawn's record. -/
def spawn0 : Spawn := { ctx := 1, kern := 0, ln := false, g0 := W (2 ^ 21 + 8), g1 := 7, pcw := 0, srng := 5, number := 0, addr := 2 ^ 21 + 8, chip := 0, core := 0, tid := ⟨0, 0, 3⟩ }
/-- A SPAWN; a record that leaves; one that becomes a thread, one that is parked, one that is forwarded; and a parked one that takes a slot. -/
theorem witness_Pawns :
    (let s := roamAt [(2, 2 ^ 21 + 8), (3, 2 ^ 30 - 4), (4, 9)];
      passes (.spawn ⟨0, 3, 2, 4⟩) s = true ∧ ∀ l ∈ s.iss.lanes, (s.rT l.tk).ctx = s.iss.ctx ∧ (s.rT l.tk).ktab = 0 ∧ ((s.rT l.tk).gr 3).toNat % 4 = 0
        ∧ s.inCode (s.rT l.tk) ((s.rT l.tk).gr 3).toNat = true ∧ ((s.rT l.tk).gr 3).toNat < 2 ^ 56 ∧ bits ((s.rT l.tk).gr 2) 63 56 = 0
        ∧ s.homeAt s.iss.core s.iss.ctx ((s.rT l.tk).gr 2).toNat = some far)
    ∧ (let s := State.carry (asked []) (.spawn 0 1 32 7 spawn0); (s.T 32).waiting = false ∧ (s.T 32).kind ≠ 2)
    ∧ (let s := State.carry (home1 true) (.spawn 0 1 32 7 spawn0); HomedHere s 1 spawn0.addr 1 ∧ Claims.Taken s 1 1 0)
    ∧ (let s := State.carry (home1 false) (.spawn 0 1 32 7 spawn0); HomedHere s 1 spawn0.addr 1 ∧ Parks s 1 (.spawn spawn0))
    ∧ (let s := State.carry live (.spawn 0 0 32 7 spawn0); homeIn (s.ctx 1).ptab spawn0.addr = some far ∧ ¬ (far.chip = s.chip ∧ far.core = 0))
    ∧ ∀ r ∈ [ORec.spawn spawn0, .knight (knight0 true)], let s := State.carry { home1 true with ovf := [(65, [(r, false)])] } (.core 1);
      (s.core 1).bank.getD (s.core 1).active none = some 1 ∧ s.freeSlot 1 = some 0 ∧ s.ovfOf 1 1 = [(r, false)] ∧ s.ctxActive 1 1 = true := by
  have e : ∀ a, homeIn ((State.carry (home1 a) (.spawn 0 1 32 7 spawn0)).ctx 1).ptab spawn0.addr = some far := by decide +kernel
  refine ⟨by decide +kernel, by decide +kernel, ⟨?_, by unfold Claims.Taken; decide +kernel⟩, ⟨?_, by unfold Parks; decide +kernel⟩, by decide +kernel, by decide +kernel⟩ <;>
    exact fun h hh => by rw [e] at hh; injection hh with hh; rw [← hh]; exact ⟨rfl, rfl⟩
/-- HOMEQ; MIGR at home; MIGR elsewhere without and with a frame. -/
theorem witness_WhereAndMove :
    passes (.homeq ⟨0, 4, 2⟩) (roam1 (2 ^ 60) 0) = true
    ∧ (let s := roam1 (2 ^ 22) 0;
      passes (.migr ⟨0, 4, 2⟩) s = true ∧ ∀ l ∈ s.iss.lanes, bits ((s.rT l.tk).gr 2) 63 56 = 0
        ∧ (s.homeAt s.iss.core s.iss.ctx ((s.rT l.tk).gr 2).toNat).map (fun h => (h.chip, h.core)) = some (s.chip, s.iss.core))
    ∧ ∀ fs ∈ [[], [frame0]], let s := { roam1 (2 ^ 21 + 8) 0 with thr := [(32, { thr 0 [(2, 2 ^ 21 + 8)] with frames := fs })] };
      passes (.migr ⟨0, 4, 2⟩) s = true ∧ s.iss.lanes = [⟨32, 0⟩] ∧ bits ((s.rT 32).gr 2) 63 56 = 0
      ∧ s.homeAt s.iss.core s.iss.ctx ((s.rT 32).gr 2).toNat = some far ∧ ¬ (far.chip = s.chip ∧ far.core = s.iss.core) ∧ (s.rT 32).frames = fs := by decide +kernel
theorem witness_ThreadEvents :
    (let s := State.carry { live with thr := [(32, { thr 0 [] with st := .blocked, wait := .exitDrain 96 })] } (.thread 32);
      (s.T 32).st = .blocked ∧ (s.T 32).wait = .exitDrain 96 ∧ (s.T 32).pend = [] ∧ (s.T 32).locks = [] ∧ (s.T 32).kind ≠ 2 ∧ (s.T 32).fw = false
      ∧ (s.T 32).dying = false ∧ s.spawned = [])
    ∧ (let s := State.carry (with0 (one 0 0) fun t => { t with st := .blocked, wait := .exitDrain 96 }) (.thread 0);
      (s.T 0).wait = .exitDrain 96 ∧ (s.T 0).kind = 2 ∧ (s.T 0).dying = false ∧ (s.C (ckOfTk 0)).live ≠ BitVec.ofNat 32 (2 ^ (slotOfTk 0 % 32)))
    ∧ (let s := State.carry (with0 (one 0 0) fun t => { t with st := .blocked, wait := .trap, ptrap := [info0] }) (.thread 0);
      (s.T 0).st = .blocked ∧ (s.T 0).wait = .trap ∧ (s.T 0).locks = [] ∧ (s.T 0).ptrap = [info0] ∧ info0.cause ≠ .uncorrectable ∧ (s.T 0).frames.length < 4
      ∧ (s.T 0).handler ≠ 0 ∧ s.targetFault 0 (s.T 0).handler.toNat = none
      ∧ s.targetNeeds 0 (s.T 0).handler.toNat = none)
    ∧ (∀ d ∈ [100, 101], let s := State.carry (with0 (one 0 0) fun t => { t with st := .blocked, wait := .sleep, sleepAt := some d }) (.thread 0);
      (s.T 0).sleepAt = some d ∧ (s.T 0).st = .blocked ∧ (s.T 0).wait = .sleep ∧ (s.T 0).ptrap = [] ∧ s.clockOf 0 = 100)
    ∧ (live.tagent 1 0).gone = [] ∧ (⟨0, 2, 5⟩ : TId).kind ≠ 1
    ∧ { live with spawned := [(1, ⟨0, 2, 37⟩)] }.spawnsOut 1 ⟨0, 2, 32⟩ = true ∧ live.spawnsOut 1 ⟨0, 2, 5⟩ = false ∧ live.kernChip 1 0 = live.chip := by decide +kernel

/-! Fences, seals, probes, the directory -/

theorem witness_FenceAndWatch :
    (passes (.fence ⟨0, 3, 5⟩) (one 0 0) = true ∧ passes (.fence ⟨0, 1, 0⟩) (one 0 0) = true
      ∧ ∀ l ∈ (one 0 0).iss.lanes, ((one 0 0).T l.tk).ptrap = [] ∧ (((one 0 0).T l.tk).kind = 2 → ∀ b ∈ ((one 0 0).C (ckOfTk l.tk)).bind, b.wb = true → b.marks = []))
    ∧ passes (.waitw ⟨0, 3, 2, 1, 0, 0⟩) (one (2 ^ 21 + 8) 0) = true
    ∧ ∀ l ∈ (one (2 ^ 21 + 8) 0).iss.lanes, (one (2 ^ 21 + 8) 0).check l (((one (2 ^ 21 + 8) 0).rT l.tk).gr 2 + (0 : BitVec 5).signExtend 64 * W 8) 8 ⟨true, false, false⟩
        (fun _ => true) = .ok far farPerm := by decide +kernel
/-- A page message of a lane. -/
def sealQ (un : Bool) : SealQ := { ctx := 1, key := pgKey 1 0 1 0, home := 1, hchip := 0, un := un, tk := 32, id := 7, addr := 2 ^ 21, chip := 0, core := 0 }
/-- A thread that waits for the answers of a SEAL. -/
def sealing : State := { live with thr := [(32, { thr 0 [] with st := .blocked, wait := .pages, pend := [{ acc7 with kind := .seal }] })] }
/-- Length 0, a range that ends beyond its region, and a range inside; then the two answers. -/
theorem witness_SealWords :
    (∀ n ∈ [0, 2 ^ 30 - 2 ^ 21 + 1, 2 ^ 30 - 2 ^ 21], let s := crewAt 1 fun _ => [(2, 2 ^ 21), (3, n)];
      passes (.seal ⟨0, 3, 2, 0⟩) s = true ∧ passes (.unseal ⟨0, 3, 2, 0⟩) s = true ∧ ∀ l ∈ s.iss.lanes, s.active false l = true
        ∧ bits ((s.rT l.tk).gr 2) 63 56 = 0 ∧ inRegion (s.tabOf s.iss.core s.iss.ctx) (2 ^ 21) ((s.rT l.tk).gr 3).toNat = decide (n ≤ 2 ^ 30 - 2 ^ 21))
    ∧ (let s := State.carry sealing (.sealAns (sealQ true) .ack);
      (s.T 32).st = .blocked ∧ (s.T 32).wait = .pages ∧ (s.T 32).ptrap = [] ∧ ∀ a ∈ (s.T 32).pend, a.kind = .seal → a.id = (sealQ true).id)
    ∧ let s := State.carry sealing (.sealAns (sealQ false) (.refused .permission 0));
      (s.T 32).st = .blocked ∧ (s.T 32).wait = .pages ∧ (s.T 32).ptrap = [] ∧ (s.T 32).locks = [] ∧ (s.T 32).pend = [{ acc7 with kind := .seal }] := by decide +kernel
/-- For SEAL: MAPPED with the right, without the right, UNMAPPED; for UNSEAL: MAPPED, RETIRED, SEALED with tokens; and a message at another core. -/
theorem witness_SealHomes : (∀ p ∈ [farPage, { farPage with wr := false }, { farPage with st := .unmapped }, { farPage with st := .retired },
      { farPage with st := .sealed, s := true, tokens := 1 }],
    let s := State.carry (paged p) (.seal (sealQ false));
    s.homeOf 1 (sealQ false).addr = some { far with ofs := 0 } ∧ far.chip = s.chip ∧ far.core = (sealQ false).home
    ∧ s.pages.get? (pgKey 1 0 1 0) = some p ∧ s.frameShared (pgKey 1 0 1 0) p = false
    ∧ ((p.st = .mapped ∧ p.wr = true) ∨ p.wr = false ∨ p.st = .retired ∨ (p.st = .unmapped ∧ p.wr = true) ∨ (p.st = .sealed ∧ p.wr = true ∧ 0 < p.tokens)))
    ∧ let s := State.carry live (.seal { sealQ true with home := 0 });
      s.homeOf 1 (sealQ true).addr = some { far with ofs := 0 } ∧ ¬ (far.chip = s.chip ∧ far.core = 0) := by
  decide +kernel
/-- A line fill of that page for a cache of core 0, or for none. -/
def fill0 (alloc : Bool) (core : Nat) : Fill :=
  { ctx := 1, home := 1, chip := 0, core := core, holder := if alloc then some core else none, epoch := 0, code := false, strict := true, sx := false, lane := mlane }
/-- A line of that page that core 0 holds with a token. -/
def rep0 : Rep := { ctx := 1, line := 16384, holder := 0, way := 0, data := 5, lo := some ⟨pgKey 1 0 1 0, 0, true⟩, hi := none }
/-- A recall with and without a line of the page; a token that is not the last, and the last; fills of a SEALED page for a cache of the home's die and for none,
of an UNSEALING page and of one that is not sealed. -/
theorem witness_TokensAndFills :
    ((State.carry { live with reps := [rep0] } (.n2 (pgKey 1 0 1 0) 0)).ev = .n2 (pgKey 1 0 1 0) 0)
    ∧ (let s := State.carry (paged { farPage with st := .unsealing, s := true, tokens := 2 }) (.n2 (pgKey 1 0 1 0) 1);
      s.pages.get? (pgKey 1 0 1 0) = some { farPage with st := .unsealing, s := true, tokens := 2 } ∧ ¬ (2 ≤ 1))
    ∧ (let s := State.carry (paged { farPage with st := .unsealing, s := true, tokens := 2 }) (.n2 (pgKey 1 0 1 0) 2);
      s.pages.get? (pgKey 1 0 1 0) = some { farPage with st := .unsealing, s := true, tokens := 2 } ∧ 2 ≤ 2)
    ∧ ∀ p ∈ [{ farPage with st := .sealed, s := true }, { farPage with st := .unsealing, s := true }, farPage], ∀ a ∈ [true, false],
      let s := State.carry (paged p) (.fill (fill0 a 0));
      s.homeOf 1 mlane.ea = some far ∧ far.chip = s.chip ∧ far.core = (fill0 a 0).home ∧ s.pages.get? (far.key 1) = some p ∧ p.rd = true ∧ s.poison = []
      ∧ ((fill0 a 0).holder.isSome = a ∧ (fill0 a 0).chip = s.chip ∧ dieOf 0 = dieOf far.core)
      ∧ ((p.st = .sealed ∧ p.s = true) ∨ (p.st = .unsealing ∧ p.s = true) ∨ (p.st = .mapped ∧ p.s = false)) := by decide +kernel
/-- A probe of a page of core 1, and its reply. -/
def probe0 : Probe := { ctx := 1, key := pgKey 1 0 1 0, home := 1, chip := 0, schip := 0, src := 0, tk := 32, again := false }
theorem witness_Probes :
    (State.carry live (.probe probe0)).ev = .probe probe0 ∧ (State.carry live (.probeReply probe0 farPerm)).ev = .probeReply probe0 farPerm
    ∧ farPerm.ctx = probe0.ctx ∧ farPerm.chip = probe0.chip ∧ farPerm.key = probe0.key
    ∧ let s := State.carry { live with thr := [(32, { thr 0 [] with st := .blocked, wait := .probe 0 (pgKey 1 0 1 0) false })] } (.probeReply probe0 farPerm);
      ∀ x ∈ s.thr, s.thr.get? x.1 = some x.2 ∧ coreOfTk x.1 = probe0.src ∧ x.2.ctx = probe0.ctx ∧ x.2.st = .blocked ∧ x.2.wait = .probe probe0.chip probe0.key false
        ∧ x.2.ptrap = [] := by decide +kernel
/-- A deferred record of the thread, and the threads that ask for it. -/
def rec0 : DRec := { tid := ⟨0, 0, 0⟩, addr := 2 ^ 21, pcw := 24, cause := .permission, info := 0 }
theorem witness_Directory :
    (live.dir 1).waiting = [] ∧ (live.dir 1).set = false ∧ (∀ y ∈ (live.core 0).logpend, y.1 = 1 → y.2.1 < 1)
    ∧ (live.dir 1).count ⟨0, 0, 0⟩ = 0
    ∧ (∀ w ∈ [Wait.dirTrapf 96, .exitDir 96], let s := State.carry { live with thr := [(32, { thr 0 [] with st := .blocked, wait := w })] } (.dirReply 32 none);
      (s.T 32).ptrap = [] ∧ (s.T 32).wait = w)
    ∧ ∀ w ∈ [Wait.dirTrapf 96, .exitDir 96], let s := State.carry { live with thr := [(32, { thr 0 [] with st := .blocked, wait := w })] } (.dirReply 32 (some rec0));
      ((s.T 32).wait = .dirTrapf 96 ∨ ((s.T 32).wait = .exitDir 96 ∧ (s.T 32).dying = false)) ∧ (s.T 32).ptrap = [] ∧ (s.T 32).locks = [] ∧ (s.T 32).frames.length < 4
      ∧ (s.T 32).handler ≠ 0 ∧ s.targetFault 32 (s.T 32).handler.toNat = none
      ∧ s.targetNeeds 32 (s.T 32).handler.toNat = none := by decide +kernel

/-! Groups, windows, barriers, tempos -/

/-- Crew 0 as member 2 of group 3, with s5 = 3; `f` changes the crew and `b` its membership. -/
def memb0 : Memb := { g := 3, m := 2, nmem := 4, gang := true, win := true, chip := 0, st := .none, joined := [], waitw := [], need := [], queue := [] }
def gent0 : GEnt := { v := true, gang := true, win := true, nmem := 4, mlist := 0 }
def team (b : Memb → Memb) (f : Crew → Crew) : State :=
  { withCrew pair (fun c => f { c with s := sregs [(5, 3), (6, 256)], memb := [b memb0] }) with groups := [(259, gent0)] }
/-- A window access of lane 0, outstanding as transaction 7. -/
def ldw7 : Acc := { id := 7, kind := .ldw, line := none, pkind := 3, acq := false, rel := false, scope := 0, held := [], out := 7, pc := 96, d := 4, ea := 2 ^ 33, heldAt := none, recd := false }
/-- Lane 0 of the team with a window access outstanding. -/
def busyTeam (f : Crew → Crew) : State := with0 (team id f) fun t => { t with pend := [ldw7] }
/-- A membership record and none; WOPEN in every state of the crew's window, for its group and another; a group that is none; a reserved bit; WDET with and
without an access outstanding, the last answer, and WDET without a window. -/
theorem witness_GroupWords :
    (Issues (.gqry ⟨0, 5, 4⟩) (team id id) ∧ (team id id).iss.crew = some 0 ∧ GroupOf (team id id) 0 5 3 gent0 memb0)
    ∧ (passes (.gqry ⟨0, 7, 4⟩) (team id id) = true ∧ passes (.wopen ⟨0, 7, 4⟩) (team id id) = true ∧ (team id id).sreg 7 = W 0
      ∧ (team id id).groups.get? (((team id id).C 0).ctx * 256 + 0) = none)
    ∧ (∀ a ∈ [Att.none, .attached, .opening, .departed], ∀ n ∈ [3, 9],
      passes (.wopen ⟨0, 5, 4⟩) (team id fun c => { c with att := a, winG := n }) = true ∧ ((team id fun c => { c with att := a, winG := n }).C 0).att = a
      ∧ ((team id fun c => { c with att := a, winG := n }).C 0).winG = n ∧ gent0.win = true)
    ∧ (∀ a ∈ [Att.none, .attached, .opening, .departed], GroupOf (team id fun c => { c with att := a }) 0 5 3 gent0 memb0)
    ∧ (passes (.gqry ⟨0, 6, 4⟩) (team id id) = true ∧ passes (.wopen ⟨0, 6, 4⟩) (team id id) = true ∧ bits ((team id id).sreg 6) 63 8 ≠ 0)
    ∧ (∀ a ∈ [Att.opening, .attached], let f : Crew → Crew := fun c => { c with att := a, winG := 3 };
      passes (.wdet ⟨0⟩) (team id f) = true ∧ CrewLanes (team id f) 0 ∧ (team id f).iss.lanes ≠ [] ∧ ((team id f).C 0).att = a
      ∧ (∀ l, l < 32 → ∀ x ∈ ((team id f).T (laneTk 0 l)).pend, x.kind ≠ .ldw ∧ x.kind ≠ .stw)
      ∧ passes (.wdet ⟨0⟩) (busyTeam f) = true ∧ CrewLanes (busyTeam f) 0 ∧ (∃ l, l < 32 ∧ ∃ x ∈ ((busyTeam f).T (laneTk 0 l)).pend, x.kind = .ldw))
    ∧ (let s := State.carry (busyTeam fun c => { c with att := .attached, winG := 3, wdet := [1] }) (.resp 0 7 .ack);
      s.waiter 0 7 = some 0 ∧ (s.T 0).cq = none ∧ (s.T 0).kind = 2 ∧ ckOfTk 0 = 0 ∧ (s.C 0).wdet ≠ [] ∧ (s.C 0).att = .attached
      ∧ ∀ l, l < 32 → ∀ x ∈ (s.T (laneTk 0 l)).pend, x.kind = .ldw ∨ x.kind = .stw → laneTk 0 l = 0 ∧ x.id = 7)
    ∧ ∀ a ∈ [Att.none, .departed], passes (.wdet ⟨0⟩) (team id fun c => { c with att := a }) = true ∧ ((team id fun c => { c with att := a }).C 0).att = a := by
  refine ⟨⟨issues (by decide +kernel), rfl, by unfold GroupOf; decide +kernel⟩, by decide +kernel, by decide +kernel, by unfold GroupOf; decide +kernel, by decide +kernel,
    by unfold CrewLanes; decide +kernel, by decide +kernel, by decide +kernel⟩
/-- Member 2's window address 8, of a share of 4096 bytes on core 0. -/
def windowed (a : Att) : State :=
  { withCrew (one (2 ^ 33 + 4088) 9) (fun c => { c with s := sregs [(5, 3)], memb := [memb0], att := a, winG := 3, wmem := [(2, 0, 0, 0, 4096)] }) with groups := [(259, gent0)] }
def wreq (op : MOp) : MemReq := { mreq op with home := 0, sum := 3, lanes := [{ mlane with ea := 2 ^ 33 + 4088 }] }
theorem witness_WindowAccess :
    (passes (.ldw ⟨0, 4, 2, 0, 3, 0, 0⟩) (windowed .attached) = true ∧ passes (.stw ⟨0, 3, 2, 3, 0, 0⟩) (windowed .attached) = true
      ∧ (windowed .attached).iss.crew = some 0 ∧ ((windowed .attached).C 0).att = .attached
      ∧ ∀ l ∈ (windowed .attached).iss.lanes, let ea := ((windowed .attached).rT l.tk).gr 2 + (0 : BitVec 5).signExtend 64 * W 8
        ea.toNat % 8 = 0 ∧ bits ea 63 44 = 0 ∧ bits ea 31 19 = 0 ∧ ((windowed .attached).C 0).wmem.find? (·.1 == bits ea 43 32) = some (2, 0, 0, 0, 4096) ∧ bits ea 18 0 < 4096)
    ∧ (∀ op ∈ [MOp.load false, .store], let s := State.carry (windowed .attached) (.req (wreq op));
      s.memberAt (wreq op).home (wreq op).ctx (wreq op).sum ((2 ^ 33 + 4088) / 2 ^ 32 % 4096) = some 0 ∧ (s.C 0).att ≠ .departed ∧ (s.C 0).st ≠ .suspended
      ∧ (s.C 0).st ≠ .placed)
    ∧ let s := State.carry (windowed .departed) (.req (wreq (.load false)));
      s.memberAt 0 1 3 2 = some 0 ∧ (s.C 0).att = .departed := by decide +kernel
/-- The window's member as its agent knows it. -/
def wmem0 (m : Nat) (a : Att) : WMem := { m := m, chip := 0, core := 0, ck := 0, size := 4096, att := a }
theorem witness_WindowAgent :
    (State.carry (team id id) (.n6 1 3 2 0 0 4096)).gent 1 3 = some gent0 ∧ ((team id id).gagent 1 3).opened = false
    ∧ (let s := { team id id with gagents := [(259, { (team id id).gagent 1 3 with win := .attached, mem := [wmem0 2 .attached, wmem0 1 .attached] })] };
      (s.gagent 1 3).win = .attached ∧ (s.gagent 1 3).mem.any (·.m == 2) = true)
    ∧ (let s := State.carry { team id id with gagents := [(259, { (team id id).gagent 1 3 with admitted := true, mem := [wmem0 1 .attached] })] } (.n6 1 3 2 0 0 0);
      (s.gagent 1 3).admitted = true ∧ ∀ x ∈ (s.gagent 1 3).mem, x.m ≠ 2)
    ∧ let s := team id fun c => { c with att := .opening, winG := 3, wopen := [(0, 4), (1, 5)] };
      s.memberAt 0 1 3 2 = some 0 ∧ (s.C 0).att ≠ .departed ∧ (∀ x ∈ (s.C 0).wopen, (s.T (laneTk 0 x.1)).ptrap = []) ∧ ((s.C 0).wopen.map fun x => laneTk 0 x.1).Nodup := by decide +kernel
/-- A group of which no lane has joined; one that a lane has joined; and words that name no group of the crew. -/
theorem witness_BarrierWords :
    (let s := team id id
     ∀ i ∈ [Instr.bar ⟨0, 5, 0⟩, .bara ⟨0, 5, 0⟩], Issues i s ∧ CrewLanes s 0 ∧ (s.iss.lanes.map (·.pos)).Nodup ∧ s.iss.lanes ≠ [] ∧ GroupOf s 0 5 3 gent0 memb0
      ∧ (0 : BitVec 4).getLsbD 3 = false ∧ memb0.st ≠ .arrived ∧ memb0.st ≠ .gathering)
    ∧ (let s := team (fun b => { b with st := .gathering, joined := [⟨0, false, none⟩, ⟨1, false, none⟩] }) id
     Issues (.barw ⟨0, 5, 0⟩) s ∧ CrewLanes s 0 ∧ GroupOf s 0 5 3 gent0 { memb0 with st := .gathering, joined := [⟨0, false, none⟩, ⟨1, false, none⟩] }
      ∧ ∀ l ∈ s.iss.lanes, [(⟨0, false, none⟩ : Join), ⟨1, false, none⟩].any (·.lane == l.pos) = true)
    ∧ (let s := team (fun b => { b with st := .arrived, joined := [⟨9, false, none⟩] }) id
     Issues (.barw ⟨0, 5, 0⟩) s ∧ CrewLanes s 0 ∧ GroupOf s 0 5 3 gent0 { memb0 with st := .arrived, joined := [⟨9, false, none⟩] }
      ∧ ∀ l ∈ s.iss.lanes, [(⟨9, false, none⟩ : Join)].any (·.lane == l.pos) = false)
    ∧ (Issues (.barw ⟨0, 5, 0⟩) (team id id) ∧ CrewLanes (team id id) 0 ∧ GroupOf (team id id) 0 5 3 gent0 memb0 ∧ memb0.st = .none ∧ (0 : BitVec 4).getLsbD 3 = false)
    ∧ (∀ i ∈ [Instr.bar ⟨0, 6, 0⟩, .bara ⟨0, 6, 0⟩, .barw ⟨0, 6, 0⟩], passes i (team id id) = true) ∧ bits ((team id id).sreg 6) 63 8 ≠ 0
    ∧ (∀ i ∈ [Instr.bar ⟨0, 7, 0⟩, .bara ⟨0, 7, 0⟩, .barw ⟨0, 7, 0⟩], passes i (team id id) = true) ∧ bits ((team id id).sreg 7) 63 8 = 0
    ∧ (team id id).membOf 0 0 = none := by
  refine ⟨fun i hi => ⟨issues (by revert i; decide +kernel), by unfold CrewLanes; decide +kernel, by decide +kernel, by decide +kernel, by unfold GroupOf; decide +kernel, by decide⟩,
    ⟨issues (by decide +kernel), by unfold CrewLanes; decide +kernel, by unfold GroupOf; decide +kernel, by decide +kernel⟩,
    ⟨issues (by decide +kernel), by unfold CrewLanes; decide +kernel, by unfold GroupOf; decide +kernel, by decide +kernel⟩,
    ⟨issues (by decide +kernel), by unfold CrewLanes; decide +kernel, by unfold GroupOf; decide +kernel, by decide⟩, by decide +kernel⟩
/-- A gathering that two lanes joined and whose release comes; an agent with no held arrival. -/
theorem witness_BarrierAgent :
    ((team id id).bagent 1 3).held = [] ∧ ((team id id).bagent 1 3).expect = 4 ∧ ((team id id).bagent 1 3).st ≠ .releasing
    ∧ let s := team (fun b => { b with st := .arrived, joined := [⟨0, true, none⟩, ⟨1, false, none⟩], waitw := [(1, none)] }) id;
      s.memberAt 0 1 3 2 = some 0 ∧ ((s.C 0).memb.find? (·.g == 3)).map (·.queue) = some [] ∧ ∀ l, l < 32 → (s.T (laneTk 0 l)).ptrap = [] := by decide +kernel
/-- The last word of the share with the greatest count, an offset and a count out of range, a misaligned offset, and one beyond the share. -/
theorem witness_ByteBarriers :
    (∀ x ∈ [(4088, 2 ^ 47 - 1), (0, 0), (2 ^ 19, 0), (8, 2 ^ 47), (4, 0), (4096, 0)], let s := withCrew (one 0 0) fun c => { c with s := sregs [(5, x.1), (6, x.2)] };
      passes (.bexp ⟨0, 5⟩) s = true ∧ passes (.barb ⟨0, 5⟩) s = true ∧ s.iss.crew = some 0 ∧ Memory.wf s.mem = true ∧ (s.sreg 5).toNat = x.1 ∧ (s.sreg 6).toNat = x.2
      ∧ (s.C 0).spSize = 4096) := by decide +kernel
/-- A waiting roaming thread. -/
def paced : State := { live with thr := [(32, { thr 0 [] with st := .blocked, wait := .tempo, tmp := some ⟨true, 4, 6, true⟩ })] }
theorem witness_Tempos :
    (∀ i ∈ [Instr.tempoOr ⟨0, 4⟩, .tempo ⟨0⟩], passes i pair = true ∧ passes i (roam1 0 0) = true)
    ∧ (pair.iss.crew = some 0 ∧ (∀ l ∈ pair.iss.lanes, l.pos < 32 ∧ l.tk = laneTk 0 l.pos) ∧ (pair.iss.lanes.map (·.pos)).Nodup ∧ (pair.C 0).tempo.sent = false
      ∧ (pair.C 0).tempo.joined = [] ∧ (pair.C 0).bind = [])
    ∧ ((roam1 0 0).iss.crew = none ∧ (roam1 0 0).iss.lanes = [⟨32, 0⟩] ∧ ((roam1 0 0).T 32).kind ≠ 2 ∧ ((roam1 0 0).T 32).pend = [] ∧ (roam1 0 0).spawned = [])
    ∧ ((State.carry paced (.trel 1 0 (.thread ⟨0, 0, 0⟩ 32) 6)).thr.find? (fun x => coreOfTk x.1 == 0 && x.2.ctx == 1 && x.2.tid == ⟨0, 0, 0⟩ && x.2.wait == .tempo))
        = some (32, paced.T 32) ∧ (paced.T 32).ptrap = [] ∧ (paced.T 32).kind ≠ 2
    ∧ (let s := State.carry paced (.thread 32); (s.T 32).st = .blocked ∧ (s.T 32).wait = .tempo ∧ (s.T 32).tmp = some ⟨true, 4, 6, true⟩ ∧ s.ovfOf 0 1 = [])
    ∧ let s := State.carry { paced with ovf := [(1, [(.spawn spawn0, false)])] } (.thread 32);
      s.ovfOf 0 1 ≠ [] ∧ s.ctxActive 0 1 = true ∧ s.unitsUsed 0 none + 9 ≤ 2 ^ 21 := by decide +kernel

/-! Messages, posts, rings -/

/-- What an agent reads or checks is `.ok` where its option is `some`. -/
theorem okOf {ε α : Type} {x : Except ε α} {v : α} (h : x.toOption = some v) : x = .ok v := by
  cases x with
  | error _ => exact absurd h (by simp [Except.toOption])
  | ok _ => exact congrArg _ (Option.some.inj h)

/-- Where a home on this chip keeps the 8 bytes at an address, as a value. -/
def keptAt (s : State) (ctx ea : Nat) : Option Nat :=
  (s.homeOf ctx ea).bind fun h => (s.pages.get? (h.key ctx)).bind fun p => if h.chip = s.chip then some (s.byteKey (h.key ctx) p h.pofs) else none
theorem kept {s : State} {ctx ea k : Nat} (e : keptAt s ctx ea = some k) : KeptAt s ctx ea k := by
  unfold keptAt at e
  cases a : s.homeOf ctx ea with
  | none => simp [a] at e
  | some h =>
    cases b : s.pages.get? (h.key ctx) with
    | none => simp [a, b] at e
    | some p =>
      simp only [a, b, Option.bind_some] at e
      split at e
      · next c => exact ⟨h, p, a, c, b, (Option.some.inj e).symm⟩
      · exact absurd e (by simp)

/-- Two lanes with a parameter block from s5 on. -/
def sb (l : List (Nat × Nat)) : State := withCrew pair fun c => { c with s := sregs l }
/-- A SEND under way. -/
def sendW : SendW := { id := 9, dchip := 0, dcore := 0, dctx := 1, dirx := 0, tag := 7, len := 8, lanes := [0, 1], g := 4, pc := 96, word := 0, blk := 0, need := [], sent := true, data := 0 }
theorem witness_SendWords :
    (let s := sb [(5, 2 ^ 34 + 7), (6, 8 * 2 ^ 32 + 4088)];
      passes (.send ⟨0, 5, 4⟩) s = true ∧ s.iss.crew = some 0 ∧ (∀ l ∈ s.iss.lanes, l.pos < 32 ∧ l.tk = laneTk 0 l.pos) ∧ s.sendFault (blk s 5 0) (blk s 5 1) = none
      ∧ (∀ b ∈ (s.C 0).bind, b.wb = false) ∧ (s.C 0).sends = [] ∧ ∀ l, l < 32 → (s.T (laneTk 0 l)).pend = [] ∧ (s.T (laneTk 0 l)).posted = [])
    ∧ (let s := sb [(5, 2 * 2 ^ 34), (6, 448 * 2 ^ 32)];
      passes (.send ⟨0, 5, 4⟩) s = true ∧ lenBad (blk s 5 1) = false ∧ blk s 5 0 / 2 ^ 39 % 512 < 384 ∧ blk s 5 0 / 2 ^ 32 % 4 ≠ 3 ∧ blk s 5 1 % 2 ^ 19 % 8 = 0
      ∧ blk s 5 1 % 2 ^ 19 + blk s 5 1 / 2 ^ 32 % 512 ≤ (s.C 0).spSize ∧ s.iss.ctx ≠ blk s 5 0 / 2 ^ 34 % 32 ∧ (s.iss.ctx, blk s 5 0 / 2 ^ 34 % 32) ∉ s.smat)
    ∧ let s := State.carry (withCrew pair fun c => { c with sends := [sendW] }) (.n4 0 1 9 0);
      (s.crews.find? fun x => coreOfCk x.1 == 0 && x.2.ctx == 1 && x.2.sends.any (·.id == 9)) = some (0, s.C 0) ∧ (s.C 0).sends.find? (·.id == 9) = some sendW
      ∧ (∀ l ∈ sendW.lanes, (s.T (laneTk 0 l)).ptrap = []) ∧ (sendW.lanes.map (laneTk 0)).Nodup := by decide +kernel
/-- A message, and receive entries of core 0. -/
def msg0 : Msg := { schip := 0, score := 2, sctx := 1, ctx := 1, tag := 7, len := 16, data := 0x11, id := 9, ck := 64 }
def rent (n : Nat) (st : RSt) (m : Option Msg) (left : List Nat) : REnt :=
  { n := n, st := st, ctx := 1, ck := 0, crit := 0xc000000000000000, len := 8, buf := 0, hseq := 0, order := n, msg := m, left := left, wait := [] }
def recvs (s : State) (l : List REnt) : State := { s with cores := [(0, { core0 with recv := l })] }
theorem witness_ReceiveWords :
    (∀ l ∈ [[], (List.range 63).map fun n => rent n .posted none [], (List.range 64).map fun n => rent n .posted none []],
      let s := recvs (sb [(5, 2 ^ 63), (6, 8 * 2 ^ 32)]) l;
      passes (.recvp ⟨0, 5, 4⟩) s = true ∧ s.iss.crew = some 0 ∧ critBad (blk s 5 0) = false ∧ lenBad (blk s 5 1) = false ∧ spaceFault (s.C 0) (blk s 5 1) = none
      ∧ ((List.range 64).find? fun n => !(s.core s.iss.core).recv.any (·.n == n)) = (if l.length = 64 then none else some l.length) ∧ s.msgsOf s.iss.core s.iss.ctx = [])
    ∧ (∀ x ∈ [(RSt.arrived, some msg0), (.posted, none)], let s := recvs pair [rent 5 x.1 x.2 []];
      passes (.recvw ⟨0, 9, 2⟩) s = true ∧ passes (.recvwTest ⟨0, 9, 2⟩) s = true ∧ s.iss.core = coreOfCk 0 ∧ s.iss.crew = some 0
      ∧ (∀ l ∈ s.iss.lanes, l.pos < 32 ∧ l.tk = laneTk 0 l.pos) ∧ (rent 5 x.1 x.2 []).ck = 0 ∧ s.recvOf s.iss.core 0 ((s.rT s.lowLane.tk).gr 2).toNat = some (rent 5 x.1 x.2 []) ∧ ∀ l ∈ s.iss.lanes, (s.T l.tk).st ≠ .blocked)
    ∧ (passes (.recvw ⟨0, 9, 2⟩) pair = true ∧ pair.recvOf pair.iss.core pair.ck ((pair.rT pair.lowLane.tk).gr 2).toNat = none)
    ∧ ∀ q ∈ [[], [(1, [msg0])]], let s := { sb [(5, 2 ^ 63 + 7)] with msgq := q };
      passes (.probe ⟨0, 5, 4⟩) s = true ∧ critBad (blk s 5 0) = false ∧ (s.msgsOf s.iss.core s.iss.ctx).find? (·.meets (blk s 5 0)) = (if q = [] then none else some msg0) := by
  decide +kernel
theorem witness_MessageUnit :
    live.ctxGone 5 = true
    ∧ (let s := State.carry (recvs live [rent 5 .posted none [], rent 6 .posted none []]) (.msg 0 msg0);
      s.ctxGone msg0.ctx = false ∧ rent 5 .posted none [] ∈ (s.core 0).recv ∧ (∀ x ∈ (s.core 0).recv, x.n = 5 → x = rent 5 .posted none []) ∧ msg0.meets (rent 5 .posted none []).crit.toNat = true
      ∧ ∀ x ∈ (s.core 0).recv, x ≠ rent 5 .posted none [] → (rent 5 .posted none []).order < x.order)
    ∧ (∀ n ∈ [0, 64], let s := State.carry { live with msgq := [(1, List.replicate n msg0)] } (.msg 0 msg0);
      s.ctxGone msg0.ctx = false ∧ (s.core 0).recv = [] ∧ (s.msgsOf 0 msg0.ctx).length = n)
    ∧ (∀ left ∈ [[0, 1], []], let s := State.carry (recvs pair [rent 5 .filling (some msg0) left]) (.n2 0 5);
      (rent 5 .filling (some msg0) left).wait = [] ∧ (s.core 0).recv.find? (·.n == 5) = some (rent 5 .filling (some msg0) left) ∧ s.crews.get? 0 ≠ none ∧ Memory.wf s.mem = true ∧ (s.C 0).st ≠ .draining) := by
  decide +kernel
/-- Where address 2^22 + n lives, and its page as core 0 knows it. -/
def near (n : Nat) : HomeLoc := { region := 0, chip := 0, core := 0, hg := 1, glog := 21, tier := 0, ofs := n }
def nearPerm : PermE := permOf (pgKey 1 0 0 1) (pageOf .mapped true true false 1)
/-- The first byte of the frame that holds address 2^22. -/
def fr : Nat := 0x8200000
/-- A POST by thread 0 to the queue whose descriptor stands at 2^22. -/
def post0 : PostJ := { id := 7, tk := 0, ctx := 1, lanes := [0], qd := 2 ^ 22, words := [2 ^ 63, 0, 0, 0, 0, 0, 0, 0], claim := 3, need := [] }
def queue0 (st : QuSt) : Queue := { desc := 2 ^ 22, st := st, ring := 2 ^ 22 + 4096, die := 0, log2n := 4, widx := 1, ridx := 0, watching := false, held := false }
/-- The words RING and LOG2N of that descriptor: 16 slots from 2^22 + 4096 on. -/
def qmem : List Host.Cell := [(fr + 17, 0x10), (fr + 18, 0x40), (fr + 24, 4)]
def posting (j : PostJ) (a : Arg) : State :=
  { with0 (one 0 0) (fun t => { t with locks := [{ lock7 with val := none }], pend := [acc7] }) with posts := [j], mem := qmem, ev := a }
theorem postAt {s : State} {id : Nat} {j : PostJ}
    (h : s.posts.find? (·.id == id) = some j ∧ j.id = id ∧ ((s.T j.tk).kind = 2 → ∀ b ∈ (s.C (ckOfTk j.tk)).bind, b.wb = false)) : PostAt s id j := h
theorem witness_Posts :
    (passes (.post ⟨0, 5, 0, 2⟩) (one (2 ^ 22) 0) = true ∧ (one (2 ^ 22) 0).check (one (2 ^ 22) 0).lowLane (W (2 ^ 22)) 64 ⟨true, true, false⟩ (fun _ => true) = .ok (near 0) nearPerm
      ∧ blk (one (2 ^ 22) 0) 5 0 / 2 ^ 60 % 8 < 6)
    ∧ (∀ st ∈ [QuSt.active, .draining], let s := State.carry { live with queues := [(66, queue0 st)], mem := qmem } (.n6 0 0 1 (2 ^ 22) 7 0);
      s.homeOf 1 (2 ^ 22) = some (near 0) ∧ (near 0).chip = s.chip ∧ s.pages.get? ((near 0).key 1) = some (pageOf .mapped true true false 1) ∧ s.poison = []
      ∧ s.agenda.any (s.otherInput 0 true) = false ∧ decide (∃ q ∈ s.queues, q.1 / 64 = 1 ∧ q.2.desc = 2 ^ 22 ∧ (q.2.st = .active ∨ q.2.st = .paused)) = (st == .active))
    ∧ PostAt (posting post0 (.n3 7 1 0xffffffffffffffff)) 7 post0 ∧ PostAt (posting post0 (.n3 7 1 3)) 7 post0 ∧ ((posting post0 (.n3 7 1 3)).T 0).pend.any (·.id == 7) = true
    ∧ (∀ c ∈ [3, 16], let j := { post0 with claim := c };
      let s := posting j (.n3 7 2 0);
      PostAt s 7 j ∧ (s.postRead j).toOption = some (0, 2 ^ 22 + 4096, 4) ∧ (∀ w ∈ s.owed, w.id < s.ids) ∧ j.words.length = 8
      ∧ (∀ m, m < 7 → KeptAt s 1 (2 ^ 22 + 4096 + 64 * (c % 2 ^ 4) + 8 + 8 * m) (fr + 4096 + 64 * (c % 2 ^ 4) + 8 + 8 * m)) ∧ KeptAt s 1 (2 ^ 22 + 8) (fr + 8))
    ∧ ∀ need ∈ [[], [(0, 7)]], let j := { post0 with need := need };
      (∀ n ∈ [3, 4, 9], PostAt (posting j (.n3 7 n (2 ^ 22 + 4096))) 7 j) ∧ (∀ w ∈ (posting j (.n3 7 3 (2 ^ 22 + 4096))).owed, w.id < (posting j (.n3 7 3 (2 ^ 22 + 4096))).ids)
      ∧ KeptAt (posting j (.n3 7 3 (2 ^ 22 + 4096))) 1 (2 ^ 22 + 4096) (fr + 4096) ∧ (posting j (.n3 7 3 (2 ^ 22 + 4096))).needDone need = need.isEmpty := by
  refine ⟨by decide +kernel, by decide +kernel, postAt (by decide +kernel), postAt (by decide +kernel), by decide +kernel, ?_, ?_⟩
  · have e : ∀ c ∈ [3, 16], let j := { post0 with claim := c };
        let s := posting j (.n3 7 2 0);
        (s.posts.find? (·.id == 7) = some j ∧ j.id = 7 ∧ ((s.T j.tk).kind = 2 → ∀ b ∈ (s.C (ckOfTk j.tk)).bind, b.wb = false))
        ∧ ((s.postRead j).toOption = some (0, 2 ^ 22 + 4096, 4) ∧ (∀ w ∈ s.owed, w.id < s.ids) ∧ j.words.length = 8)
        ∧ (∀ m, m < 7 → keptAt s 1 (2 ^ 22 + 4096 + 64 * (c % 2 ^ 4) + 8 + 8 * m) = some (fr + 4096 + 64 * (c % 2 ^ 4) + 8 + 8 * m)) ∧ keptAt s 1 (2 ^ 22 + 8) = some (fr + 8) := by
      decide +kernel
    intro c hc
    obtain ⟨a, ⟨b, b', b''⟩, d, f⟩ := e c hc
    exact ⟨postAt a, b, b', b'', fun m hm => kept (d m hm), kept f⟩
  · have e : ∀ need ∈ [[], [(0, 7)]], let j := { post0 with need := need };
        (∀ n ∈ [3, 4, 9], let s := posting j (.n3 7 n (2 ^ 22 + 4096));
          s.posts.find? (·.id == 7) = some j ∧ j.id = 7 ∧ ((s.T j.tk).kind = 2 → ∀ b ∈ (s.C (ckOfTk j.tk)).bind, b.wb = false))
        ∧ (∀ w ∈ (posting j (.n3 7 3 (2 ^ 22 + 4096))).owed, w.id < (posting j (.n3 7 3 (2 ^ 22 + 4096))).ids)
        ∧ keptAt (posting j (.n3 7 3 (2 ^ 22 + 4096))) 1 (2 ^ 22 + 4096) = some (fr + 4096) ∧ (posting j (.n3 7 3 (2 ^ 22 + 4096))).needDone need = need.isEmpty := by decide +kernel
    intro need hn
    obtain ⟨a, b, d, f⟩ := e need hn
    exact ⟨fun n h => postAt (a n h), b, kept d, f⟩
/-- A poll of cursor 17 in a ring of 16 records at 2^22. -/
def poll0 (wt : Bool) (limit : Nat) : CWait := { wait := wt, g := 2, handle := W (2 ^ 22 + 4), cur := 17, limit := limit, start := some 50, id := 7 }
theorem witness_RingWords :
    (let s := withCrew (one 17 0) fun c => { c with s := sregs [(5, 2 ^ 22 + 4), (6, 2 ^ 32 - 1)] };
      passes (.cpoll ⟨0, 5, 2⟩) s = true ∧ passes (.cwait ⟨0, 5, 2⟩) s = true ∧ ∀ l ∈ s.iss.lanes, (s.T l.tk).ctx = s.iss.ctx ∧ coreOfTk l.tk = s.iss.core
        ∧ bits (s.code 5 l.tk) 63 56 = 0 ∧ 2 ≤ (s.code 5 l.tk).toNat % 32 ∧ (s.code 5 l.tk).toNat % 32 ≤ 20 ∧ bits (s.code (5 + 1) l.tk) 63 32 = 0
        ∧ s.check l (W (recordAt (s.code 5 l.tk).toNat (((s.rT l.tk).gr 2).toNat % 2 ^ 63))) 8 ⟨true, false, false⟩ (fun _ => true) = .ok (near 32) nearPerm)
    ∧ (∀ wt ∈ [false, true], ∀ a ∈ [Arg.resp 0 7 (.data 5 0), .resp 0 7 (.data (2 ^ 63) 0), .resp 0 7 .woken],
      let s := State.carry (with0 (one 17 0) fun t => { t with st := .blocked, wait := .cwait, cq := some (poll0 wt 0), pend := [acc7] }) a;
      s.waiter 0 7 = some 0 ∧ (s.T 0).cq = some (poll0 wt 0) ∧ (s.T 0).ptrap = [] ∧ s.homeAt (coreOfTk 0) (s.T 0).ctx (ringEntry (2 ^ 22 + 4) (17 % 2 ^ 63)) = some (near 32))
    ∧ ∀ n ∈ [0, 50, 51], let s := State.carry (with0 (one 17 0) fun t => { t with st := .blocked, wait := .cwait, cq := some (poll0 true n) }) (.thread 0);
      (s.T 0).cq = some (poll0 true n) ∧ (poll0 true n).start = some 50 ∧ (s.T 0).st = .blocked ∧ (s.T 0).wait = .cwait ∧ (s.T 0).ptrap = [] ∧ s.clockOf 0 = 100 := by decide +kernel

/-! Queues and kernels -/

def crec0 : CRec := { ctx := 1, ring := 3, w0 := 2 * 2 ^ 48 + 5, w1 := 0, w2 := 0, w3 := 0, core := 0, kern := 0, tkind := 0, num := 0, toFq := false, stage := 0, cur := 0 }
/-- A ring of 4 records with its cursors at 2^22 + 1024; `n` records stand in it. -/
def ringed (n : BitVec 8) : State :=
  { live with rings := [(67, (2 ^ 22 + 2, 2 ^ 22 + 1024))], mem := if n = 0 then [] else [(fr + 1024, n)], queues := [(66, queue0 .active)], crecs := [crec0] }
theorem witness_CompletionRings :
    (∀ n ∈ [0, 3, 4], let s := State.carry (ringed n) (.crec crec0);
      s.ctxGone 1 = false ∧ s.rings.get? (1 * 64 + 3) = some (2 ^ 22 + 2, 2 ^ 22 + 1024) ∧ s.firstRec 1 3 = some crec0 ∧ s.crecs.Nodup
      ∧ (s.recordPlace 1 (2 ^ 22 + 2) (2 ^ 22 + 1024)).toOption = some (n.toNat, 0) ∧ (∀ w ∈ s.owed, w.id < s.ids)
      ∧ (s.queue 1 (crec0.w0 / 2 ^ 48 % 64)).map (·.st) = some .active ∧ (s.rdA 1 0 false (2 ^ 22 + 32 * (n.toNat % 4) + 24) 8).toOption = some 0
      ∧ (∀ m, m < 4 → KeptAt s 1 (2 ^ 22 + 32 * (n.toNat % 4) + 8 * m) (fr + 32 * (n.toNat % 4) + 8 * m)) ∧ KeptAt s 1 (2 ^ 22 + 1024) (fr + 1024)
      ∧ KeptAt s 1 (2 ^ 22 + 1032) (fr + 1032))
    ∧ ((State.carry live (.crec crec0)).ctxGone 1 = false ∧ live.rings.get? (1 * 64 + 3) = none ∧ (live.queue 1 2).isNone = true)
    ∧ ((live.ctx 1).st ≠ .free ∧ live.ringOk 1 (2 ^ 22 + 2) (2 ^ 22 + 1024) = true ∧ (live.wrChk 1 0 (2 ^ 22 + 1024)).toOption = some () ∧ (∀ w ∈ live.owed, w.id < live.ids)
      ∧ KeptAt live 1 (2 ^ 22 + 1024) (fr + 1024) ∧ KeptAt live 1 (2 ^ 22 + 1032) (fr + 1032))
    ∧ live.ringOk 1 (2 ^ 22 + 1) (2 ^ 22 + 1024) = false ∧ live.ringOk 1 (2 ^ 22 + 2) (2 ^ 22 + 1040) = false := by
  refine ⟨?_, by decide +kernel, ⟨by decide +kernel, by decide +kernel, by decide +kernel, by decide +kernel, kept (by decide +kernel), kept (by decide +kernel)⟩,
    by decide +kernel, by decide +kernel⟩
  have e : ∀ n ∈ [(0 : BitVec 8), 3, 4], let s := State.carry (ringed n) (.crec crec0);
      (s.ctxGone 1 = false ∧ s.rings.get? (1 * 64 + 3) = some (2 ^ 22 + 2, 2 ^ 22 + 1024) ∧ s.firstRec 1 3 = some crec0 ∧ s.crecs.Nodup
      ∧ (s.recordPlace 1 (2 ^ 22 + 2) (2 ^ 22 + 1024)).toOption = some (n.toNat, 0) ∧ (∀ w ∈ s.owed, w.id < s.ids)
      ∧ (s.queue 1 (crec0.w0 / 2 ^ 48 % 64)).map (·.st) = some .active ∧ (s.rdA 1 0 false (2 ^ 22 + 32 * (n.toNat % 4) + 24) 8).toOption = some 0)
      ∧ (∀ m, m < 4 → keptAt s 1 (2 ^ 22 + 32 * (n.toNat % 4) + 8 * m) = some (fr + 32 * (n.toNat % 4) + 8 * m)) ∧ keptAt s 1 (2 ^ 22 + 1024) = some (fr + 1024)
      ∧ keptAt s 1 (2 ^ 22 + 1032) = some (fr + 1032) := by decide +kernel
  intro n hn
  obtain ⟨⟨a1, a2, a3, a4, a5, a6, a7, a8⟩, b, c, d⟩ := e n hn
  exact ⟨a1, a2, a3, a4, a5, a6, a7, a8, fun m hm => kept (b m hm), kept c, kept d⟩
/-- A queue's descriptor at 2^22 (ring at 2^22 + 4096, 16 slots) and a slot's header word with type t. -/
def queued (qs : Tab Queue) (t : BitVec 8) : State := { live with queues := qs, mem := qmem ++ [(fr + 4103, 0x80 + t)] }
theorem region_chip {a : Nat} {h : HomeLoc} (e : homeIn [region] a = some h) : h.chip = 0 := by
  simp only [homeIn, findRegion] at e
  split at e
  · exact absurd e (by simp)
  · next i x y =>
    split at y
    · obtain ⟨rfl, rfl⟩ := Prod.mk.inj (Option.some.inj y)
      rw [← Option.some.inj e]
      simp only [region]
      omega
    · exact absurd y (by simp)
theorem witness_Queues :
    (∀ st ∈ [QuSt.active, .paused, .error, .draining], (State.carry { live with queues := [(66, queue0 st)] } (.n2 1 2)).queue 1 2 = some (queue0 st)) ∧ (live.ctx 1).st ≠ .free
    ∧ (let s := State.carry (queued [] 0) (.n2 1 (2 ^ 22));
      badAddr (2 ^ 22) 64 = false ∧ s.writable 1 (2 ^ 22) = true ∧ (s.rdWords 1 0 false (2 ^ 22) 8).toOption = some [0, 0, 2 ^ 22 + 4096, 4, 0, 0, 0, 0]
      ∧ qdescBad [0, 0, 2 ^ 22 + 4096, 4, 0, 0, 0, 0] = false ∧ covered (s.ctx 1).ptab 64 (2 ^ 22 + 4096) (64 * 2 ^ 4) = true ∧ s.watchedWidx 1 (2 ^ 22) < 64
      ∧ s.firstAbsent 1 (2 ^ 22 + 4096) (64 * 2 ^ 4) = none ∧ ((List.range 64).find? fun n => (s.queue 1 n).isNone) = some 0
      ∧ (∀ a h, homeIn (s.ctx 1).ptab a = some h → h.chip = s.chip) ∧ ∀ w ∈ s.owed, w.id < s.ids)
    ∧ (badAddr (2 ^ 22 + 32) 64 = true ∧ live.writable 1 0 = false)
    ∧ (∀ t ∈ [0, 0x60], let s := State.carry (queued [(66, queue0 .active)] t) (.n3 1 2 0);
      s.queue 1 2 = some (queue0 .active) ∧ s.mayConsume 1 2 (queue0 .active) = true ∧ (∀ w ∈ s.owed, w.id < s.ids) ∧ KeptAt s 1 (2 ^ 22 + 4096) (fr + 4096)
      ∧ KeptAt s 1 (2 ^ 22 + 8) (fr + 8) ∧ KeptAt s 1 (2 ^ 22 + 32) (fr + 32) ∧ KeptAt s 1 (2 ^ 22 + 31) (fr + 31))
    ∧ ((State.carry (queued [(66, queue0 .active)] 0) (.n3 1 2 0)).setQueue 1 2 (queue0 .active)).takePkt 1 0 (2 ^ 22 + 4096) = .took (pktOf [2 ^ 63, 0, 0, 0, 0, 0, 0, 0]) none wholeSpace
    ∧ ((State.carry (queued [(66, queue0 .active)] 0x60) (.n3 1 2 0)).setQueue 1 2 (queue0 .active)).takePkt 1 0 (2 ^ 22 + 4096)
      = .bad (some (pktOf [2 ^ 63 + 6 * 2 ^ 60, 0, 0, 0, 0, 0, 0, 0])) := by
  refine ⟨by decide +kernel, by decide +kernel, ⟨by decide +kernel, by decide +kernel, by decide +kernel, by decide +kernel, by decide +kernel, by decide +kernel, by decide +kernel,
    by decide +kernel, ?_, by decide +kernel⟩, by decide +kernel, ?_, by decide +kernel, by decide +kernel⟩
  · intro a h e
    have c : (State.carry (queued [] 0) (.n2 1 (2 ^ 22))).chip = 0 := by decide +kernel
    have d : ((State.carry (queued [] 0) (.n2 1 (2 ^ 22))).ctx 1).ptab = [region] := by decide +kernel
    exact (region_chip (d ▸ e)).trans c.symm
  · have e : ∀ t ∈ [(0 : BitVec 8), 0x60], let s := State.carry (queued [(66, queue0 .active)] t) (.n3 1 2 0);
        (s.queue 1 2 = some (queue0 .active) ∧ s.mayConsume 1 2 (queue0 .active) = true ∧ (∀ w ∈ s.owed, w.id < s.ids)) ∧ keptAt s 1 (2 ^ 22 + 4096) = some (fr + 4096)
        ∧ keptAt s 1 (2 ^ 22 + 8) = some (fr + 8) ∧ keptAt s 1 (2 ^ 22 + 32) = some (fr + 32) ∧ keptAt s 1 (2 ^ 22 + 31) = some (fr + 31) := by decide +kernel
    intro t ht
    obtain ⟨⟨a, b, c⟩, d, f, g, h⟩ := e t ht
    exact ⟨a, b, c, kept d, kept f, kept g, kept h⟩
/-- A kernel of two crews, or of two roaming threads, and its node. -/
def kd0 (roam : Bool) (binds : List KBind) (groups : List Nat) (mems : List (Nat × Nat × Nat × Nat)) : KDesc :=
  { code := 0, roam := roam, fuse := false, acct := 1, nscal := 4, spad := 4096, priv := 0, carry := 0, trapv := 48, anchor := none, astep := 0, round := 1, trapen := 0
    binds := binds, foot := [], groups := groups, mems := mems, gx := 2, gy := 1, gz := 1, n := 2, seeds := 2 ^ 22, lconst := 0, seed := 5 }
def node0 (typ : Nat) (st : NSt) (kd : Option KDesc) : Node :=
  { ctx := 1, qid := 2, idx := 0, typ := typ, unchk := false, after := false, tag := 0, cr := true, ring := 3, jdesc := 0, foot := [], deps := [], st := st, die := 0, kern := 0
    kd := kd, shares := [[0, 1, 2], [], [], []], gangIdx := [], refused := [], steals := [], acks := 0, created := 0, units := 0, count := 0, failed := [], fault := none
    status := 0, readyAt := 0 }
/-- The helper part with nodes, and a partition of cluster 0. -/
def nodes (l : List Node) (s : State) : State :=
  { s with nodes := l, dev := { s.dev with parts := [(0, { v := true, spsave := 0, prio := 0, quantum := 0, clmask := 1 })] } }
def bind0 (fill : Bool) : KBind := { fill := fill, wb := false, blen := 256, spoff := 0, va := 2 ^ 22, stride := 0 }
theorem witness_Kernels :
    (∀ n ∈ [node0 0 .running none, node0 1 .running (some (kd0 false [] [] []))], (nodes [n] live).nodes.find? (fun n => n.ctx == 1 && n.qid == 2 && n.idx == 0) = some n
      ∧ n.st ≠ .complete ∧ n.units = 0)
    ∧ (let n := node0 1 .ready (some (kd0 false [] [] []));
      (nodes [n] live).nodes.find? (fun n => n.ctx == 1 && n.qid == 2 && n.idx == 0) = some n ∧ n.st = .ready ∧ (live.ctx 1).st = .live ∧ n.kd = some (kd0 false [] [] [])
      ∧ (∀ m ∈ (nodes [n] live).nodes, m.st = .ready) ∧ n.ctx = 1 ∧ n.qid = 2 ∧ n.idx = 0 ∧ ((nodes [n] live).ctxChips 1).toOption = some [0] ∧ live.others [0] = [])
    ∧ (∀ b ∈ [[], [bind0 true]], let n := node0 1 .launching (some (kd0 false b [] []));
      (nodes [n] live).nextUnit 0 = some (n, some ⟨0, 0, 0, 0, 0, [0]⟩) ∧ n.share 0 = 0 :: [1, 2] ∧ n.kd = some (kd0 false b [] []))
    ∧ (let s := State.carry (nodes [node0 1 .launching (some (kd0 false [] [] []))] (withCrew pair fun c => { c with st := .placed })) (.n1 0);
      (s.crews.get? 0).isSome = true ∧ s.kent (s.C 0).ctx (s.C 0).ktab.toNat = some kent0 ∧ (s.kernNode (s.C 0).ctx (s.C 0).ktab.toNat).bind (·.kd) = some (kd0 false [] [] [])
      ∧ (s.rdWords (s.C 0).ctx 0 true (kent0.lconst + 24) (kent0.nscal - 3)).toOption = some []
      ∧ (s.C 0).st = .placed ∧ ∀ l, l < 32 → (s.T (laneTk 0 l)).ptrap = [])
    ∧ (∀ fill ∈ [true, false],
      let s := nodes [node0 1 .launching (some (kd0 false [bind0 fill] [] []))] (withCrew pair fun c => { c with st := .placed, bind := [⟨0, 256, 2 ^ 22, false, []⟩] });
      (s.crews.get? 0).isSome = true ∧ (s.C 0).st = .placed ∧ (s.C 0).bind[0]? = some ⟨0, 256, 2 ^ 22, false, []⟩ ∧ ((s.kernNode (s.C 0).ctx (s.C 0).ktab.toNat).bind (·.kd)).map (·.binds) = some [bind0 fill]
      ∧ (s.rdA 1 0 false ((2 ^ 22 + 248) % 2 ^ 56) 8).toOption = some 0)
    ∧ let n := node0 1 .launching (some (kd0 true [] [] []));
      (nodes [n] live).nextUnit 0 = some (n, none) ∧ ((nodes [n] live).rdA 1 0 false (2 ^ 22 + 8 * 0) 8).toOption = some 0
      ∧ (homeIn ((nodes [n] live).ctx 1).ptab 0).isSome = true ∧ n.share 0 = 0 :: [1, 2] ∧ n.kd = some (kd0 true [] [] []) := by
  refine ⟨?_, ?_, ?_, ?_, ?_, ?_⟩ <;> decide +kernel
/-- A coordinator that waits for one chip, and a gang's one member here. -/
def asking (no : List Nat) : State := { live with gagents := [(259, { live.gagent 1 3 with asking := [0], yes := [1], no := no })] }
def ganged : Node := { node0 1 .launching (some (kd0 false [] [3] [(3, 2, 0, 0)])) with gangIdx := [0] }
def resv0 : Resv := { ctx := 1, g := 3, m := 2, kern := 0, index := 0, core := 0, block := 0, sp := 0, pv := 0, tiles := [0] }
theorem witness_StealsRetirementGangs :
    (let n := node0 1 .launching (some (kd0 false [] [] []));
      (nodes [n] live).nodes.find? (fun n => n.ctx == 1 && n.qid == 2 && n.idx == 0) = some n ∧ n.ctx = 1 ∧ 0 < n.shares.length)
    ∧ (∀ w ∈ [[], [(2, 0, 0, 0, 4096)]], let s := State.carry (withCrew pair fun c => { c with st := .draining, wmem := w }) (.n1 0);
      (s.crews.get? 0).isSome = true ∧ (s.C 0).st = .draining ∧ (s.C 0).wmem = w ∧ s.ctxActive (coreOfCk 0) 1 = true ∧ 0 / 16 % 2 = (s.core (coreOfCk 0)).active ∧ s.crewBusy 0 = false
      ∧ s.spawned = [])
    ∧ (((asking []).gagent 1 3).asking = [0] ∧ ((asking []).gagent 1 3).no = [])
    ∧ live.holderOf 1 3 = none
    ∧ (let s := nodes [ganged] live;
      s.holderOf 1 3 = some (ganged, kd0 false [] [3] [(3, 2, 0, 0)]) ∧ (s.ctx 1).st = .live ∧ s.dev.stopped = false ∧ s.resvs = [] ∧ ganged.gangIdx = [0]
      ∧ ([(3, 2, 0, 0)].filter fun m : Nat × Nat × Nat × Nat => m.1 == 3 && m.2.2.1 == s.chip) = [(3, 2, s.chip, 0)]
      ∧ s.findSpot 1 (kd0 false [] [3] [(3, 2, 0, 0)]) 0 0 = some ⟨0, 0, 0, 0, 0, [0]⟩)
    ∧ (let s := { nodes [ganged] live with resvs := [resv0] };
      s.holderOf 1 3 = some (ganged, kd0 false [] [3] [(3, 2, 0, 0)]) ∧ (s.resvs.filter fun r => r.ctx == 1 && r.g == 3) = [resv0] ∧ s.bankOf 0 1 = some 0)
    ∧ ({ gent0 with v := false }.bad = false ∧ { gent0 with nmem := 1 }.bad = false ∧ (live.rdWords 1 0 true 0 1).toOption = some [0] ∧ listBad [0] = false)
    ∧ ({ gent0 with nmem := 4097 }.bad = true ∧ (live.rdWords 1 0 true 0 4).toOption = some [0, 0, 0, 0] ∧ listBad [0, 0, 0, 0] = true)
    ∧ live.nodes = [] ∧ (∀ x ∈ live.kern, x.2.chip = live.chip)
    ∧ ganged ∈ (nodes [ganged] live).nodes ∧ ganged.ctx = 1 ∧ ganged.st = .launching ∧ (ganged.kd.map fun kd => kd.groups.contains 3) = some true := by
  refine ⟨?_, ?_, ?_, ?_, ?_, ?_, ?_, ?_⟩ <;> decide +kernel

/-! ### Engines -/

/-- A job of context 1. -/
def job0 (crew : Option Nat) (st : JSt) (desc : Option JDesc) : Job :=
  { id := 7, kind := 1, eng := 0, ctx := 1, crew := crew, spb := 0, sps := 4096, kern := 0, index := 0, qid := 2, idx := 0, loc := 2 ^ 63 + 64, addS := 0, addD := 0
    stream := none, lanes := [0], need := [], seq := 5, entry := 3, st := st, desc := desc, foot := [], recvs := [], chips := [], skipped := 0, begun := [], buf := [], bytes := 0
    tile := 0, fault := none, how := 0 }
/-- A descriptor: two elements of 8 bytes from 512 to 1024 of the share, with a completion record. -/
def desc0 : List Nat := [512, 1024, 0x8531, 0, 0, 0, 0, 0, 2 ^ 48 + 2, 2 * 2 ^ 32, 8, 8]
/-- The share with that descriptor at 64. -/
def descMem : List Host.Cell := (desc0.zipIdx.foldl (fun m x => memWrN m (spadKey 0 (64 + 8 * x.2)) 8 x.1) [])
/-- Crew 0 with a job, an event and the share's bytes. -/
def working (j : Job) (mem : List Host.Cell) (a : Arg) : State := State.carry { pair with jobs := [j], mem := mem } a
/-- A stream register with 2 slots. -/
def stream0 (st : QSt) (a : SlotSt) (popped : List Nat) : QReg :=
  { st := st, job := 7, tileb := 256, base := 1024, slots := [a, .empty], total := 4, next := 2, popped := popped }
def streamed (r : QReg) : State := { withCrew pair (fun c => { c with q := c.q.set 3 r }) with jobs := [job0 (some 0) .running none] }

theorem witness_EngineWords :
    (let s := sb [(5, 2 ^ 63 + 4032), (6, 8), (7, 16), (8, 2 ^ 63 + 3 * 2 ^ 56)];
      passes (engInstr 1 ⟨0, 5, 2, 4⟩) s = true ∧ passes (engInstr 2 ⟨0, 5, 2, 4⟩) (sb [(5, 2 ^ 63 + 4032)]) = true ∧ s.iss.crew = some 0 ∧ s.iss.lanes ≠ [] ∧ EngOk s 0 1 5)
    ∧ (let s := sb [(5, 64)]; passes (engInstr 3 ⟨0, 5, 2, 4⟩) s = true ∧ EngOk s 0 3 5)
    ∧ (∀ r ∈ [stream0 .unbound .empty [], stream0 .ended .empty [], stream0 .failed .empty [], stream0 .bound .full [], stream0 .bound .filling [1]], let s := streamed r;
      passes (.qpop ⟨0, 4, 3⟩) s = true ∧ s.iss.crew = some 0 ∧ (s.C 0).q[3]? = some r ∧ ∀ x ∈ (s.C 0).qpops, x.1 ≠ 3)
    ∧ let s := streamed (stream0 .bound .filling [1, 0]);
      passes (.qfree ⟨0, 3⟩) s = true ∧ (s.C 0).q[3]? = some (stream0 .bound .filling [1, 0]) ∧ s.jobs.any (fun j => j.id == 7 && j.crew == some 0) = true := by
  refine ⟨⟨?_, ?_, ?_, ?_, ?_⟩, ⟨?_, ?_⟩, ?_, ?_⟩ <;> first | decide +kernel | skip
  · refine ⟨by decide +kernel, by rw [if_pos (by decide +kernel)]; decide +kernel, by decide +kernel, by decide +kernel, fun _ => ⟨rfl, QReg.blank, by decide +kernel, rfl⟩⟩
  · exact ⟨by decide +kernel, by rw [if_neg (by decide +kernel)]; exact ⟨⟨0, 0, 0, 0, 21, 0, 64⟩, permOf (pgKey 1 0 0 0) (pageOf .sealed true false true 0), by decide +kernel⟩, by decide +kernel, by decide +kernel, by decide +kernel⟩

theorem witness_EngineJobs :
    (let s := with0 (working (job0 (some 0) .waiting none) [] (.n1 7)) fun t => { t with locks := [lock7] };
      s.job 7 = some (job0 (some 0) .waiting none) ∧ s.freeEntry 0 = some 0 ∧ s.jobMay (job0 (some 0) .waiting none) = true
      ∧ ((s.T 0).locks.find? (·.id == 7) = some lock7 ∧ lock7.active = true) ∧ [0].Nodup)
    ∧ (∀ n ∈ [{ node0 2 .ready none with jdesc := 2 ^ 22 }], (nodes [n] live).nodes.find? (fun n => n.ctx == 1 && n.qid == 2 && n.idx == 0 && n.st == .ready) = some n)
    ∧ (∀ m ∈ [([], List.replicate 8 0, true), (descMem, desc0, false)], ∀ st ∈ [JSt.accepted, .waiting], let j := job0 (some 0) st none;
      let s := working j m.1 (.n2 7 0);
      s.job 7 = some j ∧ j.fault = none ∧ s.needDone j.need = true ∧ s.jobAway j none = false ∧ (s.readDesc j 0).toOption = some m.2.1 ∧ descRaz m.2.1 = m.2.2 ∧ j.eng < 2000
      ∧ (m.2.2 = false → s.descBad j (descOf m.2.1 0 0) = false))
    ∧ (∀ how ∈ [0, 2], let d := descOf desc0 0 0;
      let j := { job0 (some 0) .accepted (some d) with how := how };
      let s := working j descMem (.n2 7 0);
      s.job 7 = some j ∧ j.kind ≠ 3 ∧ s.jobAway j (some d) = false ∧ s.jobWaits j d (jobFoot d j.stream.isSome (s.destSpaces j d)) = false)
    ∧ (let d := descOf desc0 0 0;
      let j := { job0 (some 0) .running (some d) with begun := [0, 1], buf := [⟨0, 0, 0x11, 255, 8⟩] };
      let s := working j [] (.n2 7 0);
      s.job 7 = some j ∧ j.stream = none ∧ j.kind ≠ 3 ∧ d.dspace = 1 ∧ d.bv = false ∧ (s.crews.get? 0).isSome = true ∧ j.open_ d = [])
    ∧ (let d := descOf desc0 0 0;
      let j := { job0 (some 0) .running (some d) with begun := [1] };
      let s := working j descMem (.n2 7 0);
      s.job 7 = some j ∧ j.stream = none ∧ j.fault = none ∧ s.destStopped j d = false ∧ j.open_ d = [0] ∧ (State.gather { s with tick := s.tick + 1 } j d 0 (d.elemsAt false 0) 0 0).toOption.isSome = true)
    ∧ (let d := descOf desc0 0 0;
      let j := { job0 (some 0) .running (some d) with begun := [1, 0] };
      (working j [] (.n2 7 0)).job 7 = some j ∧ j.stream = none ∧ j.fault = none ∧ (working j [] (.n2 7 0)).jobOwed j = false ∧ j.open_ d = [] ∧ j.begun.length = (d.granules false).length)
    ∧ (let s := State.carry (team id id) (.nats [1, 3, 2, 64, 5, 255, 8, 0, 0, 0, 7]); ((s.membersHere 1 3).find? (·.2 == 2) = some (0, 2)) ∧ (s.crews.get? 0).isSome = true
      ∧ (s.C 0).st ≠ .suspended)
    ∧ (∀ j ∈ [job0 none .ending none, job0 (some 0) .ending (some (descOf desc0 0 0))], (working j [] (.n1 7)).job 7 = some j ∧ (descOf desc0 0 0).cr = true ∧ j.stream = none ∧ j.st = .ending)
    ∧ ∀ j ∈ [job0 (some 0) .running (some (descOf desc0 0 0))], j.ctx = 1 → ¬ ((descOf desc0 0 0).sspace = 2 ∧ (descOf desc0 0 0).srcb / 2 ^ 22 = 0)
      ∧ ¬ ((descOf desc0 0 0).dspace = 2 ∧ (descOf desc0 0 0).dstb / 2 ^ 22 = 0) := by
  refine ⟨?_, ?_, ?_, ?_, ?_, ?_, ?_, ?_, ?_, ?_⟩ <;> decide +kernel

/-! ### Matrix engine -/

/-- Crew 0 whose 32 lanes issue, with an accumulator tile, weight slots 4 to 7 and a block from s5 on. -/
def mx (b : List Nat) : State :=
  { withCrew (crewAt 32 fun _ => [(2, 0)]) (fun c => { c with tiles := [1], s := sregs (b.zipIdx.map fun x => (x.2 + 5, x.1)) }) with wgrants := [(128, (4, 4))] }
/-- A pass of one int8 element of A at 64 by one column of slot 0. -/
def pass0 : List Nat := [1, 1, 1, 64, 0, 2 ^ 24, 0, 5]
theorem witness_MatrixWords :
    (∀ i ∈ [Instr.mma ⟨0, 5, 2, 4⟩, .mmamCausal ⟨0, 5, 2, 4⟩, .mmamTree ⟨0, 5, 2, 4, 1⟩, .accz ⟨0, 5, 2, 4⟩, .accrd ⟨0, 5, 2, 4⟩, .accwr ⟨0, 5, 2, 4⟩], passes i (mx pass0) = true
      ∧ (passOf i).isSome = true ∧ passes i (sb []) = true)
    ∧ ((mx pass0).iss.crew = some 0 ∧ (mx pass0).iss.lanes.length = 32 ∧ pair.iss.lanes.length ≠ 32)
    ∧ ((mx pass0).blockFault ((mx pass0).C 0) 0 ((mx pass0).blockOf 5 8) = none ∧ (mx pass0).blockFault ((mx pass0).C 0) 3 ((mx pass0).blockOf 5 8) = none
      ∧ (mx []).blockFault ((mx []).C 0) 0 ((mx []).blockOf 5 8) = some (.illegalInstr, 0x100))
    ∧ (let s := mx [2 ^ 22 - 32, 63];
      passes (.wbld ⟨0, 5, 2, 4⟩) s = true ∧ passes (.wbdrop ⟨0, 6, 2, 4⟩) s = true ∧ blk s 5 1 < 64 ∧ blk s 5 0 < 2 ^ 56 ∧ blk s 5 0 % 32 = 0
      ∧ (s.homeAt s.iss.core s.iss.ctx (blk s 5 0)).isSome = true ∧ blk s 6 0 < 64)
    ∧ (∀ b ∈ [[4096 - 512, 65280 * 2 ^ 16 + 256], [0, 1]], let s := mx b;
      let off := blk s 5 0;
      let w := blk s 5 1;
      passes (.tmset ⟨0, 5, 2, 4⟩) s = true ∧ w < 2 ^ 34 ∧ w / 512 % 128 = 0 ∧ 1 ≤ w % 512 ∧ w % 512 ≤ 256 ∧ w / 2 ^ 16 % 2 ^ 16 + w % 512 ≤ 65536 ∧ off % 8 = 0
      ∧ off + 2 * (w % 512) ≤ (s.C 0).spSize)
    ∧ (passes (.mwait ⟨0, 5⟩) (mx []) = true ∧ passes (.mwaitThru ⟨0, 5, 2⟩) (mx []) = true ∧ ((mx []).engine (coreOfCk 0 / 4)).ops = []
      ∧ ∀ l, l < 32 → ((mx []).T (laneTk 0 l)).st ≠ .blocked) := by
  refine ⟨?_, ?_, ?_, ?_, ?_, ?_⟩ <;> decide +kernel

/-- An operation of crew 0. -/
def mop0 (op : Nat) (b : List Nat) (st : MSt) : MxOp :=
  { id := 7, op := op, treg := 0, ck := 0, ctx := 1, g := 4, blk := b, seq := 2 ^ 32 - 1, entry := 0, st := st, issued := 98, order := 1, passed := 0, due := 100, need := []
    reads := [], got := [], writes := [], ran := false, cond := 1 }
/-- The engine of cluster 0 with operations. -/
def mxeng (l : List MxOp) (a : Arg) : State :=
  State.carry { mx pass0 with engines := [(0, { Engine.blank with clock := 100, ops := l })], ids := 8, thr := (mx pass0).thr.map fun x => (x.1, { x.2 with locks := [lock7] }) } a
theorem witness_MatrixEngine :
    (let o := mop0 0 pass0 .waiting;
      let s := mxeng [o] (.n1 0);
      (s.engine 0).ops.filter (·.st == .waiting) = [o] ∧ ((s.engine 0).ops.countP fun x => x.st != .waiting) < 16 ∧ ((s.engine 0).ops.countP fun x => x.st != .waiting && x.ck == o.ck) < 4
      ∧ o.issued + 2 ≤ (s.engine 0).clock
      ∧ (∀ x ∈ (s.engine 0).ops, x.id = o.id → x = o) ∧ ∀ tk ∈ (List.range 32).map (laneTk 0), (s.T tk).locks.find? (·.id == 7) = some lock7)
    ∧ (let o := mop0 3 pass0 .accepted;
      let s := mxeng [o] (.n1 0);
      (∀ x ∈ (s.engine 0).ops, x.st ≠ .granted) ∧ s.grantPick 0 o.unit = some o ∧ o.unit < 2 ∧ s.grantPick 0 (1 - o.unit) = none)
    ∧ (∀ o ∈ [{ mop0 0 pass0 .granted with reads := [8] }, mop0 3 pass0 .granted, mop0 0 pass0 .granted, { mop0 0 pass0 .granted with ran := true }], let s := mxeng [o] (.n3 0 7 0);
      (s.engine 0).ops.find? (fun o => o.id == 7 && o.st == .granted) = some o ∧ o.op ≠ 6 ∧ s.poisoned (spadKey o.core ((s.C 0).spBase + 8 * 8)) 8 = false
      ∧ Memory.wf s.mem = true ∧ (PBlk.ofWords o.blk).m = 1 ∧ (PBlk.ofWords o.blk).n = 1 ∧ (PBlk.ofWords o.blk).afmt = 5 ∧ o.due ≤ (s.engine 0).clock
      ∧ (s.crews.get? 0).isSome = true ∧ (s.T (laneTk 0 0)).wait = .none ∧ ∀ x ∈ (s.engine 0).ops, x.ck = 0 → x.id = 7)
    ∧ (let o := { mop0 0 pass0 .granted with ran := true };
      let s := with0 (mxeng [o] (.n3 0 7 0)) fun t => { t with st := .blocked, wait := .mwait none 5 };
      (s.T (laneTk 0 0)).wait = .mwait none 5 ∧ 0 = coreOfCk 0 / 4 ∧ (s.T (laneTk 0 0)).ptrap = [])
    ∧ let o := { mop0 6 [2 ^ 22, 1] .granted with ran := true };
      let s := mxeng [o] (.n3 0 7 0);
      (s.engine 0).ops.find? (fun o => o.id == 7 && o.st == .granted) = some o ∧ (s.T (laneTk 0 0)).wait = .none ∧ (s.crews.get? 0).isSome = true ∧ s.wbldRead 0 o = true ∧ o.due ≤ (s.engine 0).clock ∧ s.bodyOk 0 5 = false := by
  refine ⟨?_, ?_, ?_, ?_, ?_⟩ <;> decide +kernel

/-! ### Firmware, faults, pages -/

/-- A firmware crew of the management core with a block from s5 on, beside thread 0 of context 1, which a trap stopped. -/
def fwAt (b : List Nat) (f : Thr → Thr) : State :=
  let s := nodes [] live
  { s with thr := [(0, f { thr 2 [] with st := .trapped, frames := [frame0] }), (522240, { thr 2 [] with ctx := 32, fw := true })]
           crews := [(16320, { crew0 with ctx := 32, s := sregs (b.zipIdx.map fun x => (x.2 + 5, x.1)) })]
           iss := { issue (some 16320) [⟨522240, 0⟩] with core := 510, ctx := 32 } }
/-- The first byte of the frame that holds the fault queue of context 1, and of record 0 in it. -/
def fqFr : Nat := 0x68000000
theorem witness_SyspWords :
    (∀ x ∈ [(0, 0), (1, 2 ^ 56 - 1), (2, 0)], let s := fwAt [2 ^ 25, x.1, x.2] id;
      passes (.tret ⟨5, 4⟩) s = true ∧ blk s 5 0 % 2 ^ 25 = 0 ∧ blk s 5 1 = x.1 ∧ blk s 5 2 = x.2 ∧ blk s 5 0 / 2 ^ 48 = s.chip ∧ blk s 5 0 / 2 ^ 25 % 32 = 1
      ∧ s.ctxGone 1 = false ∧ 0 = tkOf (blk s 5 0 / 2 ^ 39 % 512) 0 (blk s 5 0 / 2 ^ 30 % 512) ∧ (s.thr.get? 0).isSome = true ∧ (s.T 0).st = .trapped ∧ (s.T 0).ctx = 1
      ∧ (s.T 0).fw = false ∧ (s.T 0).dying = false ∧ 0 ∉ s.iss.lanes.map (·.tk) ∧ (s.T 0).ptrap = [])
    ∧ (∀ c ∈ [1, 5], let s := fwAt [c * 2 ^ 25, 0, 0] fun t => { t with st := .ready };
      passes (.tret ⟨5, 4⟩) s = true ∧ blk s 5 0 % 2 ^ 25 = 0 ∧ blk s 5 1 < 3 ∧ blk s 5 0 / 2 ^ 48 = s.chip
      ∧ (s.ctxGone c = true ∨ (∀ b, b < 2 → (s.T (tkOf (blk s 5 0 / 2 ^ 39 % 512) b (blk s 5 0 / 2 ^ 30 % 512))).st ≠ .trapped) ∧ s.saves.get? (0 * 64 + c) = none))
    ∧ (∀ m ∈ [([], 0), ([(fqFr + 71, 128)], 1)], let s := { fwAt [1] id with mem := m.1 };
      let x := s.ctx 1;
      passes (.xflt ⟨5, 4⟩) s = true ∧ s.iss.crew = some 16320 ∧ blk s 5 0 = 1 ∧ x.st ≠ .free ∧ (s.rdA 1 0 false (x.fqbase + 8) 8).toOption = some 0
      ∧ (∀ w ∈ s.owed, w.id < s.ids)
      ∧ ((s.rdWords 1 0 false (x.fqbase + 64 + 64 * (0 % 2 ^ x.fqlog2)) 8).toOption.map (fun ws => ws.headD 0 / 2 ^ 63)) = some m.2 ∧ 1 - 0 / 2 ^ x.fqlog2 % 2 = 1)
    ∧ (∀ d ∈ [0, 1], let s := fwAt [1, 2 ^ 39, d] id;
      passes (.replay ⟨5, 4⟩) s = true ∧ blk s 5 0 < 32 ∧ blk s 5 1 % 2 ^ 33 ≠ 2 ^ 33 - 1 ∧ blk s 5 2 = d ∧ blk s 5 1 / 2 ^ 48 = s.chip
      ∧ s.pages.get? (pgKey 1 (blk s 5 1 / 2 ^ 33 % 64) (blk s 5 1 / 2 ^ 39 % 512) (blk s 5 1 % 2 ^ 33)) = some farPage ∧ farPage.st ≠ .unmapped
      ∧ s.slog.get? (pgKey 1 0 1 0) = none ∧ s.heldP.get? (pgKey 1 0 1 0) = none)
    ∧ (let s := fwAt [1, 2 * 2 ^ 39, 0] id;
      passes (.replay ⟨5, 4⟩) s = true ∧ s.pages.get? (pgKey 1 0 2 0) = none)
    ∧ (passes (.pinval ⟨5⟩) (fwAt [1] id) = true ∧ passes (.dropr ⟨5, 3⟩) (fwAt [31] id) = true ∧ blk (fwAt [31] id) 5 0 < 32)
    ∧ (∀ op ∈ [0, 1], ∀ bank ∈ [some 1, some 2], let s := { fwAt [op * 2 ^ 24 + 2 ^ 16] id with cores := [(0, { core0 with bank := core0.bank.setIfInBounds 0 bank })] };
      let w := blk s 5 0;
      passes (.ctxsw ⟨5, 4⟩) s = true ∧ w < 2 ^ 27 ∧ w / 2 ^ 21 % 8 = 0 ∧ w / 2 ^ 9 % 128 = 0 ∧ w / 2 ^ 24 % 8 = op ∧ (s.ctx 1).st = .live ∧ s.partHas 1 0 = true
      ∧ s.gangHeld 0 1 = false ∧ (s.core 0).resid = .idle ∧ (s.core 0).bank.getD 0 none = bank ∧ (s.core 0).active = 0)
    ∧ (∀ core ∈ [0, 383, 384, 511], let s := fwAt [2 ^ 16 + core] id; passes (.ctxsw ⟨5, 4⟩) s = true ∧ blk s 5 0 % 512 = core)
    ∧ passes .halt (fwAt [] id) = true ∧ passes .halt { fwAt [] id with dev := { live.dev with haltPend := true } } = true := by
  refine ⟨?_, ?_, ?_, ?_, ?_, ?_, ?_, ?_, ?_, ?_⟩ <;> decide +kernel

/-- A fault record, and the fault queue of context 1 with n records claimed. -/
def frec0 : FRec :=
  { kind := 1, cause := .permission, core := 0, slot := 0, kern := 0, tkind := 2, ring := 0, number := 0, lmask := 1, addr := 8, pc := 0, info := 0, page := 0, aux0 := 0, aux1 := 0 }
def faulty (n : BitVec 8) (pend : Nat) : State :=
  { live with mem := if n = 0 then [] else [(fqFr, n)], fqp := if pend = 0 then [] else [(1, List.replicate pend (32, frec0))] }
theorem witness_FaultRecords :
    (∀ c ∈ [Cause.permission, .notPresent], let s := with0 pair fun t => { t with got := [(2 * 96, .fault c 0)] };
      (s.iss.lanes.map (·.tk)).Nodup ∧ (∀ l ∈ s.iss.lanes, s.headFault (s.T l.tk) s.iss.pc.toNat = none)
      ∧ s.chainHere = .stop 96 (.fault c 0))
    ∧ ((got (.frec 5 frec0)).ctxGone 5 = true)
    ∧ (∀ x ∈ [(0, 0), (31, 0), (32, 0), (32, 4095), (32, 4096)], let s := faulty (BitVec.ofNat 8 x.1) x.2;
      s.ctxGone 1 = false ∧ (s.dirHome 1).1 = s.chip ∧ (s.rdWords 1 0 false (s.ctx 1).fqbase 2).toOption = some [x.1, 0] ∧ ((s.ctx 1).fqlog2 = 5)
      ∧ (s.fqPend (0 * 64 + 1)).length = x.2)
    ∧ (∀ x ∈ (got (.n4 1 0 (2 ^ 21 + 64) 5)).thr, x.2.wait ≠ .halt) ∧ (got (.n4 1 0 (2 ^ 21 + 64) 5)).ctxGone 1 = false
    ∧ (let s := with0 pair fun t => { t with st := .blocked, wait := .sysp };
      (s.T (4 / 32)).st = .blocked ∧ (s.T (4 / 32)).wait = .sysp ∧ (s.T (4 / 32)).ptrap = []) := by
  refine ⟨?_, ?_, ?_, ?_, ?_⟩ <;> decide +kernel

/-- The page at 2 MB in a state. -/
def pageIn (st : PgSt) (s : Bool) : State := paged { farPage with st := st, s := s }
theorem witness_PageStates :
    (live.pages.get? (pgKey 1 0 9 0) = none ∧ (pageIn .retired false).pages.get? (pgKey 1 0 1 0) = some { farPage with st := .retired, s := false })
    ∧ (let s := State.carry (pageIn .unmapped false) (.n2 (pgKey 1 0 1 0) 3);
      s.pages.get? (pgKey 1 0 1 0) = some { farPage with st := .unmapped, s := false } ∧ s.unitsFull 1 0 1 = false
      ∧ s.mapRefused (pgKey 1 0 1 0) 0 3 { farPage with st := .unmapped, s := false } = false ∧ s.slog.get? (pgKey 1 0 1 0) = none)
    ∧ (live.mapRefused (pgKey 1 0 0 7) 0 0 farPage = true ∧ { live with ctxs := [(1, { ctx1 with resv := 40 })] }.unitsFull 1 1 1 = true)
    ∧ (∀ st ∈ [PgSt.mapped, .sealed], let s := State.carry { live with pages := [(pgKey 1 0 1 1, { farPage with st := st })] } (.n1 (pgKey 1 0 1 1));
      s.pages.get? (pgKey 1 0 1 1) = some { farPage with st := st } ∧ s.fqPage (pgKey 1 0 1 1) = false ∧ s.heldP.get? (pgKey 1 0 1 1) = none)
    ∧ live.fqPage (pgKey 1 0 1 0) = true := by
  refine ⟨?_, ?_, ?_, ?_, ?_⟩ <;> decide +kernel

/-- A region as a request holds it. -/
def entNum (e : PEnt) : Nat := Machine.ofWords e.words
/-- The page at 2 MB goes from core 1 to core 2, under a table that says so. -/
def region2 : PEnt := { region with coreset := 5 }
def chg0 : HChg := { ochip := 0, okey := pgKey 1 0 1 0, nchip := 0, nkey := pgKey 1 0 2 0, frame := 9, page := farPage }
/-- A tier move of the page at 4 MB, to tier 1 with 32 frames, from tier 1 or within a tier; n lines are done. -/
def moving (tier nt hp n : Nat) : State :=
  { live with pages := [(pgKey 1 0 0 hp tier, { farPage with st := .moving, tier := tier, ntier := nt, nframe := 2, moved := n })], moves := [(2, List.range 32)] }
theorem witness_PlacementAndMoves :
    ((live.ctx 5).st = .free ∧ (live.ctx 1).st ≠ .free ∧ live.tabBad 0 [] (tableOf [entNum region, entNum region]) = some 1)
    ∧ (∀ qs ∈ [[], [(66, { queue0 .active with desc := 2 ^ 21 })]], let s := { live with queues := qs };
      s.tabBad 0 [] (tableOf [entNum region2]) = none ∧ (s.ctx 1).late = [] ∧ (s.ctx 1).unheard = false ∧ s.chgBusy [chg0] = false
      ∧ s.widxMoves 1 (tableOf [entNum region2]) [chg0] = (if qs = [] then none else some 0))
    ∧ (live.tabBad 0 [] (live.ctx 1).ptab = none ∧ live.pages.get? chg0.okey = some farPage ∧ chg0.okey ≠ chg0.nkey ∧ tierOfKey chg0.okey = farPage.tier ∧ tierOfKey chg0.nkey = farPage.tier
      ∧ live.heldP.get? chg0.okey = none ∧ live.slog.get? chg0.okey = none ∧ live.poison = []
      ∧ ∀ o ∈ [0, 2 ^ 21 - 8], vaOf (live.ctx 1).ptab 0 chg0.okey o = some (2 ^ 21 + o) ∧ homeIn (tableOf [entNum region2]) (2 ^ 21 + o) = some { far with core := 2, ofs := o }
        ∧ { far with core := 2, ofs := o }.key 1 = chg0.nkey)
    ∧ (∀ l ∈ [[], [383], [5, 383]], (({ live with ctxs := [(1, { ctx1 with late := l, lateChips := [2 ^ 16] })] }.ctx 1).late.filter (· != 383) = [] ↔ l ≠ [5, 383])
      ∧ ∀ x ∈ ({ live with ctxs := [(1, { ctx1 with late := l, lateChips := [2 ^ 16] })] }.ctx 1).lateChips, x < 2 ^ 28)
    ∧ (∀ st ∈ [PgSt.rehoming, .mapped], ∀ chip ∈ [0, 3], let s := State.carry (pageIn st false) (.fwd chip 1 .remoteRead (.req (mreq (.load true))));
      (mreq (.load true)).lanes.head? = some mlane ∧ s.homeOf (mreq (.load true)).ctx mlane.ea = some far ∧ (s.pages.get? (far.key 1)).map (·.st) = some st)
    ∧ ((live.ctx (ctxOfKey chg0.okey)).late = [] ∧ (live.ctx 1).unheard = false ∧ (live.fwds.get? (ctxOfKey chg0.okey)).getD 0 = 0
      ∧ ({ live with ctxs := [(1, { ctx1 with late := [383] })] }.ctx (ctxOfKey chg0.okey)).late ≠ []
      ∧ (let s := { pageIn .rehoming true with rehome := [chg0], pages := [(chg0.okey, { farPage with st := .rehoming, moved := 2 })] };
        s.pages.get? chg0.okey = some { farPage with st := .rehoming, moved := 2 } ∧ ∀ c ∈ s.rehome, c.ochip = 0 → c.okey = chg0.okey → c.nchip = 0 ∧ c.nkey = chg0.nkey))
    ∧ (let s := State.carry (pageIn .rehoming true) (.n4 0 (pgKey 1 0 9 0) 0 (pgKey 1 0 1 0));
      (∀ c ∈ s.rehome, c.nchip = 0 → c.nkey = pgKey 1 0 1 0 → c.ochip = 0 ∧ c.okey = pgKey 1 0 9 0) ∧ s.pages.get? (pgKey 1 0 1 0) = some { farPage with st := .rehoming, s := true }
      ∧ s.heldF.get? (pgKey 1 0 1 0) = none ∧ s.heldP.get? (pgKey 1 0 1 0) = none)
    ∧ (∀ tokens ∈ [0, 1], let p := { farPage with tokens := tokens };
      let s := State.carry { live with pages := [(pgKey 1 0 0 1, p)] } (.tier (pgKey 1 0 0 1) 1 (List.range 32));
      s.pages.get? (pgKey 1 0 0 1) = some p ∧ movePages (pgKey 1 0 0 1) 0 1 = [pgKey 1 0 0 1] ∧ s.moveOk [pgKey 1 0 0 1] p = true ∧ s.fqPage (pgKey 1 0 0 1) = false
      ∧ s.framesOk (pgKey 1 0 0 1) 1 (List.range 32) p = true ∧ s.framesOk (pgKey 1 0 0 1) 1 [0] p = false)
    ∧ (∀ x ∈ [(0, 1, 1, 0), (0, 1, 1, 2 ^ 14 - 1), (1, 0, 32, 511), (1, 0, 63, 511)], let s := State.carry (moving x.1 x.2.1 x.2.2.1 x.2.2.2) (.n1 (pgKey 1 0 0 x.2.2.1 x.1));
      s.pages.get? (pgKey 1 0 0 x.2.2.1 x.1) = some { farPage with st := .moving, tier := x.1, ntier := x.2.1, nframe := 2, moved := x.2.2.2 } ∧ s.poison = []
      ∧ ∀ k ∈ movePages (pgKey 1 0 0 x.2.2.1 x.1) x.1 x.2.1, s.heldP.get? k = none) := by
  refine ⟨?_, ?_, ?_, ?_, ?_, ?_, ?_, ?_, ?_⟩ <;> decide +kernel

/-! ### Contexts, residency, the network, the device -/

/-- Context 1 in a state. -/
def ctxIn (st : CtxSt) : State := nodes [] { live with ctxs := [(1, { ctx1 with st := st })] }
/-- Five contexts that reserve every TIER 1 frame. -/
def crowded : State := nodes [] { live with ctxs := (List.range 5).map fun n => (n + 1, { ctx1 with resv := 8 }) }
/-- A gang's entry whose member list lies in a mapped page. -/
def gentA : GEnt := { v := true, gang := false, win := false, nmem := 4, mlist := 2 ^ 22 }
theorem witness_ContextLife :
    ({ live with ctxs := (List.range 32).map fun n => (n, ctx1) }.freeCtx = none ∧ (nodes [] live).freeCtx = some 0)
    ∧ ((nodes [] live).headBad ctx1 = false ∧ (nodes [] live).headBad { ctx1 with fqlog2 := 3 } = true ∧ (nodes [] live).headBad { ctx1 with part := 15 } = true
      ∧ (nodes [] live).tabBad 0 [] ctx1.ptab = none ∧ (nodes [] live).tabBad 0 [] [{ region with len := 0 }] = some 0 ∧ (nodes [] live).reserveFits ctx1 = true)
    ∧ (crowded.freeCtx = some 0 ∧ crowded.headBad { ctx1 with resv := 8 } = false ∧ crowded.tabBad 0 [] ctx1.ptab = none ∧ crowded.reserveFits { ctx1 with resv := 8 } = false)
    ∧ ((nodes [] live).grantsBad [(0, 0, 8, 8)] = false ∧ (nodes [] live).grantsBad [(0, 0, 8, 8), (1, 0, 0, 1)] = true ∧ (nodes [] live).slotsBad [(0, 0, 64)] = false
      ∧ (nodes [] live).slotsBad [(0, 1, 64)] = true ∧ (nodes [] live).tabBad 0 [] (tableOf [entNum region]) = none ∧ tableOf [entNum region] = [region]
      ∧ (∀ g ∈ [(3, { gentA with nmem := 1, mlist := 0 })], ((nodes [] live).putCtx 1 ctx1 [g] [] []).newGroupBad 1 g = false)
      ∧ ((nodes [] live).putCtx 0 ctx1 [(256, gentA)] [] []).newGroupBad 0 (256, gentA) = true)
    ∧ (∀ st ∈ [CtxSt.free, .created, .live, .stopped, .teardown], ((State.carry (ctxIn st) (.n1 1)).ctx 1).st = st)
    ∧ ((ctxIn .created).dev.dstate = .run ∧ State.reset.dev.dstate = .ambient)
    ∧ (∀ x ∈ (ctxIn .created).ctxs, x.2.part = 15 → x.2.st ≠ .live ∧ x.2.st ≠ .stopped) ∧ ((ctxIn .live).ctx 1).part = 0
    ∧ (let s := State.carry { ctxIn .teardown with flush := [(1, 10)] } (.n1 1);
      s.flush.find? (·.1 == 1) = some (1, 10) ∧ (s.ctx 1).st = .teardown ∧ s.flights = [] ∧ s.packets = []) := by
  refine ⟨?_, ?_, ?_, ?_, ?_, ?_, ?_, ?_, ?_⟩ <;> decide +kernel

/-- Core 0 with a context ACTIVE, one SHADOW, the work of a background engine, and the contexts that have work there. -/
def resid (a b : Option Nat) (r : Resid) (work : List Nat) : State :=
  nodes [] { live with ctxs := [(1, ctx1), (2, ctx1)]
                       cores := [(0, { core0 with bank := (core0.bank.setIfInBounds 0 a).setIfInBounds 1 b, resid := r, asks := work })] }
/-- What a spill left of context 2: one thread. -/
def save0 : Save := { thr := [(511, thr 0 [(3, 7)])], crews := [], fe := [], spad := [], empt := [], priv := [], recv := [], log := [] }
/-- A window's agent with one member here. -/
def returning (reports : List (Nat × Nat)) : State :=
  { live with gagents := [(259, { live.gagent 1 3 with mem := [⟨0, 0, 0, 0, 4096, .attached⟩], reports := reports })] }
theorem witness_Residency :
    (let s := State.carry (resid none none .idle [2]) (.core 0);
      (s.core 0).resid = .idle ∧ (s.core 0).want = [] ∧ (s.core 0).spillW = [] ∧ s.pickT 0 = some 2 ∧ (s.core 0).bank.getD (s.core 0).active none = none
      ∧ (s.core 0).bank.getD (1 - (s.core 0).active) none = none ∧ s.saves.get? (0 * 64 + 2) = none)
    ∧ (let s := State.carry (resid (some 1) (some 2) .idle [2]) (.core 0);
      (s.core 0).bank.getD (s.core 0).active none = some 1 ∧ (s.ctx 1).st = .live ∧ s.pickT 0 = some 2 ∧ s.givesWay 0 1 2 = true
      ∧ (s.core 0).bank.getD (1 - (s.core 0).active) none = some 2 ∧ s.gangHeld 0 1 = false ∧ s.gangHeld 0 2 = false)
    ∧ (let s := State.carry (resid (some 1) (some 2) .idle [1]) (.core 0);
      s.pickT 0 = some 1 ∧ (s.core 0).bank.getD (s.core 0).active none = some 1)
    ∧ (let s := State.carry (resid (some 1) none (.castling 100) []) (.core 0);
      (s.core 0).resid = .castling 100 ∧ 100 ≤ s.clockOf 0 ∧ (s.core 0).bank.getD (1 - (s.core 0).active) none = none ∧ (s.core 0).want = [] ∧ (s.core 0).spillW = [])
    ∧ (∀ t ∈ [[], [(512, { thr 0 [] with ctx := 2 })]], let s := State.carry { resid (some 1) (some 2) .idle [] with thr := t } (.core 0);
      (s.core 0).bank.getD (1 - (s.core 0).active) none = some 2 ∧ s.spillOk 0 2 = true ∧ (t ≠ [] → ∃ x ∈ s.thr, x.1 / 512 = 0 * 2 + 1))
    ∧ (let s := State.carry (resid (some 1) (some 2) (.spilling 2 100) []) (.core 0);
      (s.core 0).resid = .spilling 2 100 ∧ 100 ≤ s.clockOf 0 ∧ (s.core 0).want = [] ∧ (s.core 0).spillW = [])
    ∧ (let s := State.carry { resid (some 1) (some 2) (.filling 2 100) [] with saves := [(2, save0)] } (.core 0);
      (s.core 0).resid = .filling 2 100 ∧ 100 ≤ s.clockOf 0 ∧ s.saves.get? (0 * 64 + 2) = some save0 ∧ (s.partOf 2).spsave ≠ 1 ∧ (s.core 0).recv = [])
    ∧ (((returning []).gagent 1 3).out = false ∧ ∀ x ∈ ((returning []).gagent 1 3).mem, (x.chip, x.core) ∈ ((returning []).gagent 1 3).reports ++ [(0, 0)])
    ∧ (let s := resid (some 1) (some 2) .idle [];
      (s.core 0).resid = .idle ∧ (s.core 0).bank.getD (s.core 0).active none = some 1 ∧ (s.core 0).bank.getD (1 - (s.core 0).active) none = some 2) := by
  refine ⟨?_, ?_, ?_, ?_, ?_, ?_, ?_, ?_, ?_⟩ <;> decide +kernel

/-- A read on its way from core 0 to a core. -/
def flight0 (dst at_ : Nat) : Flight :=
  { chip := 0, dst := dst, src := 0, ev := ⟨.remoteRead, .req (mreq (.load false))⟩, xid := 0, at_ := at_, place := 0, inp := 4, esc := false, dl := false, dirx := 0
    born := 0, since := 0, mark := false }
def flying (f : Flight) : State := State.carry { live with flights := [f] } (.n1 0)
theorem witness_Frames :
    (∀ dst ∈ [1, 4, 383], let s := flying (flight0 dst 0);
      s.flights[0]? = some (flight0 dst 0) ∧ badCore dst = false ∧ s.chip = 0 ∧ Alone s (flight0 dst 0) ∧ s.dev.latch = []
      ∧ (∀ c, (flight0 dst 0).ev.a.ctxOf = some c → s.ctxGone c = false))
    ∧ (routerOf 1 = 0 ∧ (flying (flight0 4 0)).wants (flight0 4 0) = .out 0 false)
    ∧ (badCore 384 = true ∧ badCore 503 = true ∧ badCore 504 = false ∧ ∀ core m, (flight0 384 0).ev.a ≠ .msg core m)
    ∧ (∀ b ∈ [false, true], let k : Packet := ⟨5, 3, 1, 2, [], b⟩;
      let s := { live with packets := [k], dev := { live.dev with links := [(11, { Link.blank with st := .up })] } };
      s.packets.find? (fun k => k.n == 5 && !k.sent) = (if b then none else some k) ∧ s.linkUp (8 + k.port) = true ∧ k ∈ s.packets)
    ∧ (Arg.flits (.req (mreq (.load false))) ≤ live.poolFree ⟨0, portRouter 3 0, 11, false⟩ (isResponse .remoteRead))
    ∧ (let f := { flight0 1 (portRouter 3 0) with inp := 11 };
      ({ live with flights := List.replicate 16 f } : State).poolFree ⟨0, portRouter 3 0, 11, false⟩ (isResponse .remoteRead) < Arg.flits (.req (mreq (.load false))))
    ∧ ({ live with dev := { live.dev with chipTab := [(1, [true, false])] } } : State).dev.chipTab.get? 1 = some [true, false] := by
  refine ⟨?_, ?_, ?_, ?_, ?_, ?_, ?_⟩
  · intro dst hd
    refine ⟨?_, ?_, ?_, ?_, ?_, ?_⟩
    · rfl
    · revert dst; decide
    · rfl
    · intro g hg; exact .inl (List.mem_singleton.mp hg)
    · rfl
    · intro c hc; cases hc; show live.ctxGone 1 = false; decide +kernel
  · decide +kernel
  · exact ⟨by decide, by decide, by decide, by intro _ _ h; cases h⟩
  · decide +kernel
  · decide +kernel
  · decide +kernel
  · rfl

/-- Link n in a state. -/
def linked (n : Nat) (st : LSt) (fails : Nat) : State := { live with dev := { live.dev with links := [(n, { Link.blank with st := st, fails := fails })] } }
theorem witness_LinkStates : ∀ st ∈ [LSt.down, .training, .up, .degraded, .retraining, .failed], ∀ k ∈ [1, 2],
    (State.carry (linked 16 st k) (.n1 16)).link 16 = { Link.blank with st := st, fails := k } ∧ (State.carry (linked 0 st k) (.n2 0 100)).link 0 = { Link.blank with st := st, fails := k } := by
  decide +kernel

/-- The host port in a state, with an aperture onto 2 MB of context 1, and a host access. -/
def hosted (st : LSt) (band : Nat) (q : List HostAcc) : State :=
  { linked 16 st 0 with dev := { (linked 16 st 0).dev with band := band, aper := [(0, ⟨1, 2 ^ 21, true, false⟩)] }, hostq := q }
def hacc (op ofs : Nat) : HostAcc := { op := op, ofs := ofs, size := 8, data := 5, cmp := 0, ro := false, id := 9 }
theorem witness_HostPort :
    ((hosted .up 0 []).hostLost = false ∧ (hosted .up 0 []).dev.band ≠ 3 ∧ (hosted .failed 0 []).hostLost = true ∧ (hosted .up 3 []).hostLost = false ∧ (hosted .up 3 []).dev.band = 3)
    ∧ (let s := State.carry (hosted .up 0 [hacc 1 8]) .none;
      s.linkUp 16 = true ∧ s.hostq = [hacc 1 8] ∧ s.hostOut = [] ∧ s.hostLoc (hacc 1 8) = none ∧ s.hostLoc (hacc 0 (2 ^ 30)) = none)
    ∧ (hosted .up 0 [hacc 0 8]).hostLoc (hacc 0 8) = some (1, 2 ^ 21 + 8, far)
    ∧ (∃ r sx l0 h p, (State.carry (hosted .up 0 []) (.req (mreq (.load true)))).ev = .req r ∧ r.op = .load sx ∧ AtHome (State.carry (hosted .up 0 []) (.req (mreq (.load true)))) r l0 h p
      ∧ Grants p true false ∧ (State.carry (hosted .up 0 []) (.req (mreq (.load true)))).poison = []) :=
  ⟨by decide +kernel, by decide +kernel, by decide +kernel,
   mreq (.load true), true, mlane, far, farPage, rfl, rfl, by unfold AtHome; decide +kernel, by unfold Grants; decide, rfl⟩

/-- The device in a state. -/
def chilled (f : Dev → Dev) : State := { live with dev := f live.dev }
theorem witness_ColdDeviceA :
    (∀ n ∈ [616, 671, 672, 2048], invalidOf (List.replicate 32 n) = [] ∧ validMax (List.replicate 32 n) = n)
    ∧ (let s := chilled fun d => { d with hist := [(0, 600)] };
      ∃ h ∈ s.dev.hist, 60000000000 ≤ h.1 + 60000000000 ∧ (h.2 + 48 < 649 ∨ 649 + 48 < h.2))
    ∧ (∀ b ∈ [383, 1000, 1095], let s := chilled fun d => { d with pend := true, blocks := [b], target := 1 };
      s.dev.pend = true ∧ s.dev.blocks = [b] ∧ (b < 384 ∨ 1000 ≤ b ∧ (s.core (b - 1000)).resid = .idle))
    ∧ (∀ fl ∈ [[], [flight0 1 0]], let s := { (chilled fun d => { d with pend := true, target := 3 }) with flights := fl };
      s.dev.pend = true ∧ s.dev.target = 3 ∧ s.quiet3 = fl.isEmpty)
    ∧ (let s := chilled fun d => { d with pend := true, band := 3, target := 2 }; s.dev.pend = true ∧ s.dev.band = 3 ∧ s.dev.target = 2)
    ∧ (∀ d ∈ [DSt.ready, .cooling, .coldSettle], let s := { (chilled fun x => { x with dstate := d }) with ctxs := [] }; s.dev.dstate = d ∧ ∀ x ∈ s.ctxs, x.2.st = .free)
    ∧ (chilled fun d => { d with holdAt := some 5 }).dev.holdAt = some 5 ∧ (5 : Nat) + 30000000000 < 30000000006 := by
  refine ⟨?_, ?_, ?_, ?_, ?_, ?_, ?_, ?_⟩ <;> decide +kernel

theorem witness_Containment :
    (let ofs := (2 ^ 20 : Nat) * 128 + 3 * 32;
      0x8000000 ≤ ofs ∧ ((paged farPage).pageOfKey (1 * 0x60000000 + ofs)) = some (pgKey 1 0 1 0, farPage) ∧ (paged farPage).owners.get? (pgKey 1 0 1 0) = none
      ∧ ((paged farPage).ctx (ctxOfKey (pgKey 1 0 1 0))).st ≠ .free)
    ∧ ({ paged farPage with owners := [(pgKey 1 0 1 0, (2, 0))] }.owners.get? (pgKey 1 0 1 0) = some (2, 0) ∧ (live.ctx 1).part = 0 ∧ (live.ctx 1).st ≠ .free)
    ∧ ((524287 : Nat) * 128 + 3 * 32 < 0x4000000 ∧ 0x6000000 ≤ 786432 * 128 + 0 * 32 ∧ 1048575 * 128 + 3 * 32 < 0x8000000)
    ∧ (live.pages.get? (pgKey 1 0 1 0)).isSome = true ∧ live.pages.get? (pgKey 1 0 2 0) = none := by
  refine ⟨?_, ?_, ?_, ?_, ?_⟩ <;> decide +kernel

/-- A capture in slot 0. -/
def cap0 : Capture :=
  { slot := 0, tag := 5, src := 0, clock := 100, thr := [], crews := [], mem := [], engines := [], pages := [], slog := [], owners := [], frames := [], links := [], sensors := [], band := 0 }
theorem witness_CapturesAndReset :
    (∀ b ∈ [false, true], let s := { roam1 0 0 with dev := { live.dev with capBusy := b } }; passes (.snap ⟨5⟩) s = true ∧ s.dev.capBusy = b)
    ∧ (let s := chilled fun d => { d with latch := [383], caps := [cap0] }; s.dev.latch = [383] ∧ s.dev.caps = [cap0])
    ∧ (∃ k ∈ (chilled fun d => { d with caps := [cap0] }).dev.caps, k.slot = 0)
    ∧ ((chilled fun d => { d with leafMax := 64 }).dev.leaf < 64 ∧ live.dev.leafMax ≤ live.dev.leaf) := by
  refine ⟨?_, ?_, ?_, ?_, ?_⟩ <;> decide +kernel

/-! ### Numbers and the whole machine -/

theorem witness_IntegerMeaning : 0 < 1 ∧ (1 : BitVec 1) ≠ 0 ∧ (0 : BitVec 1) = 0 := by decide
theorem witness_Shifts : (∀ i ∈ [Instr.shl ⟨0, 4, 2, 31, 0, 0, 2⟩, .shr ⟨0, 4, 2, 3, 2, 1, 0⟩, .sar ⟨0, 4, 2, 3, 4, 0, 1⟩, .rot ⟨0, 4, 2, 3, 6, 0, 0⟩],
      (shiftWord i).isSome = true ∧ passes i pair = true) ∧ (31 : BitVec 5).msb = true ∧ ∃ l ∈ pair.iss.lanes, pair.active false l = true := by
  decide +kernel
theorem witness_ScaledAddresses : ∀ t ∈ [0, 2, 4, 7], passes (.lea ⟨0, 4, 2, 3, t, 1, 2⟩) pair = true := by decide +kernel
theorem witness_SignCopies : passes (.fsgn ⟨0, 4, 2, 3, 1, 0, 0⟩) pair = true ∧ passes (.fmul ⟨0, 4, 2, 31, 0, 0, 2⟩) pair = true
    ∧ ⟨0, 0⟩ ∈ pair.iss.lanes ∧ pair.active false ⟨0, 0⟩ = true := by decide +kernel
theorem witness_LesserAndGreater : ∀ i ∈ [Instr.fmin ⟨0, 4, 2, 3, 0, 0, 0⟩, .fmax ⟨0, 4, 2, 3, 1, 0, 0⟩, .fminnum ⟨0, 4, 2, 3, 2, 0, 0⟩, .fmaxnum ⟨0, 4, 2, 3, 3, 0, 0⟩],
    (minmaxWord i).isSome = true ∧ passes i pair = true ∧ ⟨0, 0⟩ ∈ pair.iss.lanes ∧ pair.active false ⟨0, 0⟩ = true := by decide +kernel
theorem witness_FloatSpecials : f32F ∈ fltFormats ∧ (unpackF f32F 0x7fc00000).isNan = true ∧ unpackF f32F 0x7f800000 = .inf false ∧ unpackF f32F 0xff800000 = .inf true
    ∧ (unpackF f32F 0x80000000).isZero = true ∧ finite (unpackF f32F 0x3f800000) = true ∧ (unpackF f32F 0x3f800000).isZero = false := by decide +kernel
theorem witness_FloatSpecials_sum : ratOf (unpackF f32F 0x3f800000) + ratOf (unpackF f32F 0xbf800000) = 0 := by
  have a : unpackF f32F 0x3f800000 = .fin false 8388608 (-23) := by decide +kernel
  have b : unpackF f32F 0xbf800000 = .fin true 8388608 (-23) := by decide +kernel
  rw [a, b]
  simp [ratOf]
theorem witness_RoundingIsNearest : e2m1F ∈ [f32F, f64F, bf16F, f16F, e4m3F, e5m2F, e2m1F] ∧ finite (unpackF e2m1F 7) = true := by decide +kernel

/-- The part with a word of code alone in its packet at 96, one roaming thread there that has fetched it, and the other cores of its cluster retired. -/
def running (w : Nat) : State :=
  { live with mem := (List.range 4).filterMap fun i => let b := BitVec.ofNat 8 (w / 2 ^ (8 * i)); if b = 0 then none else some (0x8000000 + 96 + i, b)
              thr := [(32, { thr 0 [(2, 5)] with pc := 96, got := [(2 * 96, .word w)] })]
              cores := (0, core0) :: [1, 2, 3].map fun c => (c, { CoreSt.blank with retired := true }) }
/-- The same with its chain under way. -/
def heads (w : Nat) : State := { running w with iss := { issue none [⟨32, 0⟩] with pre := some ((running w).thr, []) } }
theorem witness_OuterFields :
    (∃ w, encode (.add ⟨0, 4, 2, 3, 2, 0, 2⟩) = some w)
    ∧ (let s := { live with thr := [(32, { thr 0 [] with got := [(2 * 96, .word 0x8a000000), (2 * 100, .word 0x02000000)] })] };
      s.codeWord 0 1 32 96 = .word 0x8a000000 ∧ bit 0x8a000000 31 = true ∧ 96 / 4 % 3 ≠ 2 ∧ s.chainFrom 0 1 32 2 100 = .ok [0x02000000])
    ∧ (∀ w ∈ [0, 0x1ffffff], let s := heads w;
      s.headChecks = s ∧ s.iss.lanes ≠ [] ∧ s.iss.widx = 0 ∧ s.chainHere = .ok [w] ∧ s.chainHead s.iss.core s.iss.ctx s.lowLane.tk s.iss.pc.toNat = true ∧ chainBad (s.iss.pc.toNat / 4 % 3) [w] = false
      ∧ fld w 30 25 = 0) := by
  refine ⟨⟨_, rfl⟩, ?_, ?_⟩ <;> decide +kernel

/-- The bin of the thread at 96. -/
def bin0 : Bin := ⟨none, 1, 96, [32]⟩
/-- ADD.i64 g4, g2, 3: the word, the part in the cycle of core 0 that the turn gives it, and with the lane that issues. -/
def addI : Instr := .add ⟨0, 4, 2, 3, 2, 0, 2⟩
def addW : Nat := (encode addI).getD 0
def turned : State := { running addW with turn := Config.choice (running addW).tick, tick := (running addW).tick + 1 }
def cycled : State := (turned.endCycle 0).nextCycle 0
/-- A state whose one bin issues in one lane. -/
def foundIn (u : State) : State :=
  { u with iss := { issue none [⟨32, 0⟩] with pre := some (u.thr, u.crews), next := 96, banks := u.iss.banks, loads := u.iss.loads } }
def found : State := foundIn cycled
/-- A lane that nothing stands against keeps its chain. -/
theorem unchecked {s : State} (h : s.iss.lanes = [⟨32, 0⟩]) (a : s.headFault (s.T 32) s.iss.pc.toNat = none) : s.headChecks = s := by
  simp [State.headChecks, State.eachLane, h, a]
theorem unwindowed {s : State} {is : List Instr} (h : s.iss.lanes = [⟨32, 0⟩]) (b : (s.T 32).windowCheck is = none) : s.windowChecks is = s := by
  simp [State.windowChecks, State.eachLane, h, b]
theorem foundAt {u : State} (c : lanesOf bin0 ((u.oldest bin0.ths).take 32) 0 = [⟨32, 0⟩]) :
    foundIn u = { u with iss := { core := 0, ctx := bin0.ctx, crew := bin0.crew, lanes := lanesOf bin0 ((u.oldest bin0.ths).take 32) 0, pc := BitVec.ofNat 56 bin0.pc
                                  wpc := BitVec.ofNat 56 bin0.pc, next := BitVec.ofNat 56 bin0.pc, widx := 0, pre := some (u.thr, u.crews), banks := u.iss.banks
                                  loads := u.iss.loads, draws := [], pfx := .none, drops := [] } } := by
  rw [c]
  rfl
theorem witness_StepRunsDecoded : IssuesAlone turned 0 bin0 found ∧ Passes found bin0 addW addI ∧ found.iss.drops = []
    ∧ (running addW).turn % (running addW).options = 0 ∧ (running addW).running[0]? = some 0 ∧ (running addW).coresIn 0 = [0] := by
  have a : found.headFault (found.T 32) found.iss.pc.toNat = none := by decide +kernel
  have b : (found.T 32).windowCheck [addI] = none := by decide +kernel
  have c : lanesOf bin0 ((((turned.endCycle 0).nextCycle 0).oldest bin0.ths).take 32) 0 = [⟨32, 0⟩] := by decide +kernel
  refine ⟨⟨by decide +kernel, .inl (by decide +kernel), by decide +kernel, by decide +kernel, ?_⟩, ⟨?_, by decide +kernel, by decide +kernel, by decide +kernel, by decide +kernel,
    by decide +kernel, by decide +kernel, ?_, by decide +kernel⟩, by decide +kernel, by decide +kernel, by decide +kernel, by decide +kernel⟩
  · rw [found, cycled]
    exact foundAt c
  · exact unchecked rfl a
  · rw [unwindowed rfl b]
    rfl
/-- An event, a frame and a request that no field can hold, as what a step can take up. -/
theorem witness_StepRunsDecoded_events : (let s := { live with agenda := [⟨.queueNotice, .n3 1 2 0⟩], turn := 0 };
      s.agenda[s.placeOf (s.turn % s.options)]? = some ⟨.queueNotice, .n3 1 2 0⟩ ∧ (s.dev.clocksOff && clocked .queueNotice) = false)
    ∧ (let s := { live with flights := [flight0 1 0], turn := 0 }; s.turn % s.options = s.agenda.length + 0 ∧ 0 < s.flights.length) := by decide +kernel
theorem witness_StepStops : let s := { live with inbox := [⟨.nop, .none⟩], turn := 0 };
    inputOk s ⟨.nop, .none⟩ = false ∧ s.turn % s.options = s.agenda.length + s.flights.length := by decide +kernel
/-- That step, whole: the lane holds the sum and stands at the next word. -/
theorem test_step_runs_word : (match step (running addW) with | .next t => some ((t.T 32).gr 4, (t.T 32).pc, t.clockOf 0, t.iss == Issue.blank) | _ => none)
    = some (8, 100, 101, true) := by decide +kernel
/-- The state after the instruction alone, as the statement names it. -/
def after1 : State :=
  let x := found.startChain 1
  match exec addI { x with iss := { x.iss with wpc := x.iss.pc, widx := 0 } } with
  | .next t => (t.shrink found.thr found.iss.lanes 1).endRank bin0
  | _ => found
theorem test_step_is_exec : (match step (running addW) with | .next t => decide (t.thr = after1.thr ∧ t.cores = after1.cores ∧ t.iss = after1.iss ∧ t.ids = after1.ids
    ∧ t.mem = after1.mem ∧ t.agenda = after1.agenda ∧ t.crews = after1.crews) | _ => false) = true := by decide +kernel

theorem witness_EncodeDecode : ∃ i w, i.wf = true ∧ encode i = some w ∧ w < 2 ^ 32 ∧ decodeWordAt false w = .ok i := ⟨addI, addW, by decide +kernel⟩
theorem test_reset_memory_canonical : Memory.wf State.reset.mem = true := by decide
theorem witness_MemoryStaysCanonical : (running addW).mem ≠ [] ∧ Memory.wf (running addW).mem = true ∧ (match step (running addW) with | .next _ => true | _ => false) = true := by
  decide +kernel
theorem witness_UserWords : (encode addI).isSome = true ∧ (heads addW).mem ≠ [] ∧ Memory.wf (heads addW).mem = true ∧ (heads addW).firmware = false
    ∧ (match exec addI (heads addW) with | .next _ => true | _ => false) = true := by
  decide +kernel
theorem witness_OnlyHomesWrite : (∀ f, addI ≠ .xflt f) ∧ (∀ f, addI ≠ .replay f) ∧ memRd (heads addW).mem (0x8000000 + 96) ≠ 0 ∧ (0x8000000 + 96 : Nat) < 2 ^ 60 :=
  ⟨(fun _ h => by cases h), (fun _ h => by cases h), by decide +kernel, by decide⟩

end Sys2Proof.Tests
end

section
/-! The step function rule by rule: what a place of the next events runs, what a cycle of a unit runs, and what a core's one bin makes of a chain of one word. -/

namespace Sys2Proof.Proofs
open Sys2Proof Machine Claims

/-! ### The event whose turn it is (log 9) -/

/-- An arrived event at an arrival port is taken up only when no earlier one stands at that port (R74). -/
theorem placeOf_first_at_port {s : State} {n : Nat} {e : Ev} {c : Nat} (he : s.agenda[s.placeOf n]? = some e) (hc : e.portOf = some c) :
    ∀ k, k < s.placeOf n → (s.agenda[k]?.bind Ev.portOf) ≠ some c := by
  cases hport : s.agenda[n]?.bind Ev.portOf with
  | none =>
    have hn : s.placeOf n = n := by simp [State.placeOf, hport]
    rw [hn] at he
    simp [he, hc] at hport
  | some d =>
    obtain ⟨e0, he0, hd0⟩ := Option.bind_eq_some_iff.mp hport
    have hfound : (s.agenda.findIdx? fun x => x.portOf == some d).isSome := by
      simpa using ⟨e0, List.mem_of_getElem? he0, hd0⟩
    obtain ⟨j, hj⟩ := Option.isSome_iff_exists.mp hfound
    have hn : s.placeOf n = j := by simp [State.placeOf, hport, hj]
    obtain ⟨hlt, hat, hbefore⟩ := List.findIdx?_eq_some_iff_getElem.mp hj
    rw [hn] at he ⊢
    have hcd : c = d := by
      have heq : s.agenda[j] = e := by simpa [hlt] using he
      simpa [heq, hc] using hat
    intro k hk
    have hne := hbefore k hk
    simpa [List.getElem?_eq_getElem (hk.trans hlt), hcd] using hne

/-- A place at which no event stands stays as it is. -/
theorem placeOf_of_none {s : State} {n : Nat} (h : s.agenda[n]? = none) : s.placeOf n = n := by
  simp [State.placeOf, h]

theorem stepAt_event {s : State} {n : Nat} {e : Ev} (h : s.agenda[s.placeOf n]? = some e) :
    stepAt n s = if s.dev.clocksOff && clocked e.i then .next s else perform e { s with agenda := s.agenda.eraseIdx (s.placeOf n) } := by
  simp [stepAt, h]

/-- The places after the agenda are the frames in the network. -/
theorem stepAt_frame {s : State} {n k : Nat} (hn : n = s.agenda.length + k) (hk : k < s.flights.length) : stepAt n s = perform ⟨.frameRoute, .n1 k⟩ s := by
  have hnone : s.agenda[n]? = none := List.getElem?_eq_none (by omega)
  have hframe : n - s.agenda.length = k := by omega
  simp only [stepAt, placeOf_of_none hnone, hnone, hframe, if_pos hk]

/-- The places after the agenda, the frames and the one request are the units whose clocks run. -/
theorem stepAt_unit {s : State} {n k unit : Nat} (hn : n = s.agenda.length + s.flights.length + min 1 s.inbox.length + k) (hk : s.running[k]? = some unit) :
    stepAt n s = cycle unit s := by
  have hnone : s.agenda[n]? = none := List.getElem?_eq_none (by omega)
  have hframes : ¬ n - s.agenda.length < s.flights.length := by omega
  have hunit : n - s.agenda.length - s.flights.length - min 1 s.inbox.length = k := by omega
  simp only [stepAt, placeOf_of_none hnone, hnone, if_neg hframes]
  split
  case h_1 r rs hzero hinbox =>
    simp only [hinbox, List.length_cons] at hn
    omega
  case h_2 => simp [hunit, hk]

/-! ### A cycle of a unit -/

theorem cycle_mgmtCore (s : State) : cycle Config.mgmtCore s = coreCycle Config.mgmtCore s := by
  rw [cycle, if_pos rfl]

theorem coreCycles_nil (s : State) : coreCycles [] s = .next s := rfl

theorem coreCycles_cons {core : Nat} {cores : List Nat} {s u : State} (h : coreCycle core s = .next u) : coreCycles (core :: cores) s = coreCycles cores u := by
  calc coreCycles (core :: cores) s
    _ = match coreCycle core s with
      | .next t => coreCycles cores t
      | x => x := rfl
    _ = coreCycles cores u := by rw [h]

/-- A cluster with one core: its core's cycle, then its matrix engine's (R176). -/
theorem cycle_oneCore {s u : State} {unit core : Nat} (hunit : unit ≠ Config.mgmtCore) (hcores : s.coresIn (unit / 4) = [core])
    (h : coreCycle core s = .next u) : cycle unit s = .next (u.mxCycle (unit / 4)) := by
  rw [cycle, if_neg hunit, hcores, coreCycles_cons h, coreCycles_nil]

/-! ### A rank of one bin (R79, R80) -/

@[simp] theorem pick_nil (s : State) (core : Nat) : s.pick core [] = none := rfl

/-- One bin is picked, starved or not. -/
@[simp] theorem pick_one (s : State) (core : Nat) (b : Bin) : s.pick core [b] = some b := by
  by_cases hold : 64 ≤ s.age core b <;> simp [State.pick, hold]

/-- A core that is neither in a pause nor stopped issues a rank. -/
theorem coreCycle_issues {core : Nat} {s u : State} (hu : (s.endCycle core).nextCycle core = u) (hpause : (u.core core).pause = 0)
    (hrun : u.dev.stopped = false ∨ core = Config.mgmtCore) : coreCycle core s = issueRank core u := by
  have hgo : (u.dev.stopped && core != Config.mgmtCore) = false := by
    rcases hrun with h | h <;> simp [h]
  simp [coreCycle, hu, hpause, hgo]

/-- With one bin the rank is that bin's chain: no second bin is left to be picked. -/
theorem issueRank_oneBin {core : Nat} {s t : State} {b : Bin} (hbins : s.bins core = [b]) (hL : (s.core core).lBusy ≠ s.clockOf core)
    (h : issueBin core (s.thr, s.crews) b (lanesOf b ((s.oldest b.ths).take 32) 0) s = .next t) : issueRank core s = .next (t.endRank b) := by
  simp [issueRank, hbins, hL, h]

/-! ### A chain of one word (R57) -/

theorem decodeChain_one {w : Nat} {i : Instr} (h : decodeWord w = .ok i) : decodeChain [w] = [some i] := by
  have hat : decodeWordAt (prefixLooksMem w) w = .ok i := h
  simp [decodeChain, hat]

/-- A word without a prefix before it that raises no static cause leaves its chain without one. -/
theorem staticFirst_one {s : State} {i : Instr} (hpfx : s.iss.pfx = .none) (h : s.staticFault i = none) : s.staticFirst [some i] = none := by
  have hs : ({ s with iss := { s.iss with pfx := .none } } : State) = s := by rw [← hpfx]
  simp [State.staticFirst, State.staticCauses, hs, h]

theorem runWords_one {s t : State} {i : Instr} (h : exec i { s with iss := { s.iss with wpc := s.iss.pc, widx := 0 } } = .next t) :
    runWords 0 [i] s = .next t := by
  simp [runWords, h]

/-- A chain of one word that passes every check is that word's execution in its lanes; then the windows of the locks that they held shrink by one (R56). -/
theorem issueChain_passes {n : Nat} {v t : State} {b : Bin} {w : Nat} {i : Instr} (hctx : v.iss.ctx = b.ctx) (hpfx : v.iss.pfx = .none) (hp : Passes v b w i)
    (hx : exec i { v.startChain 1 with iss := { (v.startChain 1).iss with wpc := (v.startChain 1).iss.pc, widx := 0 } } = .next t) (hdrops : t.iss.drops = []) :
    issueChain (n + 1) v = .next (t.shrink v.thr v.iss.lanes 1) := by
  obtain ⟨hhead, hlanes, hchain, hfirst, hgood, hdecode, hstatic, hchecks, hmajor⟩ := hp
  rw [← hctx] at hfirst
  simp [issueChain, hhead, hlanes, hchain, hfirst, hgood, decodeChain_one hdecode, staticFirst_one hpfx hstatic, hchecks, runWords_one hx, hdrops, hmajor]

/-- The cycle of a core whose one bin's chain is one word that passes the checks. -/
theorem coreCycle_runs_word {core : Nat} {s v t : State} {b : Bin} {w : Nat} {i : Instr} (ha : IssuesAlone s core b v) (hp : Passes v b w i)
    (hx : exec i { v.startChain 1 with iss := { (v.startChain 1).iss with wpc := (v.startChain 1).iss.pc, widx := 0 } } = .next t) (hdrops : t.iss.drops = []) :
    coreCycle core s = .next ((t.shrink v.thr v.iss.lanes 1).endRank b) := by
  obtain ⟨hpause, hrun, hL, hbins, hv⟩ := ha
  rw [coreCycle_issues rfl hpause hrun]
  refine issueRank_oneBin hbins hL ?_
  rw [issueBin, ← hv]
  exact issueChain_passes (by rw [hv]) (by rw [hv]) hp hx hdrops

/-! ### The step -/

/-- Settles O54: each place of the next events by its rule, and a unit's cycle down to the one word that its core issues. -/
theorem stepRunsDecoded : Obligations.StepRunsDecoded := by
  constructor
  · intro s e n s1
    refine ⟨fun he => ⟨fun c hc => placeOf_first_at_port he hc, fun hoff => ?_, fun hon => ?_⟩, fun k hn hk => ?_⟩
    · exact (stepAt_event (s := s1) he).trans (if_pos hoff)
    · exact (stepAt_event (s := s1) he).trans (if_neg (Bool.not_eq_true _ ▸ hon))
    · exact stepAt_frame (s := s1) hn hk
  · intro s k unit hturn hk s1
    have hstep : step s = cycle unit s1 := stepAt_unit (s := s1) hturn hk
    refine ⟨fun hunit => hstep.trans (if_neg hunit), ?_⟩
    intro core b v w i t ha hp x hx hdrops u
    have hcore : coreCycle core s1 = .next u := coreCycle_runs_word ha hp hx hdrops
    refine ⟨hcore, fun hmgmt hsame => ?_, fun hunit hcores => hstep.trans (cycle_oneCore hunit hcores hcore)⟩
    rw [hstep, hmgmt, cycle_mgmtCore, ← hmgmt, ← hsame]
    exact hcore

end Sys2Proof.Proofs
end

section
/-! Rounding (02 R26): the grid of a format's magnitudes, the codes around a magnitude, and which of them rounding gives. -/

namespace Sys2Proof.Proofs
open Sys2Proof Machine Claims

/-! ### The grid of a format -/

/-- The magnitude of a code in units of the smallest subnormal, read without specials and without a largest exponent (R19). -/
def ulps (mw c : Nat) : Nat := if c / 2 ^ mw = 0 then c % 2 ^ mw else (c % 2 ^ mw + 2 ^ mw) * 2 ^ (c / 2 ^ mw - 1)

theorem ulps_of_fields {mw x m : Nat} (hm : m < 2 ^ mw) : ulps mw (x * 2 ^ mw + m) = if x = 0 then m else (m + 2 ^ mw) * 2 ^ (x - 1) := by
  have hx : (x * 2 ^ mw + m) / 2 ^ mw = x := by
    rw [Nat.mul_comm, Nat.mul_add_div (by positivity), Nat.div_eq_of_lt hm, Nat.add_zero]
  have hmod : (x * 2 ^ mw + m) % 2 ^ mw = m := by rw [Nat.mul_comm, Nat.mul_add_mod, Nat.mod_eq_of_lt hm]
  rw [ulps, hx, hmod]

/-- The next code's magnitude is greater by one unit in the last place of this one. -/
theorem ulps_succ (mw c : Nat) : ulps mw (c + 1) = ulps mw c + 2 ^ (c / 2 ^ mw - 1) := by
  have hm : c % 2 ^ mw < 2 ^ mw := Nat.mod_lt _ (by positivity)
  have hc : c / 2 ^ mw * 2 ^ mw + c % 2 ^ mw = c := Nat.div_add_mod' c (2 ^ mw)
  generalize c / 2 ^ mw = x at *
  generalize c % 2 ^ mw = m at *
  subst hc
  rw [ulps_of_fields hm]
  by_cases hlast : m + 1 < 2 ^ mw
  case pos =>
    rw [Nat.add_assoc, ulps_of_fields hlast]
    cases x with
    | zero => simp
    | succ x => simp; ring
  case neg =>
    have hnext : x * 2 ^ mw + m + 1 = (x + 1) * 2 ^ mw + 0 := by
      have : m + 1 = 2 ^ mw := by omega
      rw [Nat.add_assoc, this]; ring
    rw [hnext, ulps_of_fields (by positivity)]
    cases x with
    | zero => simp; omega
    | succ x =>
      have : m + 1 = 2 ^ mw := by omega
      simp only [Nat.add_eq_zero_iff, one_ne_zero, and_false, if_false, Nat.add_sub_cancel, Nat.zero_add, ← this]
      ring

theorem ulps_strictMono (mw : Nat) : StrictMono (ulps mw) :=
  strictMono_nat_of_lt_succ fun c => by rw [ulps_succ]; exact Nat.lt_add_of_pos_right (by positivity)

/-- The magnitude of a code, read without specials and without a largest exponent. -/
def gridVal (F : Fmt) (c : Nat) : ℚ := ulps F.mw c * (2 : ℚ) ^ (F.emin - F.mw)

theorem gridVal_strictMono (F : Fmt) : StrictMono (gridVal F) := fun a b h => by
  have : (ulps F.mw a : ℚ) < ulps F.mw b := by exact_mod_cast ulps_strictMono F.mw h
  exact mul_lt_mul_of_pos_right this (by positivity)

theorem gridVal_nonneg (F : Fmt) (c : Nat) : 0 ≤ gridVal F c := by unfold gridVal; positivity

/-- A sign as a factor. -/
def sgnQ (neg : Bool) : ℚ := if neg then -1 else 1

theorem abs_sgnQ (neg : Bool) : |sgnQ neg| = 1 := by cases neg <;> simp [sgnQ]

theorem ratOf_fin (neg : Bool) (m : Nat) (e : Int) : ratOf (.fin neg m e) = sgnQ neg * (m * (2 : ℚ) ^ e) := by
  rw [ratOf, sgnQ, mul_assoc]

/-! ### Codes and their values -/

/-- A format with exponent and mantissa bits. -/
def HasFields (F : Fmt) : Prop := 1 ≤ F.ew ∧ 1 ≤ F.mw

/-- The code of a magnitude: a code without its sign. -/
def magBits (F : Fmt) (n : Nat) : Nat := n % 2 ^ (F.ew + F.mw)

theorem magBits_div (F : Fmt) (n : Nat) : magBits F n / 2 ^ F.mw = n / 2 ^ F.mw % 2 ^ F.ew := by
  rw [magBits, Nat.add_comm, pow_add, Nat.mod_mul_right_div_self]
theorem magBits_mod (F : Fmt) (n : Nat) : magBits F n % 2 ^ F.mw = n % 2 ^ F.mw :=
  Nat.mod_mod_of_dvd _ (pow_dvd_pow _ (by omega))
theorem magBits_lt (F : Fmt) (n : Nat) : magBits F n < 2 ^ (F.ew + F.mw) := Nat.mod_lt _ (by positivity)

/-- A special code is one above the largest finite magnitude, and only such a code is special (R19). -/
theorem special_iff {F : Fmt} (hF : HasFields F) (n : Nat) :
    (n / 2 ^ F.mw % 2 ^ F.ew = 2 ^ F.ew - 1 ∧ F.sp = .ieee
      ∨ n / 2 ^ F.mw % 2 ^ F.ew = 2 ^ F.ew - 1 ∧ F.sp = .oneNan ∧ n % 2 ^ F.mw = 2 ^ F.mw - 1) ↔ F.maxCode < magBits F n := by
  obtain ⟨hew, hmw⟩ := hF
  have hc := Nat.div_add_mod' (magBits F n) (2 ^ F.mw)
  have hlt := magBits_lt F n
  have hm : magBits F n % 2 ^ F.mw < 2 ^ F.mw := Nat.mod_lt _ (by positivity)
  have htop : 1 < 2 ^ F.ew := Nat.one_lt_two_pow (by omega)
  have hmant : 1 < 2 ^ F.mw := Nat.one_lt_two_pow (by omega)
  rw [← magBits_div, ← magBits_mod]
  rw [pow_add] at hlt
  unfold Fmt.maxCode
  rw [pow_add]
  generalize magBits F n = c at *
  generalize hx : c / 2 ^ F.mw = x at *
  generalize c % 2 ^ F.mw = m at *
  generalize 2 ^ F.ew = E at *
  generalize 2 ^ F.mw = M at *
  have hxE : x < E := by
    rw [← hx]; exact Nat.div_lt_of_lt_mul (by rwa [Nat.mul_comm] at hlt)
  obtain ⟨E, rfl⟩ : ∃ k, E = k + 1 := ⟨E - 1, by omega⟩
  have hE : (E + 1) * M = E * M + M := by ring
  have hmul : x < E → x * M + M ≤ E * M := fun h => by
    calc x * M + M = (x + 1) * M := by ring
      _ ≤ E * M := Nat.mul_le_mul_right M h
  rw [Nat.add_sub_cancel]
  have hxe : x = E ∨ x < E := by omega
  have hpos : 1 ≤ E * M := Nat.mul_pos (by omega) (by omega)
  cases F.sp with
  | ieee =>
    simp only [and_true, reduceCtorEq, false_and, and_false, or_false]
    constructor
    · rintro rfl; omega
    · intro h; rcases hxe with h' | h'
      · exact h'
      · have := hmul h'; omega
  | oneNan =>
    simp only [reduceCtorEq, and_false, false_or, true_and]
    constructor
    · rintro ⟨rfl, rfl⟩; omega
    · intro h; rcases hxe with h' | h'
      · subst h'; omega
      · have := hmul h'; omega
  | finite =>
    simp only [reduceCtorEq, false_and, and_false, false_or, false_iff, not_lt]
    omega

/-- A code above the largest finite one has no value. -/
theorem not_finite_of_maxCode_lt {F : Fmt} (hF : HasFields F) {n : Nat} (h : F.maxCode < magBits F n) : finite (unpackF F n) = false := by
  rw [← special_iff hF] at h
  unfold unpackF
  rcases h with h | ⟨hx, hs, hm⟩
  · simp only [h, and_self, if_true]
    split <;> rfl
  · simp [hx, hs, hm, finite]

/-- Every other code has its sign and the magnitude of the grid. -/
theorem unpackF_of_le_maxCode {F : Fmt} (hF : HasFields F) {n : Nat} (h : magBits F n ≤ F.maxCode) :
    finite (unpackF F n) = true ∧ ratOf (unpackF F n) = sgnQ (bit n (F.ew + F.mw)) * gridVal F (magBits F n) := by
  have hspecial := (special_iff hF n).not.mpr (not_lt.mpr h)
  rw [not_or] at hspecial
  unfold unpackF gridVal ulps
  simp only [if_neg hspecial.1, if_neg hspecial.2, magBits_div, magBits_mod]
  split
  case isTrue =>
    refine ⟨rfl, ?_⟩
    rw [ratOf_fin, Fmt.emin]
  case isFalse hx =>
    refine ⟨rfl, ?_⟩
    generalize n / 2 ^ F.mw % 2 ^ F.ew = x at *
    obtain ⟨k, rfl⟩ : ∃ k, x = k + 1 := ⟨x - 1, by omega⟩
    have hexp : ((k + 1 : Nat) : Int) - F.bias - F.mw = (k : Int) + (F.emin - F.mw) := by rw [Fmt.emin]; push_cast; ring
    rw [ratOf_fin, hexp, zpow_add₀ two_ne_zero, zpow_natCast, Nat.add_sub_cancel]
    push_cast
    ring

theorem finite_iff {F : Fmt} (hF : HasFields F) (n : Nat) : finite (unpackF F n) = true ↔ magBits F n ≤ F.maxCode := by
  refine ⟨fun h => ?_, fun h => (unpackF_of_le_maxCode hF h).1⟩
  by_contra hlt
  rw [not_finite_of_maxCode_lt hF (not_le.mp hlt)] at h
  exact absurd h (by decide)

theorem maxCode_lt {F : Fmt} (hF : HasFields F) : F.maxCode < 2 ^ (F.ew + F.mw) := by
  obtain ⟨hew, hmw⟩ := hF
  have hpos : 0 < 2 ^ (F.ew + F.mw) := by positivity
  unfold Fmt.maxCode
  split
  case h_1 =>
    calc (2 ^ F.ew - 1) * 2 ^ F.mw - 1 ≤ (2 ^ F.ew - 1) * 2 ^ F.mw := Nat.sub_le _ _
      _ < 2 ^ F.ew * 2 ^ F.mw := Nat.mul_lt_mul_of_pos_right (Nat.sub_lt (by positivity) one_pos) (by positivity)
      _ = 2 ^ (F.ew + F.mw) := (pow_add ..).symm
  all_goals omega

theorem magBits_signCode {F : Fmt} {neg : Bool} {c : Nat} (hc : c < 2 ^ (F.ew + F.mw)) : magBits F (signCode F neg + c) = c := by
  cases neg <;> simp [magBits, signCode, Nat.mod_eq_of_lt hc]

theorem bit_signCode {F : Fmt} {neg : Bool} {c : Nat} (hc : c < 2 ^ (F.ew + F.mw)) : bit (signCode F neg + c) (F.ew + F.mw) = neg := by
  cases neg <;> simp [bit, signCode, Nat.div_eq_of_lt hc]

/-- What a sign with a code up to the largest finite one stands for. -/
theorem unpackF_signCode {F : Fmt} (hF : HasFields F) {neg : Bool} {c : Nat} (hc : c ≤ F.maxCode) :
    finite (unpackF F (signCode F neg + c)) = true ∧ ratOf (unpackF F (signCode F neg + c)) = sgnQ neg * gridVal F c := by
  have hlt : c < 2 ^ (F.ew + F.mw) := hc.trans_lt (maxCode_lt hF)
  have := unpackF_of_le_maxCode hF (n := signCode F neg + c) (by rwa [magBits_signCode hlt])
  rwa [magBits_signCode hlt, bit_signCode hlt] at this

/-! ### Codes of rounded magnitudes -/

/-- Where a magnitude of y units of 2^q lies on the grid: q is at least the smallest subnormal's exponent, and greater only when y has a leading mantissa bit. -/
def OnGrid (F : Fmt) (y : Nat) (q : Int) : Prop := F.emin - F.mw ≤ q ∧ (y < 2 ^ F.mw → q = F.emin - F.mw)

theorem OnGrid.succ {F : Fmt} {y : Nat} {q : Int} (h : OnGrid F y q) : OnGrid F (y + 1) q := ⟨h.1, fun hy => h.2 (by omega)⟩

/-- The code of a magnitude by its distance k from the smallest subnormal's exponent. -/
theorem magCode_add (F : Fmt) (y k : Nat) : magCode F y (F.emin - F.mw + k) =
    if y < 2 ^ F.mw then y else if y < 2 ^ (F.mw + 1) then (k + 1) * 2 ^ F.mw + (y - 2 ^ F.mw) else (k + 2) * 2 ^ F.mw := by
  have h1 : (F.emin - F.mw + k + F.mw + F.bias).toNat = k + 1 := by rw [Fmt.emin]; omega
  have h2 : (F.emin - F.mw + k + 1 + F.mw + F.bias).toNat = k + 2 := by rw [Fmt.emin]; omega
  rw [magCode, h1, h2]

theorem OnGrid.exists_add {F : Fmt} {y : Nat} {q : Int} (h : OnGrid F y q) : ∃ k : Nat, q = F.emin - F.mw + k ∧ (y < 2 ^ F.mw → k = 0) := by
  obtain ⟨hle, hsub⟩ := h
  exact ⟨(q - (F.emin - F.mw)).toNat, by omega, fun hy => by have := hsub hy; omega⟩

/-- The code of a magnitude has that magnitude. -/
theorem gridVal_magCode {F : Fmt} {y : Nat} {q : Int} (h : OnGrid F y q) (hy : y ≤ 2 ^ (F.mw + 1)) : gridVal F (magCode F y q) = y * (2 : ℚ) ^ q := by
  obtain ⟨k, rfl, hk⟩ := h.exists_add
  have hulps : ulps F.mw (magCode F y (F.emin - F.mw + k)) = y * 2 ^ k := by
    rw [magCode_add]
    have hpow : 2 ^ (F.mw + 1) = 2 ^ F.mw + 2 ^ F.mw := by ring
    split
    case isTrue hsmall => simpa [hk hsmall] using ulps_of_fields (x := 0) hsmall
    split
    case isTrue hnormal => rw [ulps_of_fields (by omega), if_neg (by omega), Nat.sub_add_cancel (by omega), Nat.add_sub_cancel]
    case isFalse =>
      have hcarry : y = 2 ^ F.mw * 2 := by omega
      have hulps := ulps_of_fields (mw := F.mw) (x := k + 2) (m := 0) (by positivity)
      rw [Nat.add_zero, Nat.zero_add, if_neg (by omega)] at hulps
      rw [hulps, hcarry, show k + 2 - 1 = k + 1 by omega, pow_succ]
      ring
  rw [gridVal, hulps, zpow_add₀ two_ne_zero, zpow_natCast]
  push_cast
  ring

/-- The next magnitude has the next code. -/
theorem magCode_succ {F : Fmt} {y : Nat} {q : Int} (h : OnGrid F y q) (hy : y < 2 ^ (F.mw + 1)) : magCode F (y + 1) q = magCode F y q + 1 := by
  obtain ⟨k, rfl, hk⟩ := h.exists_add
  rw [magCode_add, magCode_add]
  have hpow : 2 ^ (F.mw + 1) = 2 ^ F.mw + 2 ^ F.mw := by ring
  have htwo : (k + 2) * 2 ^ F.mw = (k + 1) * 2 ^ F.mw + 2 ^ F.mw := by ring
  by_cases hsmall : y < 2 ^ F.mw
  case pos =>
    simp only [hk hsmall, if_pos hsmall]
    split_ifs <;> omega
  case neg => split_ifs <;> omega

theorem magCode_mod_two {F : Fmt} (hF : HasFields F) {y : Nat} {q : Int} (hy : y ≤ 2 ^ (F.mw + 1)) : magCode F y q % 2 = y % 2 := by
  have heven : 2 ^ F.mw % 2 = 0 := by
    obtain ⟨k, hk⟩ := Nat.exists_eq_add_of_le hF.2
    simp [hk, pow_add]
  have hpow : 2 ^ (F.mw + 1) = 2 ^ F.mw + 2 ^ F.mw := by ring
  unfold magCode
  split_ifs
  · rfl
  · rw [Nat.add_mod, Nat.mul_mod, heven]; simp; omega
  · rw [Nat.mul_mod, heven]; simp; omega

theorem signCode_add_mod_two {F : Fmt} (hF : HasFields F) (neg : Bool) (c : Nat) : (signCode F neg + c) % 2 = c % 2 := by
  cases neg
  case false => simp [signCode]
  case true =>
    obtain ⟨k, hk⟩ := Nat.exists_eq_add_of_le hF.2
    have heven : 2 ^ (F.ew + F.mw) % 2 = 0 := by simp [hk, pow_add, Nat.mul_mod]
    rw [signCode, if_pos rfl]; omega

/-! ### Quotients rounded to integers -/

theorem div_zpow_of_nonpos (m : Nat) {sh : Int} (h : sh ≤ 0) : (m : ℚ) / 2 ^ sh = (m * 2 ^ (-sh).toNat : Nat) := by
  obtain ⟨k, rfl⟩ : ∃ k : Nat, sh = -k := ⟨(-sh).toNat, by omega⟩
  simp

theorem div_zpow_of_pos (m : Nat) {sh : Int} (h : 0 < sh) :
    (m : ℚ) / 2 ^ sh = (m / 2 ^ sh.toNat : Nat) + (m % 2 ^ sh.toNat : Nat) / (2 ^ sh.toNat : Nat) := by
  obtain ⟨k, rfl⟩ : ∃ k : Nat, sh = k := ⟨sh.toNat, by omega⟩
  have hsplit : (m : ℚ) = (m / 2 ^ k : Nat) * (2 ^ k : Nat) + (m % 2 ^ k : Nat) := by exact_mod_cast (Nat.div_add_mod' m (2 ^ k)).symm
  have hpos : ((2 ^ k : Nat) : ℚ) ≠ 0 := by positivity
  rw [Int.toNat_natCast, zpow_natCast, ← Nat.cast_two, ← Nat.cast_pow]
  rw [div_eq_iff hpos, add_mul, div_mul_cancel₀ _ hpos]
  exact hsplit

/-- Toward zero the quotient's integer part is taken. -/
theorem quant_towardZero (r : Nat) (neg : Bool) (m : Nat) (sh : Int) :
    ((quant 2 r neg m sh).1 : ℚ) ≤ m / 2 ^ sh ∧ (m / 2 ^ sh : ℚ) < (quant 2 r neg m sh).1 + 1 := by
  unfold quant
  split
  case isTrue h => rw [div_zpow_of_nonpos m h]; simp
  case isFalse h =>
    rw [div_zpow_of_pos m (not_le.mp h)]
    have hpos : (0 : ℚ) < (2 ^ sh.toNat : Nat) := by positivity
    have hlt : ((m % 2 ^ sh.toNat : Nat) : ℚ) < (2 ^ sh.toNat : Nat) := by exact_mod_cast Nat.mod_lt m (by positivity)
    constructor
    · simp only [Bool.false_eq_true, if_false, le_add_iff_nonneg_right]; positivity
    · simpa using (div_lt_one hpos).mpr hlt

/-- An integer a below a quotient rounded to nearest-even as y: which of a and a + 1 it is (R24). -/
def TiesToEven (ρ : ℚ) (a y : Nat) : Prop :=
  (y = a ∧ 2 * (ρ - a) ≤ 1 ∧ (2 * (ρ - a) = 1 → a % 2 = 0)) ∨ (y = a + 1 ∧ 1 ≤ 2 * (ρ - a) ∧ (2 * (ρ - a) = 1 → a % 2 = 1))

/-- To nearest-even the nearer of the two integers around the quotient is taken, the even one where both are as near, and what is inexact is reported. -/
theorem quant_nearestEven (r : Nat) (neg : Bool) (m : Nat) (sh : Int) :
    ∃ a : Nat, (a : ℚ) ≤ m / 2 ^ sh ∧ (m / 2 ^ sh : ℚ) < a + 1 ∧ TiesToEven (m / 2 ^ sh) a (quant 1 r neg m sh).1
      ∧ ((quant 1 r neg m sh).2 = false ↔ (m / 2 ^ sh : ℚ) = a) := by
  unfold quant
  split
  case isTrue h => exact ⟨_, (div_zpow_of_nonpos m h).ge, by rw [div_zpow_of_nonpos m h]; simp, .inl ⟨rfl, by rw [div_zpow_of_nonpos m h]; simp⟩, by simp [div_zpow_of_nonpos m h]⟩
  case isFalse h =>
    rw [div_zpow_of_pos m (not_le.mp h)]
    dsimp only
    generalize sh.toNat = k
    generalize m / 2 ^ k = a
    have hlt : m % 2 ^ k < 2 ^ k := Nat.mod_lt m (by positivity)
    generalize m % 2 ^ k = d at *
    generalize 2 ^ k = n at *
    have hn : (0 : ℚ) < n := by exact_mod_cast (by omega : 0 < n)
    have hle : 2 * ((d : ℚ) / n) ≤ 1 ↔ 2 * d ≤ n := by rw [← mul_div_assoc, div_le_one hn]; norm_cast
    have hge : 1 ≤ 2 * ((d : ℚ) / n) ↔ n ≤ 2 * d := by rw [← mul_div_assoc, one_le_div hn]; norm_cast
    have heq : 2 * ((d : ℚ) / n) = 1 ↔ 2 * d = n := by rw [← mul_div_assoc, div_eq_one_iff_eq hn.ne']; norm_cast
    have hfrac : (d : ℚ) / n < 1 := (div_lt_one hn).mpr (by exact_mod_cast hlt)
    refine ⟨a, by simp; positivity, by simpa using hfrac, ?_, by simp [hn.ne']⟩
    simp only [TiesToEven, add_sub_cancel_left, hle, hge, heq]
    split_ifs with hup
    · simp only [Bool.or_eq_true, Bool.and_eq_true, decide_eq_true_eq, beq_iff_eq] at hup
      exact .inr ⟨rfl, by omega, by omega⟩
    · simp only [Bool.or_eq_true, Bool.and_eq_true, decide_eq_true_eq, beq_iff_eq] at hup
      exact .inl ⟨rfl, by omega, by omega⟩

/-! ### The codes around a magnitude -/

/-- The exponent of the unit to which a magnitude m × 2^e is rounded. -/
def roundExp (F : Fmt) (m : Nat) (e : Int) : Int := max (leadExp m e - F.mw) (F.emin - F.mw)

/-- The integer below a magnitude in that unit has at most a mantissa's bits and lies on the grid. -/
theorem onGrid_of_bracket {F : Fmt} {m a : Nat} {e : Int} (hm : m ≠ 0) (hlo : (a : ℚ) ≤ m / 2 ^ (roundExp F m e - e))
    (hhi : (m / 2 ^ (roundExp F m e - e) : ℚ) < a + 1) : OnGrid F a (roundExp F m e) ∧ a < 2 ^ (F.mw + 1) := by
  have hpow : (0 : ℚ) < 2 ^ (roundExp F m e - e) := by positivity
  have hlead : leadExp m e = e + Nat.log2 m := rfl
  have hle : leadExp m e - F.mw ≤ roundExp F m e := le_max_left ..
  refine ⟨⟨le_max_right .., fun ha => ?_⟩, ?_⟩
  · by_contra hne
    have hq : roundExp F m e = leadExp m e - F.mw := (max_choice _ _).resolve_right hne
    have hmant : (2 : ℚ) ^ F.mw ≤ m / 2 ^ (roundExp F m e - e) := by
      rw [le_div_iff₀ hpow, ← zpow_natCast, ← zpow_add₀ two_ne_zero, show (F.mw : Int) + (roundExp F m e - e) = Nat.log2 m by omega, zpow_natCast]
      exact_mod_cast Nat.log2_self_le hm
    have : (2 : ℚ) ^ F.mw < a + 1 := hmant.trans_lt hhi
    have : 2 ^ F.mw < a + 1 := by exact_mod_cast this
    omega
  · have hlt : (m / 2 ^ (roundExp F m e - e) : ℚ) < 2 ^ (F.mw + 1) := by
      rw [div_lt_iff₀ hpow, ← zpow_natCast, ← zpow_add₀ two_ne_zero]
      calc (m : ℚ) < (2 ^ (Nat.log2 m + 1) : Nat) := by exact_mod_cast Nat.lt_log2_self
        _ = 2 ^ ((Nat.log2 m + 1 : Nat) : Int) := by rw [zpow_natCast]; push_cast; rfl
        _ ≤ 2 ^ (((F.mw + 1 : Nat) : Int) + (roundExp F m e - e)) := zpow_le_zpow_right₀ one_le_two (by push_cast; omega)
    exact_mod_cast hlo.trans_lt hlt

/-- The exact magnitude in its unit. -/
theorem magnitude_eq_quotient_mul (m : Nat) (e q : Int) : (m : ℚ) * 2 ^ e = m / 2 ^ (q - e) * 2 ^ q := by
  rw [zpow_sub₀ two_ne_zero]
  field_simp

/-- The magnitudes of that integer's code and of the next one. -/
theorem gridVal_bracket {F : Fmt} {m a : Nat} {e : Int} (hm : m ≠ 0) (hlo : (a : ℚ) ≤ m / 2 ^ (roundExp F m e - e))
    (hhi : (m / 2 ^ (roundExp F m e - e) : ℚ) < a + 1) :
    gridVal F (magCode F a (roundExp F m e)) = a * 2 ^ roundExp F m e ∧ gridVal F (magCode F a (roundExp F m e) + 1) = (a + 1) * 2 ^ roundExp F m e := by
  obtain ⟨hgrid, ha⟩ := onGrid_of_bracket hm hlo hhi
  refine ⟨gridVal_magCode hgrid ha.le, ?_⟩
  rw [← magCode_succ hgrid ha, gridVal_magCode hgrid.succ ha]
  push_cast
  rfl

theorem roundF_of_ne_zero {F : Fmt} {mode r : Nat} {neg : Bool} {m : Nat} {e : Int} (hm : m ≠ 0) :
    roundF F mode r neg m e =
      let y := quant mode r neg m (roundExp F m e - e)
      let c := magCode F y.1 (roundExp F m e)
      if F.maxCode < c then ⟨overflowR F mode neg, fOverflow ||| fInexact⟩
      else ⟨signCode F neg + c, flagIf y.2 fInexact ||| flagIf (y.2 && tiny F mode r neg m e) fUnderflow⟩ := by
  rw [roundF, if_neg hm]
  rfl

theorem roundF_zero (F : Fmt) (mode r : Nat) (neg : Bool) (e : Int) : roundF F mode r neg 0 e = ⟨signCode F neg, 0⟩ := rfl

@[simp] theorem gridVal_zero (F : Fmt) : gridVal F 0 = 0 := by simp [gridVal, ulps]

/-! ### Toward zero -/

/-- Toward zero the code below the magnitude is given, or the largest finite one where that is less. -/
theorem roundF_towardZero (F : Fmt) (r : Nat) (neg : Bool) (m : Nat) (e : Int) :
    ∃ c, (roundF F 2 r neg m e).bits = signCode F neg + min c F.maxCode ∧ gridVal F c ≤ m * 2 ^ e ∧ m * 2 ^ e < gridVal F (c + 1) := by
  by_cases hm : m = 0
  case pos =>
    subst hm
    refine ⟨0, by simp [roundF_zero], by simp, ?_⟩
    rw [Nat.cast_zero, zero_mul, ← gridVal_zero F]
    exact gridVal_strictMono F (by omega)
  case neg =>
    obtain ⟨hlo, hhi⟩ := quant_towardZero r neg m (roundExp F m e - e)
    obtain ⟨hval, hsucc⟩ := gridVal_bracket hm hlo hhi
    refine ⟨magCode F (quant 2 r neg m (roundExp F m e - e)).1 (roundExp F m e), ?_, ?_, ?_⟩
    · rw [roundF_of_ne_zero hm]
      dsimp only
      split_ifs with h
      · simp [overflowR, min_eq_right h.le]
      · simp [min_eq_left (not_lt.mp h)]
    · rw [hval, magnitude_eq_quotient_mul m e (roundExp F m e)]
      gcongr
    · rw [hsucc, magnitude_eq_quotient_mul m e (roundExp F m e)]
      gcongr

/-! ### To nearest-even -/

/-- A code to which no other is nearer, and which is even where another is as near. -/
def NearestCode (F : Fmt) (v : ℚ) (c : Nat) : Prop :=
  ∀ n, n ≠ c → |v - gridVal F c| ≤ |v - gridVal F n| ∧ (|v - gridVal F c| = |v - gridVal F n| → c % 2 = 0)

/-- Of two neighbouring codes around a value, the nearer one is nearest of all. -/
theorem nearestCode_of_neighbours {F : Fmt} {v : ℚ} {a c : Nat} (hlo : gridVal F a ≤ v) (hhi : v < gridVal F (a + 1))
    (hc : (c = a ∧ v - gridVal F a ≤ gridVal F (a + 1) - v ∧ (v - gridVal F a = gridVal F (a + 1) - v → c % 2 = 0))
      ∨ (c = a + 1 ∧ gridVal F (a + 1) - v ≤ v - gridVal F a ∧ (v - gridVal F a = gridVal F (a + 1) - v → c % 2 = 0))) :
    NearestCode F v c := by
  intro n hn
  have hmono := gridVal_strictMono F
  have hside : n ≤ a ∧ |v - gridVal F n| = v - gridVal F n ∨ a + 1 ≤ n ∧ |v - gridVal F n| = gridVal F n - v := by
    rcases Nat.lt_or_ge a n with h | h
    · have := hmono.monotone (show a + 1 ≤ n from h)
      exact .inr ⟨h, by rw [abs_of_neg (by linarith)]; ring⟩
    · have := hmono.monotone h
      exact .inl ⟨h, abs_of_nonneg (by linarith)⟩
  rcases hc with ⟨rfl, hnear, htie⟩ | ⟨rfl, hnear, htie⟩
  case inl =>
    rw [abs_of_nonneg (sub_nonneg.mpr hlo)]
    rcases hside with ⟨h, hd⟩ | ⟨h, hd⟩ <;> rw [hd]
    · have := hmono (lt_of_le_of_ne h hn)
      exact ⟨by linarith, fun heq => by linarith⟩
    · have := hmono.monotone h
      exact ⟨by linarith, fun heq => htie (by linarith)⟩
  case inr =>
    rw [abs_of_neg (sub_neg.mpr hhi)]
    rcases hside with ⟨h, hd⟩ | ⟨h, hd⟩ <;> rw [hd]
    · have := hmono.monotone h
      exact ⟨by linarith, fun heq => htie (by linarith)⟩
    · have := hmono (lt_of_le_of_ne h hn.symm)
      exact ⟨by linarith, fun heq => by linarith⟩

theorem flag_and_overflow (a b : Bool) : (flagIf a fInexact ||| flagIf b fUnderflow) &&& fOverflow = 0 := by
  revert a b; decide
theorem flag_and_inexact (a b : Bool) : (flagIf a fInexact ||| flagIf b fUnderflow) &&& fInexact = 0 ↔ a = false := by
  revert a b; decide

/-- To nearest-even a nearest code is given; it overflows where that is no finite one, and INEXACT tells whether the magnitude differs. -/
theorem roundF_nearestEven {F : Fmt} (hF : HasFields F) (r : Nat) (neg : Bool) (m : Nat) (e : Int) :
    ∃ c, NearestCode F (m * 2 ^ e) c ∧ if F.maxCode < c then roundF F 1 r neg m e = ⟨overflowR F 1 neg, fOverflow ||| fInexact⟩
      else (roundF F 1 r neg m e).bits = signCode F neg + c ∧ (roundF F 1 r neg m e).fl &&& fOverflow = 0
        ∧ ((roundF F 1 r neg m e).fl &&& fInexact = 0 ↔ gridVal F c = m * 2 ^ e) := by
  by_cases hm : m = 0
  case pos =>
    subst hm
    exact ⟨0, fun n _ => by simp, by simp [roundF_zero]⟩
  case neg =>
    obtain ⟨a, hlo, hhi, hties, hexact⟩ := quant_nearestEven r neg m (roundExp F m e - e)
    obtain ⟨hval, hsucc⟩ := gridVal_bracket hm hlo hhi
    obtain ⟨hgrid, ha⟩ := onGrid_of_bracket hm hlo hhi
    have hv := magnitude_eq_quotient_mul m e (roundExp F m e)
    have hparity : magCode F a (roundExp F m e) % 2 = a % 2 := magCode_mod_two hF ha.le
    have hnext := magCode_succ hgrid ha
    rw [roundF_of_ne_zero hm]
    dsimp only
    generalize quant 1 r neg m (roundExp F m e - e) = y at *
    generalize (m : ℚ) / 2 ^ (roundExp F m e - e) = ρ at *
    have hu : (0 : ℚ) < 2 ^ roundExp F m e := by positivity
    generalize (2 : ℚ) ^ roundExp F m e = u at *
    have hbelow : (m : ℚ) * 2 ^ e - gridVal F (magCode F a (roundExp F m e)) = (ρ - a) * u := by rw [hv, hval]; ring
    have habove : gridVal F (magCode F a (roundExp F m e) + 1) - (m : ℚ) * 2 ^ e = (1 - (ρ - a)) * u := by rw [hv, hsucc]; ring
    refine ⟨magCode F y.1 (roundExp F m e), nearestCode_of_neighbours (a := magCode F a (roundExp F m e)) ?_ ?_ ?_, ?_⟩
    · rw [hv, hval]; gcongr
    · rw [hv, hsucc]; gcongr
    · rw [hbelow, habove, mul_le_mul_iff_of_pos_right hu, mul_le_mul_iff_of_pos_right hu, mul_left_inj' hu.ne']
      rcases hties with ⟨hy, hle, heven⟩ | ⟨hy, hge, hodd⟩
      · rw [hy, hparity]
        exact .inl ⟨rfl, by linarith, fun h => heven (by linarith)⟩
      · rw [hy, hnext]
        exact .inr ⟨rfl, by linarith, fun h => by have := hodd (by linarith); omega⟩
    · split_ifs with h
      · rfl
      · refine ⟨rfl, flag_and_overflow .., ?_⟩
        rw [flag_and_inexact, hexact, hv]
        rcases hties with ⟨hy, -, -⟩ | ⟨hy, hge, -⟩
        · rw [hy, hval, mul_left_inj' hu.ne', eq_comm]
        · rw [hy, hnext, hsucc, mul_left_inj' hu.ne']
          exact ⟨fun h => by linarith, fun h => by linarith⟩

/-! ### Signed values -/

theorem abs_sgnQ_mul (neg : Bool) (x : ℚ) : |sgnQ neg * x| = |x| := by rw [abs_mul, abs_sgnQ, one_mul]

theorem abs_ratOf_of_finite {F : Fmt} (hF : HasFields F) {n : Nat} (h : finite (unpackF F n) = true) :
    |ratOf (unpackF F n)| = gridVal F (magBits F n) := by
  rw [(unpackF_of_le_maxCode hF ((finite_iff hF n).mp h)).2, abs_sgnQ_mul, abs_of_nonneg (gridVal_nonneg F _)]

theorem abs_ratOf_fin (neg : Bool) (m : Nat) (e : Int) : |ratOf (.fin neg m e)| = m * 2 ^ e := by
  rw [ratOf_fin, abs_sgnQ_mul, abs_of_nonneg (by positivity)]

/-- A value with the nearest magnitude and the same sign is nearest among the values of both signs. -/
theorem nearest_signed {F : Fmt} (hF : HasFields F) {V : ℚ} (hV : 0 ≤ V) {neg : Bool} {c n : Nat} (hc : NearestCode F V c) (hn : finite (unpackF F n) = true) :
    |sgnQ neg * V - sgnQ neg * gridVal F c| ≤ |sgnQ neg * V - ratOf (unpackF F n)|
      ∧ (|sgnQ neg * V - sgnQ neg * gridVal F c| = |sgnQ neg * V - ratOf (unpackF F n)| → ratOf (unpackF F n) ≠ sgnQ neg * gridVal F c → c % 2 = 0) := by
  have hx := (unpackF_of_le_maxCode hF ((finite_iff hF n).mp hn)).2
  have hmag := abs_ratOf_of_finite hF hn
  have hfar : |V - gridVal F (magBits F n)| ≤ |sgnQ neg * V - ratOf (unpackF F n)| := by
    have := abs_abs_sub_abs_le (sgnQ neg * V) (ratOf (unpackF F n))
    rwa [abs_sgnQ_mul, abs_of_nonneg hV, hmag] at this
  rw [← mul_sub, abs_sgnQ_mul]
  by_cases hsame : magBits F n = c
  case neg =>
    obtain ⟨hle, htie⟩ := hc _ hsame
    exact ⟨hle.trans hfar, fun heq _ => htie (le_antisymm hle (heq ▸ hfar))⟩
  case pos =>
    rw [hsame] at hfar hx
    refine ⟨hfar, fun heq hne => ?_⟩
    have hg := gridVal_nonneg F c
    rw [hx] at heq hne
    have hopposite : sgnQ (bit n (F.ew + F.mw)) = -sgnQ neg := by
      cases neg <;> cases hb : bit n (F.ew + F.mw) <;> simp_all [sgnQ]
    have hgpos : gridVal F c ≠ 0 := fun h0 => hne (by rw [h0, mul_zero, mul_zero])
    rw [hopposite, neg_mul, sub_neg_eq_add, ← mul_add, abs_sgnQ_mul, abs_of_nonneg (add_nonneg hV hg)] at heq
    rcases abs_cases (V - gridVal F c) with ⟨habs, -⟩ | ⟨habs, -⟩
    · exact absurd (by linarith) hgpos
    · have hzero : V = 0 := by linarith
      have hc0 : 0 ≠ c := fun h0 => hgpos (by rw [← h0, gridVal_zero])
      have hcloser := (hc 0 hc0).1
      rw [hzero, gridVal_zero, sub_zero, abs_zero, zero_sub, abs_neg, abs_nonpos_iff] at hcloser
      exact absurd hcloser hgpos

/-! ### Rounding -/

theorem rounding_towardZero {F : Fmt} (hF : HasFields F) (r : Nat) (neg : Bool) (m : Nat) (e : Int) :
    let v := ratOf (.fin neg m e)
    let y := unpackF F (roundF F 2 r neg m e).bits
    finite y = true ∧ |ratOf y| ≤ |v| ∧ 0 ≤ ratOf y * v
      ∧ ∀ c, finite (unpackF F c) = true → |ratOf (unpackF F c)| ≤ |v| → |ratOf (unpackF F c)| ≤ |ratOf y| := by
  intro v y
  obtain ⟨c, hbits, hle, hlt⟩ := roundF_towardZero F r neg m e
  obtain ⟨hfin, hval⟩ := unpackF_signCode hF (neg := neg) (min_le_right c F.maxCode)
  rw [← hbits] at hfin hval
  have hmono := gridVal_strictMono F
  have hv : |v| = m * 2 ^ e := abs_ratOf_fin neg m e
  have hy : |ratOf y| = gridVal F (min c F.maxCode) := by rw [hval, abs_sgnQ_mul, abs_of_nonneg (gridVal_nonneg F _)]
  refine ⟨hfin, ?_, ?_, fun n hn hnle => ?_⟩
  · rw [hy, hv]
    exact (hmono.monotone (min_le_left ..)).trans hle
  · have hsq : sgnQ neg * sgnQ neg = 1 := by cases neg <;> simp [sgnQ]
    calc (0 : ℚ) ≤ gridVal F (min c F.maxCode) * (m * 2 ^ e) := mul_nonneg (gridVal_nonneg F _) (by positivity)
      _ = (sgnQ neg * sgnQ neg) * (gridVal F (min c F.maxCode) * (m * 2 ^ e)) := by rw [hsq, one_mul]
      _ = ratOf y * v := by rw [hval, show v = sgnQ neg * (m * 2 ^ e) from ratOf_fin neg m e]; ring
  · rw [abs_ratOf_of_finite hF hn] at hnle ⊢
    rw [hy]
    rw [hv] at hnle
    have hbelow : magBits F n < c + 1 := hmono.lt_iff_lt.mp (hnle.trans_lt hlt)
    exact hmono.monotone (le_min (by omega) ((finite_iff hF n).mp hn))

theorem rounding_nearestEven {F : Fmt} (hF : HasFields F) (r : Nat) (neg : Bool) (m : Nat) (e : Int) :
    let v := ratOf (.fin neg m e)
    let q := roundF F 1 r neg m e
    let y := unpackF F q.bits
    if q.fl &&& fOverflow = 0 then
      finite y = true ∧ (q.fl &&& fInexact = 0 ↔ ratOf y = v)
        ∧ ∀ c, finite (unpackF F c) = true → |v - ratOf y| ≤ |v - ratOf (unpackF F c)|
          ∧ (|v - ratOf y| = |v - ratOf (unpackF F c)| → ratOf (unpackF F c) ≠ ratOf y → q.bits % 2 = 0)
    else (∀ c, finite (unpackF F c) = true → |ratOf (unpackF F c)| < |v|) ∧ q.bits = (if F.sp = .ieee then (infR F neg 0).bits else signCode F neg + F.maxCode) := by
  intro v q y
  have hV : (0 : ℚ) ≤ m * 2 ^ e := by positivity
  obtain ⟨c, hnear, h⟩ := roundF_nearestEven hF r neg m e
  have hmono := gridVal_strictMono F
  split at h
  case isTrue hover =>
    have hfl : q.fl &&& fOverflow ≠ 0 := by simp only [q, h]; decide
    rw [if_neg hfl]
    refine ⟨fun n hn => ?_, ?_⟩
    · have hle := (finite_iff hF n).mp hn
      rw [abs_ratOf_of_finite hF hn, abs_ratOf_fin]
      have hgt := hmono (hle.trans_lt hover)
      have hcloser := (hnear (magBits F n) (by omega)).1
      by_contra hnot
      rw [abs_of_neg (by linarith), abs_of_nonpos (by linarith)] at hcloser
      linarith
    · simp only [q, h, overflowR, infR]
      split_ifs <;> simp_all
  case isFalse hfit =>
    obtain ⟨hbits, hfl, hinexact⟩ := h
    obtain ⟨hfin, hval⟩ := unpackF_signCode hF (neg := neg) (not_lt.mp hfit)
    rw [← hbits] at hfin hval
    have hv : v = sgnQ neg * (m * 2 ^ e) := ratOf_fin neg m e
    have hne : sgnQ neg ≠ 0 := by cases neg <;> simp [sgnQ]
    rw [if_pos hfl]
    refine ⟨hfin, ?_, fun n hn => ?_⟩
    · rw [hinexact, hval, hv, mul_right_inj' hne]
    · obtain ⟨hle, htie⟩ := nearest_signed hF hV (neg := neg) hnear hn
      rw [hval, hv]
      exact ⟨hle, fun heq hdiff => by rw [hbits, signCode_add_mod_two hF]; exact htie heq hdiff⟩

/-- Settles O51: the code that rounding gives is, on the grid of the format's magnitudes, the one below the value's magnitude or one of the two around it. -/
theorem roundingIsNearest : Obligations.RoundingIsNearest := by
  intro F hmem r neg m e
  have hF : HasFields F := by
    unfold HasFields
    revert F
    decide
  exact ⟨rounding_towardZero hF r neg m e, rounding_nearestEven hF r neg m e⟩

end Sys2Proof.Proofs
end

section
/-! The integer element functions are the fixed-width operations (02 R21, 05 R101-R112): each function of elements against the operation on bit vectors. -/

namespace Sys2Proof.Proofs
open Sys2Proof Machine Claims

/-! ### Elements as bit vectors (R21) -/

theorem wrapI_eq_toNat (w : Nat) (i : Int) : wrapI w i = (BitVec.ofInt w i).toNat := (BitVec.toNat_ofInt i).symm

/-- A vector whose signed reading is an integer modulo 2^w holds that integer's low bits. -/
theorem wrapI_of_toInt {w : Nat} {x : BitVec w} {i : Int} (h : x.toInt = i.bmod (2 ^ w)) : wrapI w i = x.toNat := by
  have hx : BitVec.ofInt w i = x := by rw [← BitVec.toInt_inj, BitVec.toInt_ofInt, h]
  rw [wrapI_eq_toNat, hx]

@[simp] theorem wrapI_toInt {w : Nat} (x : BitVec w) : wrapI w x.toInt = x.toNat := wrapI_of_toInt (by simp)

theorem wrapI_natCast (w n : Nat) : wrapI w n = n % 2 ^ w := by rw [wrapI]; norm_cast

@[simp] theorem ival_signed {w : Nat} (a : BitVec w) : ival w true a.toNat = a.toInt := by
  simp only [ival, if_true, sgn, BitVec.toInt_eq_toNat_cond, Nat.mod_eq_of_lt a.isLt]

@[simp] theorem ival_unsigned {w : Nat} (a : BitVec w) : ival w false a.toNat = a.toNat := by
  simp [ival, Nat.mod_eq_of_lt a.isLt]

theorem ival_inj {w : Nat} (sg : Bool) (a b : BitVec w) : ival w sg a.toNat = ival w sg b.toNat ↔ a = b := by
  cases sg
  · rw [ival_unsigned, ival_unsigned, Nat.cast_inj, BitVec.toNat_inj]
  · rw [ival_signed, ival_signed, BitVec.toInt_inj]

theorem not_fits_signed (w : Nat) (i : Int) : (!fits w true i) = (decide (2 ^ (w - 1) ≤ i) || decide (i < -2 ^ (w - 1))) := by
  rw [Bool.eq_iff_iff]
  simp only [fits, if_true, Bool.not_eq_true', decide_eq_false_iff_not, Bool.or_eq_true, decide_eq_true_eq, Nat.cast_pow, Nat.cast_ofNat]
  omega

theorem fits_signed_toInt {w : Nat} (x : BitVec w) : fits w true x.toInt = true := by
  have hlo := x.le_toInt
  have hhi := x.toInt_lt
  simp [fits, hlo, hhi]

theorem not_fits_unsigned_natCast (w n : Nat) : (!fits w false n) = decide (2 ^ w ≤ n) := by
  rw [Bool.eq_iff_iff]
  simp only [fits, Bool.false_eq_true, if_false, Bool.not_eq_true', decide_eq_false_iff_not, decide_eq_true_eq, Nat.cast_lt]
  omega

theorem toInt_intMin_of_pos {w : Nat} (hw : 0 < w) : (BitVec.intMin w).toInt = -2 ^ (w - 1) := by
  rw [BitVec.toInt_intMin, Nat.mod_eq_of_lt (Nat.pow_lt_pow_right one_lt_two (by omega))]
  push_cast
  rfl

theorem eq_intMin_iff {w : Nat} (hw : 0 < w) (a : BitVec w) : a = BitVec.intMin w ↔ a.toInt = -2 ^ (w - 1) := by
  rw [← BitVec.toInt_inj, toInt_intMin_of_pos hw]

/-- A negated value does not fit exactly where it was the least one. -/
theorem not_fits_neg {w : Nat} (hw : 0 < w) (a : BitVec w) : (!fits w true (-a.toInt)) = (a == BitVec.intMin w) := by
  rw [not_fits_signed, Bool.eq_iff_iff]
  simp only [Bool.or_eq_true, decide_eq_true_eq, beq_iff_eq, eq_intMin_iff hw]
  have hlo := a.le_toInt
  have hhi := a.toInt_lt
  have hpos : (0 : Int) < 2 ^ (w - 1) := by positivity
  omega

/-- A wrapped result whose low bits are a vector's. -/
theorem wrapR_signed {w : Nat} {x : BitVec w} {i : Int} (h : x.toInt = i.bmod (2 ^ w)) :
    wrapR w true i = ⟨x.toNat, flagIf (decide (2 ^ (w - 1) ≤ i) || decide (i < -2 ^ (w - 1))) fIntOvf⟩ := by
  rw [wrapR, wrapI_of_toInt h, not_fits_signed]

theorem wrapR_unsigned_natCast (w n : Nat) : wrapR w false n = ⟨n % 2 ^ w, flagIf (decide (2 ^ w ≤ n)) fIntOvf⟩ := by
  rw [wrapR, wrapI_natCast, not_fits_unsigned_natCast]

/-! ### Sums, differences and products (R102) -/

theorem addE_signed {w : Nat} (a b : BitVec w) : addE w true a.toNat b.toNat = ⟨(a + b).toNat, flagIf (BitVec.saddOverflow a b) fIntOvf⟩ := by
  rw [addE, ival_signed, ival_signed, wrapR_signed (BitVec.toInt_add a b)]
  rfl

theorem addE_unsigned {w : Nat} (a b : BitVec w) : addE w false a.toNat b.toNat = ⟨(a + b).toNat, flagIf (BitVec.uaddOverflow a b) fIntOvf⟩ := by
  rw [addE, ival_unsigned, ival_unsigned, ← Nat.cast_add, wrapR_unsigned_natCast, BitVec.toNat_add]
  rfl

theorem subE_signed {w : Nat} (a b : BitVec w) : subE w true a.toNat b.toNat = ⟨(a - b).toNat, flagIf (BitVec.ssubOverflow a b) fIntOvf⟩ := by
  rw [subE, ival_signed, ival_signed, wrapR_signed (BitVec.toInt_sub (x := a) (y := b))]
  rfl

/-- The low bits of an unsigned difference. -/
theorem wrapI_toNat_sub {w : Nat} (a b : BitVec w) : wrapI w ((a.toNat : Int) - b.toNat) = (a - b).toNat := by
  have hlow (x : BitVec w) : BitVec.ofInt w x.toNat = x := by rw [BitVec.ofInt_natCast, BitVec.ofNat_toNat, BitVec.setWidth_eq]
  rw [wrapI_eq_toNat, sub_eq_add_neg, BitVec.ofInt_add, BitVec.ofInt_neg, hlow, hlow, BitVec.sub_eq_add_neg]

theorem subE_unsigned {w : Nat} (a b : BitVec w) : subE w false a.toNat b.toNat = ⟨(a - b).toNat, flagIf (BitVec.usubOverflow a b) fIntOvf⟩ := by
  have hfit : (!fits w false ((a.toNat : Int) - b.toNat)) = BitVec.usubOverflow a b := by
    have := a.isLt
    rw [BitVec.usubOverflow, Bool.eq_iff_iff]
    simp only [fits, Bool.false_eq_true, if_false, Bool.not_eq_true', decide_eq_false_iff_not, decide_eq_true_eq]
    omega
  rw [subE, ival_unsigned, ival_unsigned, wrapR, wrapI_toNat_sub, hfit]

theorem mulE_signed {w : Nat} (a b : BitVec w) : mulE w true a.toNat b.toNat = ⟨(a * b).toNat, flagIf (BitVec.smulOverflow a b) fIntOvf⟩ := by
  rw [mulE, ival_signed, ival_signed, wrapR_signed (BitVec.toInt_mul a b)]
  rfl

theorem mulE_unsigned {w : Nat} (a b : BitVec w) : mulE w false a.toNat b.toNat = ⟨(a * b).toNat, flagIf (BitVec.umulOverflow a b) fIntOvf⟩ := by
  rw [mulE, ival_unsigned, ival_unsigned, ← Nat.cast_mul, wrapR_unsigned_natCast, BitVec.toNat_mul]
  rfl

/-- The upper half of a double-width vector. -/
theorem toNat_upperHalf {w : Nat} (x : BitVec (2 * w)) : (x.extractLsb' w w).toNat = x.toNat / 2 ^ w := by
  have hlt : x.toNat / 2 ^ w < 2 ^ w := Nat.div_lt_of_lt_mul (by rw [← pow_add, ← two_mul]; exact x.isLt)
  rw [BitVec.extractLsb'_toNat, Nat.shiftRight_eq_div_pow, Nat.mod_eq_of_lt hlt]

theorem mulhE_signed {w : Nat} (a b : BitVec w) :
    mulhE w true a.toNat b.toNat = ⟨((a.signExtend (2 * w) * b.signExtend (2 * w)).extractLsb' w w).toNat, 0⟩ := by
  rw [toNat_upperHalf, mulhE, ival_signed, ival_signed, wrapI_eq_toNat, BitVec.ofInt_mul]
  rfl

theorem mulhE_unsigned {w : Nat} (a b : BitVec w) :
    mulhE w false a.toNat b.toNat = ⟨((a.setWidth (2 * w) * b.setWidth (2 * w)).extractLsb' w w).toNat, 0⟩ := by
  rw [toNat_upperHalf, mulhE, ival_unsigned, ival_unsigned, ← Nat.cast_mul, wrapI_natCast, BitVec.toNat_mul, BitVec.toNat_setWidth, BitVec.toNat_setWidth,
    ← Nat.mul_mod]

/-! ### Bitwise operations -/

theorem andE_toNat {w : Nat} (sg : Bool) (a b : BitVec w) : andE w sg a.toNat b.toNat = ⟨(a &&& b).toNat, 0⟩ := by
  rw [andE, ← BitVec.toNat_and, Nat.mod_eq_of_lt (BitVec.isLt _)]
theorem orE_toNat {w : Nat} (sg : Bool) (a b : BitVec w) : orE w sg a.toNat b.toNat = ⟨(a ||| b).toNat, 0⟩ := by
  rw [orE, ← BitVec.toNat_or, Nat.mod_eq_of_lt (BitVec.isLt _)]
theorem xorE_toNat {w : Nat} (sg : Bool) (a b : BitVec w) : xorE w sg a.toNat b.toNat = ⟨(a ^^^ b).toNat, 0⟩ := by
  rw [xorE, ← BitVec.toNat_xor, Nat.mod_eq_of_lt (BitVec.isLt _)]
theorem andnE_toNat {w : Nat} (sg : Bool) (a b : BitVec w) : andnE w sg a.toNat b.toNat = ⟨(a &&& ~~~b).toNat, 0⟩ := by
  rw [andnE, Nat.mod_eq_of_lt b.isLt, ← BitVec.toNat_not, ← BitVec.toNat_and, Nat.mod_eq_of_lt (BitVec.isLt _)]

/-! ### Comparisons, lesser and greater, distances -/

theorem ival_lt_signed {w : Nat} (a b : BitVec w) : ival w true a.toNat < ival w true b.toNat ↔ a.slt b = true := by
  rw [ival_signed, ival_signed, BitVec.slt_iff_toInt_lt]
theorem ival_lt_unsigned {w : Nat} (a b : BitVec w) : ival w false a.toNat < ival w false b.toNat ↔ a.ult b = true := by
  rw [ival_unsigned, ival_unsigned, BitVec.ult_iff_lt, BitVec.lt_def, Nat.cast_lt]

/-- One of two elements, chosen by any condition. -/
theorem ite_toNat_mod {w : Nat} (a b : BitVec w) (p : Prop) [Decidable p] : (if p then a.toNat else b.toNat) % 2 ^ w = (if p then a else b).toNat := by
  split <;> exact Nat.mod_eq_of_lt (BitVec.isLt _)

theorem minE_signed {w : Nat} (a b : BitVec w) : minE w true a.toNat b.toNat = ⟨(if b.slt a then b else a).toNat, 0⟩ := by
  simp only [minE, ival_lt_signed, ite_toNat_mod]
theorem minE_unsigned {w : Nat} (a b : BitVec w) : minE w false a.toNat b.toNat = ⟨(if b.ult a then b else a).toNat, 0⟩ := by
  simp only [minE, ival_lt_unsigned, ite_toNat_mod]
theorem maxE_signed {w : Nat} (a b : BitVec w) : maxE w true a.toNat b.toNat = ⟨(if a.slt b then b else a).toNat, 0⟩ := by
  simp only [maxE, ival_lt_signed, ite_toNat_mod]
theorem maxE_unsigned {w : Nat} (a b : BitVec w) : maxE w false a.toNat b.toNat = ⟨(if a.ult b then b else a).toNat, 0⟩ := by
  simp only [maxE, ival_lt_unsigned, ite_toNat_mod]

theorem natAbs_mod_of_nonneg {w : Nat} {i : Int} (h : 0 ≤ i) : i.natAbs % 2 ^ w = wrapI w i := by
  rw [← wrapI_natCast, Int.natAbs_of_nonneg h]
theorem natAbs_mod_of_nonpos {w : Nat} {i : Int} (h : i ≤ 0) : i.natAbs % 2 ^ w = wrapI w (-i) := by
  rw [← Int.natAbs_neg, natAbs_mod_of_nonneg (by omega)]

theorem absdE_signed {w : Nat} (a b : BitVec w) : absdE w true a.toNat b.toNat = ⟨(if a.slt b then b - a else a - b).toNat, 0⟩ := by
  rw [absdE, ival_signed, ival_signed]
  split
  case isTrue h =>
    rw [BitVec.slt_iff_toInt_lt] at h
    rw [natAbs_mod_of_nonpos (by omega), neg_sub, wrapI_of_toInt (BitVec.toInt_sub (x := b) (y := a))]
  case isFalse h =>
    rw [BitVec.slt_iff_toInt_lt] at h
    rw [natAbs_mod_of_nonneg (by omega), wrapI_of_toInt (BitVec.toInt_sub (x := a) (y := b))]

theorem absdE_unsigned {w : Nat} (a b : BitVec w) : absdE w false a.toNat b.toNat = ⟨(if a.ult b then b - a else a - b).toNat, 0⟩ := by
  rw [absdE, ival_unsigned, ival_unsigned]
  split
  case isTrue h =>
    rw [BitVec.ult_iff_lt, BitVec.lt_def] at h
    rw [natAbs_mod_of_nonpos (by omega), neg_sub, wrapI_toNat_sub]
  case isFalse h =>
    rw [BitVec.ult_iff_lt, BitVec.lt_def] at h
    rw [natAbs_mod_of_nonneg (by omega), wrapI_toNat_sub]

theorem icmpE_lt_signed {w : Nat} (a b : BitVec w) : icmpE w true 2 a.toNat b.toNat = a.slt b := by
  rw [Bool.eq_iff_iff, ← ival_lt_signed]
  exact decide_eq_true_iff
theorem icmpE_lt_unsigned {w : Nat} (a b : BitVec w) : icmpE w false 2 a.toNat b.toNat = a.ult b := by
  rw [Bool.eq_iff_iff, ← ival_lt_unsigned]
  exact decide_eq_true_iff
theorem icmpE_eq {w : Nat} (sg : Bool) (a b : BitVec w) : icmpE w sg 0 a.toNat b.toNat = (a == b) := by
  rw [Bool.eq_iff_iff, beq_iff_eq, ← ival_inj sg]
  exact decide_eq_true_iff

/-! ### Saturated sums -/

theorem satR_of_fits {w : Nat} {sg : Bool} {i : Int} (h : fits w sg i = true) : satR w sg i = ⟨wrapI w i, 0⟩ := by
  cases sg <;> simp only [fits, Bool.false_eq_true, if_true, if_false, decide_eq_true_eq] at h
  · simp only [satR, Bool.false_eq_true, if_false]
    rw [if_neg (by omega), if_neg (by omega)]
  · simp only [satR, if_true]
    rw [if_neg (by omega), if_neg (by omega)]

theorem addsatE_signed {w : Nat} (hw : 0 < w) (a b : BitVec w) : addsatE w true a.toNat b.toNat =
    if BitVec.saddOverflow a b then ⟨(if a.msb then BitVec.intMin w else BitVec.intMax w).toNat, fIntOvf⟩ else ⟨(a + b).toNat, 0⟩ := by
  have hover : BitVec.saddOverflow a b = !fits w true (a.toInt + b.toInt) := (not_fits_signed w _).symm
  rw [addsatE, ival_signed, ival_signed]
  split
  case isFalse h =>
    rw [satR_of_fits (by simpa [hover] using h), wrapI_of_toInt (BitVec.toInt_add a b)]
  case isTrue h =>
    have hpow : ((2 ^ (w - 1) : Nat) : Int) = 2 ^ (w - 1) := by push_cast; rfl
    rw [hover, not_fits_signed, Bool.or_eq_true, decide_eq_true_eq, decide_eq_true_eq] at h
    have ha := a.le_toInt
    have hb := b.le_toInt
    have ha' := a.toInt_lt
    have hb' := b.toInt_lt
    simp only [satR, if_true, BitVec.msb_eq_toInt, decide_eq_true_eq, hpow]
    by_cases hneg : a.toInt < 0
    · rw [if_pos (by omega), if_pos hneg, ← toInt_intMin_of_pos hw, wrapI_toInt]
    · rw [if_neg (by omega), if_pos (by omega), if_neg hneg, ← BitVec.toInt_intMax, wrapI_toInt]

theorem addsatE_unsigned {w : Nat} (a b : BitVec w) : addsatE w false a.toNat b.toNat =
    if BitVec.uaddOverflow a b then ⟨(BitVec.allOnes w).toNat, fIntOvf⟩ else ⟨(a + b).toNat, 0⟩ := by
  have hover : BitVec.uaddOverflow a b = !fits w false (a.toNat + b.toNat : Nat) := (not_fits_unsigned_natCast w _).symm
  rw [addsatE, ival_unsigned, ival_unsigned, ← Nat.cast_add]
  split
  case isFalse h =>
    rw [satR_of_fits (by simpa [hover] using h), wrapI_natCast, BitVec.toNat_add]
  case isTrue h =>
    rw [hover, not_fits_unsigned_natCast, decide_eq_true_eq] at h
    have hpos : 0 < 2 ^ w := by positivity
    simp only [satR, Bool.false_eq_true, if_false]
    rw [if_neg (by omega), if_pos (by omega), ← Nat.cast_pred hpos, wrapI_natCast, Nat.mod_eq_of_lt (by omega), BitVec.toNat_allOnes]

/-! ### Quotients and remainders (R104) -/

theorem toNat_mod_eq_zero {w : Nat} (b : BitVec w) : b.toNat % 2 ^ w = 0 ↔ b = 0 := by
  rw [Nat.mod_eq_of_lt b.isLt, ← BitVec.toNat_inj]
  rfl

theorem divE_zero {w : Nat} (sg : Bool) (x : Nat) : divE w sg x (0 : BitVec w).toNat = ⟨(BitVec.allOnes w).toNat, fIntDiv⟩ := by
  rw [divE, if_pos ((toNat_mod_eq_zero _).mpr rfl), BitVec.toNat_allOnes]
theorem remE_zero {w : Nat} (sg : Bool) (a : BitVec w) : remE w sg a.toNat (0 : BitVec w).toNat = ⟨a.toNat, fIntDiv⟩ := by
  rw [remE, if_pos ((toNat_mod_eq_zero _).mpr rfl), Nat.mod_eq_of_lt a.isLt]

/-- A signed quotient does not fit exactly where the least value is divided by −1. -/
theorem not_fits_tdiv {w : Nat} (hw : 0 < w) (a b : BitVec w) :
    (!fits w true (a.toInt.tdiv b.toInt)) = (a == BitVec.intMin w && b == BitVec.allOnes w) := by
  have hones : BitVec.allOnes w = -1#w := BitVec.neg_one_eq_allOnes.symm
  have hminus : (BitVec.allOnes w).toInt = -1 := by rw [BitVec.toInt_allOnes, if_pos hw]
  by_cases hb : b = BitVec.allOnes w
  case pos => rw [hb, hminus, Int.tdiv_neg, Int.tdiv_one, not_fits_neg hw, beq_self_eq_true, Bool.and_true]
  case neg =>
    rw [← BitVec.toInt_sdiv_of_ne_or_ne a b (.inr (hones ▸ hb)), fits_signed_toInt, beq_eq_false_iff_ne.mpr hb, Bool.and_false]
    rfl

theorem divE_signed {w : Nat} (hw : 0 < w) (a : BitVec w) {b : BitVec w} (hb : b ≠ 0) : divE w true a.toNat b.toNat =
    ⟨(a.sdiv b).toNat, flagIf (a == BitVec.intMin w && b == BitVec.allOnes w) fIntOvf⟩ := by
  rw [divE, if_neg ((toNat_mod_eq_zero b).not.mpr hb), ival_signed, ival_signed, wrapR, wrapI_of_toInt (BitVec.toInt_sdiv a b), not_fits_tdiv hw]

theorem divE_unsigned {w : Nat} (a : BitVec w) {b : BitVec w} (hb : b ≠ 0) : divE w false a.toNat b.toNat = ⟨(a / b).toNat, 0⟩ := by
  have hlt : a.toNat / b.toNat < 2 ^ w := (Nat.div_le_self _ _).trans_lt a.isLt
  rw [divE, if_neg ((toNat_mod_eq_zero b).not.mpr hb), ival_unsigned, ival_unsigned, ← Int.ofNat_tdiv, wrapR_unsigned_natCast, Nat.mod_eq_of_lt hlt,
    decide_eq_false (not_le.mpr hlt), BitVec.toNat_udiv]
  rfl

theorem remE_signed {w : Nat} (a : BitVec w) {b : BitVec w} (hb : b ≠ 0) : remE w true a.toNat b.toNat = ⟨(a.srem b).toNat, 0⟩ := by
  rw [remE, if_neg ((toNat_mod_eq_zero b).not.mpr hb), ival_signed, ival_signed, ← BitVec.toInt_srem, wrapI_toInt]

theorem remE_unsigned {w : Nat} (a : BitVec w) {b : BitVec w} (hb : b ≠ 0) : remE w false a.toNat b.toNat = ⟨(a % b).toNat, 0⟩ := by
  rw [remE, if_neg ((toNat_mod_eq_zero b).not.mpr hb), ival_unsigned, ival_unsigned, ← Int.ofNat_tmod, wrapI_natCast, BitVec.toNat_umod,
    Nat.mod_eq_of_lt ((Nat.mod_le _ _).trans_lt a.isLt)]

/-! ### Negation and magnitude -/

theorem negE_signed {w : Nat} (hw : 0 < w) (a : BitVec w) : negE w true a.toNat = ⟨(-a).toNat, flagIf (a == BitVec.intMin w) fIntOvf⟩ := by
  rw [negE, ival_signed, wrapR, wrapI_of_toInt BitVec.toInt_neg, not_fits_neg hw]

theorem negE_unsigned {w : Nat} (a : BitVec w) : negE w false a.toNat = ⟨(-a).toNat, flagIf (a != 0) fIntOvf⟩ := by
  have h := subE_unsigned 0 a
  have hover : BitVec.usubOverflow 0 a = (a != 0) := by
    rw [BitVec.usubOverflow, Bool.eq_iff_iff, decide_eq_true_eq, bne_iff_ne, ne_eq, ← BitVec.toNat_inj]
    exact Nat.pos_iff_ne_zero
  have hzero : ((0 : BitVec w).toNat : Int) = 0 := by simp
  rw [subE, ival_unsigned 0, hzero, zero_sub, hover, BitVec.sub_eq_add_neg, zero_add] at h
  exact h

theorem absE_signed {w : Nat} (hw : 0 < w) (a : BitVec w) : absE w true a.toNat = ⟨a.abs.toNat, flagIf (a == BitVec.intMin w) fIntOvf⟩ := by
  rw [absE, if_pos rfl, ival_signed, BitVec.abs_eq, BitVec.msb_eq_toInt]
  by_cases hneg : a.toInt < 0
  case pos =>
    rw [Int.ofNat_natAbs_of_nonpos hneg.le, wrapR, wrapI_of_toInt BitVec.toInt_neg, not_fits_neg hw, decide_eq_true hneg, if_pos rfl]
  case neg =>
    have hpos : (0 : Int) < 2 ^ (w - 1) := by positivity
    have hne : a ≠ BitVec.intMin w := by rw [ne_eq, eq_intMin_iff hw]; omega
    rw [Int.natAbs_of_nonneg (not_lt.mp hneg), wrapR, wrapI_toInt, fits_signed_toInt, decide_eq_false hneg, beq_eq_false_iff_ne.mpr hne]
    rfl

theorem absE_unsigned {w : Nat} (a : BitVec w) : absE w false a.toNat = ⟨a.toNat, 0⟩ := by
  simp [absE, Nat.mod_eq_of_lt a.isLt]

/-! ### Counts of bits -/

theorem clzE_zero (w : Nat) : clzE w 0 = w := by simp [clzE]

theorem lt_two_pow_sub_clzE {w : Nat} (a : BitVec w) : a.toNat < 2 ^ (w - clzE w a.toNat) := by
  rw [clzE, Nat.mod_eq_of_lt a.isLt]
  split
  case isTrue h => rw [h]; positivity
  case isFalse h =>
    have hlog : Nat.log2 a.toNat < w := (Nat.log2_lt h).mpr a.isLt
    rw [show w - (w - 1 - Nat.log2 a.toNat) = Nat.log2 a.toNat + 1 by omega]
    exact Nat.lt_log2_self

theorem two_pow_sub_clzE_le {w : Nat} {a : BitVec w} (ha : a ≠ 0) : 2 ^ (w - 1 - clzE w a.toNat) ≤ a.toNat := by
  have hne : a.toNat ≠ 0 := fun h => ha (BitVec.toNat_inj.mp h)
  have hlog : Nat.log2 a.toNat < w := (Nat.log2_lt hne).mpr a.isLt
  rw [clzE, Nat.mod_eq_of_lt a.isLt, if_neg hne, show w - 1 - (w - 1 - Nat.log2 a.toNat) = Nat.log2 a.toNat by omega]
  exact Nat.log2_self_le hne

theorem ctzGo_zero (k : Nat) : ctzGo k 0 = k := by
  induction k with
  | zero => rfl
  | succ k ih => rw [ctzGo, if_neg (by omega), Nat.zero_div, ih, Nat.add_comm]

theorem two_pow_ctzGo_dvd (k a : Nat) : 2 ^ ctzGo k a ∣ a := by
  induction k generalizing a with
  | zero => simp [ctzGo]
  | succ k ih =>
    rw [ctzGo]
    split
    case isTrue => simp
    case isFalse h =>
      have heven : a = 2 * (a / 2) := by omega
      rw [heven, Nat.mul_div_cancel_left _ two_pos, pow_add, pow_one]
      exact Nat.mul_dvd_mul_left 2 (ih _)

theorem not_two_pow_ctzGo_succ_dvd {k a : Nat} (ha : a ≠ 0) (hlt : a < 2 ^ k) : ¬ 2 ^ (ctzGo k a + 1) ∣ a := by
  induction k generalizing a with
  | zero => omega
  | succ k ih =>
    rw [ctzGo]
    split
    case isTrue h => rw [Nat.zero_add, pow_one]; omega
    case isFalse h =>
      have heven : a = 2 * (a / 2) := by omega
      rw [heven, Nat.mul_div_cancel_left _ two_pos, Nat.add_assoc, pow_add, pow_one, Nat.mul_dvd_mul_iff_left two_pos]
      exact ih (by omega) (by rw [pow_succ] at hlt; omega)

theorem popGo_eq_countP (k a : Nat) : popGo k a = (List.range k).countP a.testBit := by
  induction k generalizing a with
  | zero => rfl
  | succ k ih =>
    have hshift : a.testBit ∘ Nat.succ = (a / 2).testBit := funext fun i => Nat.testBit_succ a i
    rw [popGo, ih, List.range_succ_eq_map, List.countP_cons, List.countP_map, hshift, Nat.testBit_zero, Nat.add_comm]
    rcases Nat.mod_two_eq_zero_or_one a with h | h <;> simp [h]

theorem testBit_revGo (k a i : Nat) : revGo k a < 2 ^ k ∧ (revGo k a).testBit i = (decide (i < k) && a.testBit (k - 1 - i)) := by
  induction k generalizing a i with
  | zero => simp [revGo]
  | succ k ih =>
    have hlt := (ih (a / 2) i).1
    have hbit : a % 2 < 2 := Nat.mod_lt _ two_pos
    rw [revGo, Nat.mul_comm]
    refine ⟨?_, ?_⟩
    · have : 2 ^ k * (a % 2) ≤ 2 ^ k * 1 := Nat.mul_le_mul_left _ (by omega)
      rw [pow_succ]
      omega
    · rw [Nat.testBit_two_pow_mul_add _ hlt]
      split
      case isTrue h =>
        rw [(ih _ _).2, decide_eq_true h, decide_eq_true (by omega : i < k + 1), ← Nat.testBit_succ, show (k - 1 - i).succ = k + 1 - 1 - i by omega]
      case isFalse h =>
        by_cases hi : i = k
        · subst hi
          simp
        · have hhigh : (a % 2).testBit (i - k) = false := Nat.testBit_lt_two_pow (hbit.trans_le (Nat.le_self_pow (by omega) 2))
          rw [hhigh, decide_eq_false (by omega : ¬ i < k + 1), Bool.false_and]

theorem revGo_toNat {w : Nat} (a : BitVec w) : revGo w a.toNat = a.reverse.toNat := by
  refine Nat.eq_of_testBit_eq fun i => ?_
  rw [(testBit_revGo w a.toNat i).2, BitVec.testBit_toNat, BitVec.testBit_toNat, BitVec.getLsbD_reverse, BitVec.getMsbD]

/-- Settles O45: each element function by its own lemma. -/
theorem integerMeaning : Obligations.IntegerMeaning := by
  intro w a b hw x y
  have hpos (h : a ≠ 0) : a.toNat ≠ 0 := fun h0 => h (BitVec.toNat_inj.mp h0)
  refine ⟨⟨addE_signed a b, addE_unsigned a b⟩, ⟨subE_signed a b, subE_unsigned a b⟩, ⟨mulE_signed a b, mulE_unsigned a b⟩,
    ⟨mulhE_signed a b, mulhE_unsigned a b⟩, fun sg => ⟨andE_toNat sg a b, orE_toNat sg a b, xorE_toNat sg a b, andnE_toNat sg a b⟩,
    ⟨minE_signed a b, minE_unsigned a b⟩, ⟨maxE_signed a b, maxE_unsigned a b⟩, ⟨addsatE_signed hw a b, addsatE_unsigned a b⟩,
    ?byZero, fun hb => ⟨divE_signed hw a hb, divE_unsigned a hb, remE_signed a hb, remE_unsigned a hb⟩, ⟨absdE_signed a b, absdE_unsigned a b⟩,
    ⟨negE_signed hw a, negE_unsigned a⟩, ⟨absE_signed hw a, absE_unsigned a⟩,
    ⟨lt_two_pow_sub_clzE a, two_pow_sub_clzE_le, two_pow_ctzGo_dvd w _, fun ha => not_two_pow_ctzGo_succ_dvd (hpos ha) a.isLt, ?ofZero⟩,
    popGo_eq_countP w _, revGo_toNat a, icmpE_lt_signed a b, icmpE_lt_unsigned a b, fun sg => icmpE_eq sg a b⟩
  case byZero =>
    rintro rfl sg
    exact ⟨divE_zero sg _, remE_zero sg a⟩
  case ofZero =>
    rintro rfl
    exact ⟨clzE_zero w, ctzGo_zero w⟩

end Sys2Proof.Proofs
end

section
/-! MTSR in lanes whose threads stand in no thread table (02 R25, 06 R145, 07 R173): a state in which the second lane does not write what it would have read before the word. -/

namespace Sys2Proof.Proofs
open Sys2Proof Machine Claims

/-! ### A word whose first lane changes what its second lane reads

A launch constant of a roaming thread comes through its core's L1 (R171, R323). Whether that is the core's own or the fused one of its cluster (R173) depends on
every thread in the thread table of the cluster. `Issues` does not ask that the issuing lanes' threads stand in that table, and a write to a thread that does not
stand there puts it there: the first lane of an MTSR so ends the fusion, and the second lane reads its launch constant from another L1. -/

/-- The kernel of context 0: one launch constant, at address 128, and no request to fuse. -/
def unfusedKernel : KEnt :=
  { code := 0, trapv := 0, round := 1, trapen := 0, carry := 0, nscal := 1, lconst := 128, seed := 0, roam := true, fuse := false, chip := 0, qid := 0, pkt := 0 }
/-- One region, homed at core 0. -/
def homeZero : PEnt := { v := true, base := 0, len := 2 ^ 21, chip0 := 0, nchip := 1, count := 1, glog := 21, tier := 0, coreset := 1 }
/-- The page of address 128 as core 0's permission cache knows it: it may be read. -/
def readable : PermE := { ctx := 0, chip := 0, key := tagOfKey (pgKey 0 0 0 0), rd := true, wr := false, ex := false, ord := 0, s := true }
/-- Line 1 in an L1, with a value in its first bytes. -/
def lineOne (holder v : Nat) : Rep := { ctx := 0, line := 1, holder := holder, way := 0, data := v, lo := some ⟨0, 0, false⟩, hi := none }

/-- Two lanes of roaming threads that stand in no table issue on core 0. The fused L1 of its cluster holds line 1 in the slice of core 1, with the value 1; core 0's
own L1 holds it with the value 2. -/
def unplacedLanes : State :=
  { State.reset with
    ctxs := [(0, { Ctx.blank with ptab := [homeZero] })], kern := [(0, unfusedKernel)], cores := [(0, { CoreSt.blank with perm := [readable] })]
    reps := [lineOne 1 1, lineOne 0 2], iss := { Issue.blank with ctx := 1, lanes := [⟨0, 0⟩, ⟨1, 1⟩] } }

/-- MTSR of SRNG from launch constant 0. -/
def srngFromConst : S2F := ⟨0, 14, 0⟩

theorem unplacedLanes_issues : Issues (.mtsr srngFromConst) unplacedLanes := by
  constructor <;> decide +kernel

/-- Before the word each lane reads 1. -/
theorem unplacedLanes_const : unplacedLanes.code srngFromConst.a 1 = 1 := by decide +kernel

/-- The second lane writes 2. -/
theorem unplacedLanes_srng {t : State} (h : exec (.mtsr srngFromConst) unplacedLanes = .next t) : (t.T 1).srng = 2 := by
  have hrun : (match exec (.mtsr srngFromConst) unplacedLanes with
    | .next t => (t.T 1).srng
    | _ => 0) = 2 := by decide +kernel
  rw [h] at hrun
  exact hrun

/-- Refutes O6: the first lane's write puts its thread into the thread table, which ends its cluster's fusion (R173), and the second lane's launch constant is then
read from another L1 than before the word. -/
theorem not_specialRegisterWrites : ¬ Obligations.SpecialRegisterWrites := by
  rintro ⟨hmtsr, -⟩
  obtain ⟨t, hexec, -, hlanes⟩ := (hmtsr srngFromConst unplacedLanes unplacedLanes_issues).1 (by decide) (fun h => absurd h (by decide))
  have hsecond : (t.T 1).srng = 1 := by
    rw [hlanes 1]
    change (wrSr 14 (unplacedLanes.code srngFromConst.a 1) (unplacedLanes.T 1)).srng = 1
    rw [unplacedLanes_const]
    rfl
  rw [unplacedLanes_srng hexec] at hsecond
  exact absurd hsecond (by decide)

end Sys2Proof.Proofs
end

section
/-! Moves, votes, reductions and scans across lanes (06 R155-R161): each word as an effect on its active lanes' own threads, and for REDL and SCANL on the crew. -/

namespace Sys2Proof.Proofs
open Sys2Proof Machine Claims Laws

/-! ### Words that change their lanes' own threads and nothing else -/

theorem endWord_onlyThreads {s t : State} (h : ThrOnly s t) : OnlyThreads s t.endWord := by
  unfold OnlyThreads
  rw [h]
  rfl

/-- An effect in those lanes of a list that meet a condition, where it reads only the lane's own thread: those threads take it, and nothing else changes. -/
theorem fold_where_threads {v : State} {lanes : List LaneRef} {on : LaneRef → Bool} {g : State → LaneRef → State} (f : LaneRef → Thr → Thr)
    (hn : (lanes.map (·.tk)).Nodup) (hg : ∀ u l, ThrOnly v u → u.T l.tk = v.T l.tk → g u l = u.setT l.tk (f l (v.T l.tk))) :
    ThrOnly v ((lanes.filter on).foldl g v) ∧ ∀ tk, ((lanes.filter on).foldl g v).T tk = match lanes.find? (·.tk == tk) with
      | some l => if on l then f l (v.T tk) else v.T tk
      | none => v.T tk := by
  rw [List.foldl_filter]
  refine fold_lanes v _ (fun l x => if on l then f l x else x) lanes hn fun u l hu hT _ => ?_
  by_cases hon : on l = true
  · exact .inl (by rw [if_pos hon, if_pos hon, hg u l hu hT])
  · exact .inr ⟨if_neg hon, if_neg hon⟩

/-- An effect in a word's active lanes. -/
theorem activeLanes_threads {s : State} {pr : Bool} {g : State → LaneRef → State} (f : LaneRef → Thr → Thr) (hn : (s.iss.lanes.map (·.tk)).Nodup)
    (hg : ∀ u l, ThrOnly s u → u.T l.tk = s.T l.tk → g u l = u.setT l.tk (f l (s.T l.tk))) :
    ThrOnly s ((s.activeLanes pr).foldl g s) ∧ EachLane s ((s.activeLanes pr).foldl g s) fun l x => if s.active pr l then f l x else x :=
  fold_where_threads f hn hg

/-! ### Moves (R157) -/

/-- A move while none of the registers it reads is locked. -/
theorem move_unlocked {s : State} {d a ck : Nat} {pr : Bool} {src : LaneRef → Thr → Nat} (hck : s.iss.crew = some ck) (hn : (s.iss.lanes.map (·.tk)).Nodup)
    (hfree : ∀ l ∈ s.iss.lanes, s.active pr l = true → src l (s.rT l.tk) % 32 = l.pos ∨ s.laneLocked ck (src l (s.rT l.tk) % 32) a = false) :
    ThrOnly s (s.move d a pr src) ∧ EachLane s (s.move d a pr src) fun l x =>
      if s.active pr l then { x with g := x.g.setIfInBounds d (s.laneReg ck (src l (s.rT l.tk) % 32) a) } else x := by
  have hnone : ¬ ((s.activeLanes pr).any fun l => src l (s.rT l.tk) % 32 != l.pos && s.laneLocked ck (src l (s.rT l.tk) % 32) a) = true := by
    simp only [List.any_eq_true, State.activeLanes, List.mem_filter, Bool.and_eq_true, bne_iff_ne, not_exists, not_and]
    rintro l ⟨hl, hact⟩ hne hlocked
    rcases hfree l hl hact with h | h
    · exact hne h
    · rw [h] at hlocked
      exact absurd hlocked (by decide)
  have hmove : s.move d a pr src = (s.activeLanes pr).foldl (fun u l => u.wrG l.tk d (s.laneReg ck (src l (s.rT l.tk) % 32) a)) s := by
    simp only [State.move, hck, if_neg hnone, State.eachLane]
    rw [State.activeLanes, List.foldl_filter]
  rw [hmove]
  exact activeLanes_threads (fun l x => { x with g := x.g.setIfInBounds d (s.laneReg ck (src l (s.rT l.tk) % 32) a) }) hn
    fun u l _ hT => by rw [wrG_eq, hT]; rfl

/-- The lane of a list with the lowest position. -/
def lowestOf (lanes : List LaneRef) : LaneRef := lanes.foldl (fun a l => if l.pos < a.pos then l else a) (lanes.headD ⟨0, 0⟩)

theorem exec_bcast {f : DapF} {s : State} (hok : s.staticFault (.bcast f) = none) :
    exec (.bcast f) s = .next (s.move f.d.toNat f.a.toNat (f.p == 1) fun _ _ => (lowestOf (s.activeLanes (f.p == 1))).pos).endWord :=
  word_ok (i := .bcast f) (fun s => s.move f.d.toNat f.a.toNat (f.p == 1) fun _ _ => (lowestOf (s.activeLanes (f.p == 1))).pos) hok

/-- What each move word does: its lane function, in the form that the model gives it. -/
theorem exec_moveWord {i : Instr} {s : State} {d a : BitVec 5} {p : BitVec 1} {src : LaneRef → Nat} (hi : moveWord s i = some (d, a, p, src))
    (hok : s.staticFault i = none) : ∃ lane : LaneRef → Thr → Nat, exec i s = .next (s.move d.toNat a.toNat (p == 1) lane).endWord
      ∧ ∀ l, lane l (s.rT l.tk) % 32 = src l := by
  cases i <;> simp only [moveWord, reduceCtorEq, Option.some.injEq, Prod.mk.injEq] at hi
  case shfl f =>
    obtain ⟨rfl, rfl, rfl, rfl⟩ := hi
    exact ⟨_, word_ok (fun s => s.move f.d.toNat f.a.toNat (f.p == 1) fun _ t => moveIdx f.m f.b t) hok, fun _ => rfl⟩
  case shflx f =>
    obtain ⟨rfl, rfl, rfl, rfl⟩ := hi
    exact ⟨_, word_ok (fun s => s.move f.d.toNat f.a.toNat (f.p == 1) fun l t => l.pos ^^^ moveIdx f.m f.b t) hok, fun _ => rfl⟩
  case shfli f =>
    obtain ⟨rfl, rfl, rfl, rfl⟩ := hi
    exact ⟨_, word_ok (fun s => s.move f.d.toNat f.a.toNat (f.p == 1) fun l _ => l.pos + wrapI 5 (sgn 5 f.b.toNat)) hok, fun _ => rfl⟩
  case bcast f =>
    obtain ⟨rfl, rfl, rfl, rfl⟩ := hi
    refine ⟨fun _ _ => (lowestOf (s.activeLanes (f.p == 1))).pos, exec_bcast hok, fun _ => rfl⟩

theorem laneMoves : Claims.LaneMoves := by
  rintro i d a p src s ck hi ⟨hok, hn⟩ hck hfree
  obtain ⟨lane, hexec, hlane⟩ := exec_moveWord hi hok
  simp only [← hlane] at hfree ⊢
  obtain ⟨honly, hthr⟩ := move_unlocked (d := d.toNat) hck hn hfree
  exact ⟨_, hexec, endWord_onlyThreads honly, hthr⟩

/-! ### Votes (R161) -/

theorem vote_threads {s : State} {f : UnF} (v : List (Nat × Nat) → Nat × Nat → Word) (hn : (s.iss.lanes.map (·.tk)).Nodup) :
    ThrOnly s (s.vote f v) ∧ EachLane s (s.vote f v) fun l x => if s.active (f.p == 1) l then
      { x with g := x.g.setIfInBounds f.d.toNat (v ((s.activeLanes (f.p == 1)).map (voteVal s f)) (voteVal s f l)) } else x := by
  refine activeLanes_threads (fun l x => { x with g := x.g.setIfInBounds f.d.toNat (v ((s.activeLanes (f.p == 1)).map (voteVal s f)) (voteVal s f l)) }) hn
    fun u l hu hT => ?_
  rw [wrG_eq, rT_of hu.iss hT, hT]
  rfl

theorem exec_voteWord {i : Instr} {s : State} {f : UnF} {v : List (Nat × Nat) → Nat × Nat → Word} (hi : voteWord i = some (f, v))
    (hok : s.staticFault i = none) : exec i s = .next (s.vote f v).endWord := by
  cases i <;> simp only [voteWord, reduceCtorEq, Option.some.injEq, Prod.mk.injEq] at hi
  case ballot | vany | vall | matchL =>
    obtain ⟨rfl, rfl⟩ := hi
    exact word_ok (fun s => s.vote _ _) hok
  case matchN | popl =>
    obtain ⟨rfl, rfl⟩ := hi
    simp only [← List.countP_eq_length_filter]
    exact word_ok (fun s => s.vote _ _) hok

theorem laneVotes : Claims.LaneVotes := by
  rintro i f v s hi ⟨hok, hn⟩
  obtain ⟨honly, hthr⟩ := vote_threads v hn
  exact ⟨_, exec_voteWord hi hok, endWord_onlyThreads honly, hthr⟩

/-! ### The lowest lane -/

theorem lowest_fold (lanes : List LaneRef) (a : LaneRef) :
    let r := lanes.foldl (fun a l => if l.pos < a.pos then l else a) a
    (r = a ∨ r ∈ lanes) ∧ r.pos ≤ a.pos ∧ ∀ l ∈ lanes, r.pos ≤ l.pos := by
  induction lanes generalizing a with
  | nil => simp
  | cons x xs ih =>
    obtain ⟨hmem, hle, hall⟩ := ih (if x.pos < a.pos then x else a)
    simp only [List.foldl_cons, List.mem_cons, forall_eq_or_imp]
    split at hmem <;> rename_i hx
    · simp only [if_pos hx] at hle hall ⊢
      exact ⟨.inr hmem, by omega, hle, hall⟩
    · simp only [if_neg hx] at hle hall ⊢
      exact ⟨hmem.imp id .inr, hle, by omega, hall⟩

/-- Of lanes at different positions the one with the lowest is found. -/
theorem lowestOf_eq {lanes : List LaneRef} {low : LaneRef} (hlow : low ∈ lanes) (hle : ∀ l ∈ lanes, low.pos ≤ l.pos) (hn : (lanes.map (·.pos)).Nodup) :
    lowestOf lanes = low := by
  cases lanes with
  | nil => simp at hlow
  | cons x xs =>
    obtain ⟨hmem, -, hall⟩ := lowest_fold (x :: xs) x
    have hfound : lowestOf (x :: xs) ∈ x :: xs := hmem.elim (fun h => by rw [lowestOf, List.headD_cons, h]; exact List.mem_cons_self) id
    exact List.inj_on_of_nodup_map hn hfound hlow (le_antisymm (hall low hlow) (hle _ hfound))

/-! ### The L pipe (R131) -/

theorem lUse_core (s : State) (f64 : Bool) (c : Nat) :
    (s.lUse f64).core c = if f64 = true ∧ c = s.iss.core then { s.core c with lBusy := (s.core c).clock + 1 } else s.core c := by
  cases f64
  case false => simp [State.lUse]
  case true =>
    simp only [State.lUse, if_true, modCore_eq, core_setCore, true_and]
    split
    case isTrue h => rw [h]
    case isFalse => rfl

theorem lUse_frame (s : State) (f64 : Bool) : s.lUse f64 = { s with cores := (s.lUse f64).cores } := by
  cases f64 <;> rfl

/-! ### REDL and SCANL (R158-R160) -/

/-- Whether a tree's word holds the L pipe. -/
theorem tree_f64 (f : L3NF) : (redFloat f.b.toNat && f.t.toNat == 1) = (redFloat f.b.toNat && f.t == 1) := by
  congr 1
  rw [Bool.eq_iff_iff, beq_iff_eq, beq_iff_eq, ← BitVec.toNat_inj]
  rfl

/-- How a tree's word ends: CREWST.EMPTY is written, and the L pipe may be held. -/
def treeEnd (u : State) (ck : Nat) (empty f64 : Bool) : State := ((u.modC ck fun c => { c with empty := empty }).lUse f64).endWord

theorem exec_tree {f : L3NF} {scan : Bool} {s : State} (hok : s.staticFault (if scan then .scanl f else .redl f) = none) :
    exec (if scan then .scanl f else .redl f) s = .next (s.redOp f scan).endWord := by
  cases scan
  case false => exact word_ok (i := .redl f) (fun s => s.redOp f false) hok
  case true => exact word_ok (i := .scanl f) (fun s => s.redOp f true) hok

/-- REDL's s register, which SCANL leaves. -/
def treeCrew (f : L3NF) (scan : Bool) (v : List Nat) (c : Crew) : Crew :=
  if scan then c else c.setS f.d.toNat (redExt f.b.toNat f.t.toNat v)

theorem treeCrew_eq (f : L3NF) (scan : Bool) (v : List Nat) (empty : Bool) (c : Crew) : ({ treeCrew f scan v c with empty := empty } : Crew) =
    { c with empty := empty, s := if scan then c.s else c.s.setIfInBounds f.d.toNat (redExt f.b.toNat f.t.toNat v) } := by
  cases scan <;> rfl

theorem redOp_noneActive {s : State} {f : L3NF} {scan : Bool} {ck : Nat} (hck : s.iss.crew = some ck) (hact : s.activeLanes (f.p == 1) = []) :
    (s.redOp f scan).endWord = treeEnd (if scan then s else s.modC ck (treeCrew f scan (List.replicate (redShape f.b.toNat f.t.toNat).2 (redIdent f.b.toNat f.t.toNat))))
      ck true (redFloat f.b.toNat && f.t == 1) := by
  rw [treeEnd, ← tree_f64, State.redOp, hck]
  refine congrArg (fun u => (State.lUse u _).endWord) ((if_pos hact).trans ?_)
  cases scan <;> rfl

/-- The results of REDL and SCANL in their registers. -/
def treeResults (s : State) (f : L3NF) (scan : Bool) (ck : Nat) (r : RedAcc) : State :=
  if scan then (s.activeLanes (f.p == 1)).foldl (fun u l => u.wrG l.tk f.d.toNat (redExt f.b.toNat f.t.toNat (r.v.getD l.pos []))) s
  else s.modC ck fun c => c.setS f.d.toNat (redExt f.b.toNat f.t.toNat (r.v.getD 0 []))

/-- The results with the flags raised in every active lane (R160). -/
def treeWritten (s : State) (f : L3NF) (scan : Bool) (ck : Nat) (r : RedAcc) : State :=
  (s.activeLanes (f.p == 1)).foldl (fun u l => u.raiseF l.tk r.fl) (treeResults s f scan ck r)

/-- The generator kept by the lane that drew. -/
def treeDrew (u : State) (drew : Prop) [Decidable drew] (tk : Nat) (x : Word) : State :=
  if drew then (u.modT tk fun t => { t with srng := x }).drew tk (some x) else u

theorem drawT_rmode (s : State) (tk : Nat) : (s.drawT tk).rmode = (s.rT tk).rmode := by
  unfold State.drawT
  split <;> rfl

theorem tree_eq_drawT (s : State) (f : L3NF) (scan : Bool) (low : LaneRef) : tree s f scan low =
    let A : RedAcc := { v := s.redInput f.b.toNat f.t.toNat f.a.toNat (s.activeLanes (f.p == 1)), fl := 0, srng := (s.drawT low.tk).srng }
    if scan then scanTree f.b.toNat f.t.toNat (s.drawT low.tk).rmode.toNat A else redTree f.b.toNat f.t.toNat (s.drawT low.tk).rmode.toNat A := by
  rw [drawT_rmode]
  rfl

theorem redOp_active {s : State} {f : L3NF} {scan : Bool} {ck : Nat} {low : LaneRef} (hck : s.iss.crew = some ck) (hact : s.activeLanes (f.p == 1) ≠ [])
    (hlow : lowestOf (s.activeLanes (f.p == 1)) = low) :
    (s.redOp f scan).endWord = treeEnd (treeDrew (treeWritten s f scan ck (tree s f scan low)) ((s.rT low.tk).rmode = 6 ∧ f.b = 1) low.tk (tree s f scan low).srng)
      ck false (redFloat f.b.toNat && f.t == 1) := by
  have hdrew : ((s.rT low.tk).rmode = 6 ∧ f.b = 1) ↔ ((s.drawT low.tk).rmode.toNat = 6 ∧ f.b.toNat = 1) := by
    rw [drawT_rmode, ← BitVec.toNat_inj, ← BitVec.toNat_inj]
    rfl
  rw [treeEnd, treeDrew, if_congr hdrew rfl rfl, ← tree_f64, tree_eq_drawT, ← hlow, State.redOp, hck]
  exact congrArg (fun u => (State.lUse u _).endWord) (if_neg hact)

/-- Two states that differ in their threads and crews alone. -/
def ThrCrews (s t : State) : Prop := t = { s with thr := t.thr, crews := t.crews }

theorem ThrCrews.trans_thrOnly {s t u : State} (h : ThrCrews s t) (h' : ThrOnly t u) : ThrCrews s u := by
  unfold ThrCrews at *
  rw [h', h]

theorem crew_of_thrOnly {s t : State} (h : ThrOnly s t) (c : Nat) : t.C c = s.C c := by rw [h]; rfl

/-- What REDL and SCANL write: their registers alone. -/
theorem treeResults_spec {s : State} (f : L3NF) (scan : Bool) (ck : Nat) (r : RedAcc) (hn : (s.iss.lanes.map (·.tk)).Nodup) :
    ThrCrews s (treeResults s f scan ck r) ∧ OneCrew s (treeResults s f scan ck r) ck (treeCrew f scan (r.v.getD 0 []))
      ∧ EachLane s (treeResults s f scan ck r) fun l x => if s.active (f.p == 1) l then
        { x with g := if scan then x.g.setIfInBounds f.d.toNat (redExt f.b.toNat f.t.toNat (r.v.getD l.pos [])) else x.g } else x := by
  cases scan
  case false =>
    refine ⟨rfl, fun c => ?_, fun tk => ?_⟩
    · refine (C_setC s ck c _).trans ?_
      split
      case isTrue h => rw [h]; rfl
      case isFalse => rfl
    · cases s.iss.lanes.find? (·.tk == tk) with
      | none => rfl
      | some l =>
        change s.T tk = if s.active (f.p == 1) l then s.T tk else s.T tk
        rw [ite_self]
  case true =>
    obtain ⟨honly, hthr⟩ := activeLanes_threads (pr := f.p == 1)
      (g := fun u l => u.wrG l.tk f.d.toNat (redExt f.b.toNat f.t.toNat (r.v.getD l.pos [])))
      (fun l x => { x with g := x.g.setIfInBounds f.d.toNat (redExt f.b.toNat f.t.toNat (r.v.getD l.pos [])) }) hn
      fun u l _ hT => by rw [wrG_eq, hT]; rfl
    have hcrews : ThrCrews s s := rfl
    refine ⟨hcrews.trans_thrOnly honly, fun c => ?_, hthr⟩
    rw [show (treeResults s f true ck r).C c = s.C c from crew_of_thrOnly honly c]
    split <;> rfl

/-- With the flags raised. -/
theorem treeWritten_spec {s : State} (f : L3NF) (scan : Bool) (ck : Nat) (r : RedAcc) (hn : (s.iss.lanes.map (·.tk)).Nodup) :
    ThrCrews s (treeWritten s f scan ck r) ∧ OneCrew s (treeWritten s f scan ck r) ck (treeCrew f scan (r.v.getD 0 []))
      ∧ EachLane s (treeWritten s f scan ck r) fun l x => if s.active (f.p == 1) l then
        { x with flags := x.flags ||| r.fl
                 g := if scan then x.g.setIfInBounds f.d.toNat (redExt f.b.toNat f.t.toNat (r.v.getD l.pos [])) else x.g } else x := by
  obtain ⟨hframe, hcrew, hthr⟩ := treeResults_spec f scan ck r hn
  obtain ⟨honly, hraised⟩ := fold_where_threads (v := treeResults s f scan ck r) (on := s.active (f.p == 1)) (g := fun u l => u.raiseF l.tk r.fl)
    (fun _ x => x.raise r.fl) hn fun u l _ hT => by rw [State.raiseF, modT_eq, hT]
  refine ⟨hframe.trans_thrOnly honly, fun c => (crew_of_thrOnly honly c).trans (hcrew c), fun tk => ?_⟩
  refine (hraised tk).trans ?_
  rw [hthr tk]
  cases s.iss.lanes.find? (·.tk == tk) with
  | none => rfl
  | some l =>
    dsimp only
    by_cases hact : s.active (f.p == 1) l = true
    · simp only [if_pos hact, Thr.raise]
    · simp only [if_neg hact]

/-- A lane of the list is the one that its thread's key finds. -/
theorem find_lane {lanes : List LaneRef} (hn : (lanes.map (·.tk)).Nodup) {l : LaneRef} (hl : l ∈ lanes) : lanes.find? (·.tk == l.tk) = some l := by
  cases hf : lanes.find? (·.tk == l.tk) with
  | none =>
    have hne := List.find?_eq_none.mp hf l hl
    simp at hne
  | some x =>
    have htk : x.tk = l.tk := by simpa using List.find?_some hf
    rw [List.inj_on_of_nodup_map hn (List.mem_of_find?_eq_some hf) hl htk]

/-- The generator of the drawing lane, and the chain's draws. -/
theorem treeDrew_spec (u : State) (drew : Prop) [Decidable drew] (tk : Nat) (x : Word) :
    treeDrew u drew tk x = { u with thr := (treeDrew u drew tk x).thr, iss := { u.iss with draws := if drew then (tk, x) :: u.iss.draws else u.iss.draws } }
      ∧ ∀ k, (treeDrew u drew tk x).T k = if drew ∧ k = tk then { u.T k with srng := x } else u.T k := by
  unfold treeDrew
  split
  case isTrue hd =>
    refine ⟨rfl, fun k => (T_setT u tk k _).trans ?_⟩
    by_cases hk : k = tk
    · rw [if_pos hk, if_pos ⟨hd, hk⟩, hk]
    · rw [if_neg hk, if_neg fun h => hk h.2]
  case isFalse hd => exact ⟨rfl, fun k => by rw [if_neg fun h => hd h.1]⟩

theorem treeEnd_frame (u : State) (ck : Nat) (empty f64 : Bool) : treeEnd u ck empty f64 =
    { u with crews := (treeEnd u ck empty f64).crews, cores := (treeEnd u ck empty f64).cores, iss := { u.iss with pfx := .none } } := by
  cases f64 <;> rfl

theorem treeEnd_holdsL {s u : State} {ck : Nat} {empty f64 : Bool} (hcores : u.cores = s.cores) (hcore : u.iss.core = s.iss.core) :
    HoldsL s (treeEnd u ck empty f64) f64 := by
  intro c
  have hu (n : Nat) : u.core n = s.core n := by simp only [State.core, hcores]
  rw [← hcore, ← hu c]
  exact lUse_core (u.modC ck _) f64 c

/-- The crew after a tree: its register, then CREWST.EMPTY. -/
theorem treeEnd_oneCrew {s u : State} {f : L3NF} {scan : Bool} {ck : Nat} {v : List Nat} (empty f64 : Bool) (hu : OneCrew s u ck (treeCrew f scan v)) :
    OneCrew s (treeEnd u ck empty f64) ck fun c =>
      { c with empty := empty, s := if scan then c.s else c.s.setIfInBounds f.d.toNat (redExt f.b.toNat f.t.toNat v) } := by
  intro c
  have hC : (treeEnd u ck empty f64).C c = (u.modC ck fun c => { c with empty := empty }).C c := by cases f64 <;> rfl
  rw [hC, modC_eq, C_setC]
  split
  case isTrue h => rw [h, hu ck, if_pos rfl, treeCrew_eq]
  case isFalse h => rw [hu c, if_neg h]

theorem treeEnd_T (u : State) (ck : Nat) (empty f64 : Bool) (tk : Nat) : (treeEnd u ck empty f64).T tk = u.T tk := by
  cases f64 <;> rfl

/-- A tree in which no lane is active. -/
theorem tree_noneActive {s : State} (f : L3NF) (scan : Bool) (ck : Nat) (v : List Nat) (f64 : Bool) :
    let t := treeEnd (if scan then s else s.modC ck (treeCrew f scan v)) ck true f64
    t = { s with crews := t.crews, cores := t.cores, iss := { s.iss with pfx := .none } } ∧ HoldsL s t f64 ∧ OneCrew s t ck fun c =>
      { c with empty := true, s := if scan then c.s else c.s.setIfInBounds f.d.toNat (redExt f.b.toNat f.t.toNat v) } := by
  have hcrew : OneCrew s (if scan then s else s.modC ck (treeCrew f scan v)) ck (treeCrew f scan v) := fun c => by
    cases scan
    case false =>
      refine (C_setC s ck c _).trans ?_
      split
      case isTrue h => rw [h]
      case isFalse => rfl
    case true => exact (ite_self _).symm
  refine ⟨?_, treeEnd_holdsL ?_ ?_, treeEnd_oneCrew true f64 hcrew⟩
  · rw [treeEnd_frame]
    cases scan <;> rfl
  · cases scan <;> rfl
  · cases scan <;> rfl

/-- What may have changed after threads and crews were written, a draw was recorded and the word ended. -/
theorem frame_after_tree {s w u t : State} {draws : List (Nat × Word)} (hw : ThrCrews s w) (hu : u = { w with thr := u.thr, iss := { w.iss with draws := draws } })
    (ht : t = { u with crews := t.crews, cores := t.cores, iss := { u.iss with pfx := .none } }) :
    t = { s with thr := t.thr, crews := t.crews, cores := t.cores, iss := { s.iss with pfx := .none, draws := draws } } := by
  have hthr : t.thr = u.thr := by rw [ht]
  rw [hthr, ht, hu, hw]

/-- A tree's result in the state, when some lane is active. -/
theorem tree_active {s : State} (f : L3NF) (scan : Bool) (ck : Nat) (low : LaneRef) (r : RedAcc) (drew : Prop) [Decidable drew] (f64 : Bool)
    (hn : (s.iss.lanes.map (·.tk)).Nodup) (hlow : low ∈ s.activeLanes (f.p == 1)) :
    let t := treeEnd (treeDrew (treeWritten s f scan ck r) drew low.tk r.srng) ck false f64
    t = { s with thr := t.thr, crews := t.crews, cores := t.cores, iss := { s.iss with pfx := .none, draws := if drew then (low.tk, r.srng) :: s.iss.draws else s.iss.draws } }
    ∧ HoldsL s t f64
    ∧ OneCrew s t ck (fun c => { c with empty := false, s := if scan then c.s else c.s.setIfInBounds f.d.toNat (redExt f.b.toNat f.t.toNat (r.v.getD 0 [])) })
    ∧ EachLane s t fun l x => if s.active (f.p == 1) l then
        { x with flags := x.flags ||| r.fl
                 g := if scan then x.g.setIfInBounds f.d.toNat (redExt f.b.toNat f.t.toNat (r.v.getD l.pos [])) else x.g
                 srng := if drew ∧ l = low then r.srng else x.srng } else x := by
  obtain ⟨hwritten, hcrew, hthr⟩ := treeWritten_spec f scan ck r hn
  obtain ⟨hdrew, hsrng⟩ := treeDrew_spec (treeWritten s f scan ck r) drew low.tk r.srng
  obtain ⟨hlane, hact⟩ := List.mem_filter.mp hlow
  generalize treeWritten s f scan ck r = w at *
  generalize treeDrew w drew low.tk r.srng = u at *
  have hiss : w.iss = s.iss := by rw [hwritten]
  intro t
  refine ⟨?_, treeEnd_holdsL ?_ ?_, treeEnd_oneCrew false f64 ?_, fun tk => ?_⟩
  · refine (frame_after_tree hwritten hdrew (treeEnd_frame u ck false f64)).trans ?_
    rw [hiss]
  · rw [hdrew, hwritten]
  · rw [hdrew, hwritten]
  · intro c
    have hC : u.C c = w.C c := by rw [hdrew]; rfl
    rw [hC, hcrew c]
  · refine (treeEnd_T u ck false f64 tk).trans ?_
    rw [hsrng, hthr]
    cases hfind : s.iss.lanes.find? (·.tk == tk) with
    | none =>
      have hother : tk ≠ low.tk := fun h => by
        rw [h, find_lane hn hlane] at hfind
        cases hfind
      rw [if_neg fun h => hother h.2]
    | some l =>
      have htk : l.tk = tk := by simpa using List.find?_some hfind
      have hmem := List.mem_of_find?_eq_some hfind
      have hsame : tk = low.tk ↔ l = low := ⟨fun h => List.inj_on_of_nodup_map hn hmem hlane (htk.trans h), fun h => by rw [← htk, h]⟩
      simp only [hsame]
      by_cases hl : l = low
      · subst hl
        simp only [if_pos hact, and_true]
        split <;> rfl
      · simp only [hl, and_false, if_false]

theorem laneTrees : Claims.LaneTrees := by
  rintro f scan s ck i ⟨hok, hn⟩ hck act f64
  refine ⟨fun hact => ⟨_, exec_tree hok, ?_⟩, fun low hlow hle hpos => ⟨_, exec_tree hok, ?_⟩⟩
  · rw [redOp_noneActive hck hact]
    exact tree_noneActive f scan ck _ _
  · rw [redOp_active hck (List.ne_nil_of_mem hlow) (lowestOf_eq hlow hle hpos)]
    exact tree_active f scan ck low _ _ _ hn hlow

/-- Settles O7: each word writes its active lanes' own threads, REDL and SCANL their crew too. -/
theorem crossLaneWords : Obligations.CrossLaneWords := ⟨laneMoves, laneVotes, laneTrees⟩

end Sys2Proof.Proofs
end

section
/-! Loads of sealed pages in a lane whose thread stands in no thread table (07 R171, R173, 08 R190): a state in which such a load misses the line that it would have hit before
the word. -/

namespace Sys2Proof.Proofs
open Sys2Proof Machine Claims

/-! ### A load that ends the fusion it would profit from

The L1 in which a core looks for a line is its own or the fused one of its cluster (R173), by every thread in the thread table of the cluster. `Issues` does not ask that
the issuing lane's thread stands in that table, and the lock that the load leaves in the thread puts it there: it ends the fusion before the load looks for its line. -/

/-- Line 0 in slice 0 of the fused L1 of cluster 0, which is core 0's L1. -/
def fusedLine : Rep := { ctx := 0, line := 0, holder := 0, way := 0, data := 1, lo := some ⟨0, 0, false⟩, hi := none }

/-- A lane of a roaming thread that stands in no table issues on core 1, which may read the sealed page of address 0. -/
def unplacedLoad : State :=
  { State.reset with
    ctxs := [(0, { Ctx.blank with ptab := [homeZero] })], cores := [(1, { CoreSt.blank with perm := [readable] })], reps := [fusedLine]
    iss := { Issue.blank with core := 1, lanes := [⟨1024, 0⟩] } }

/-- LDR of the byte at address 0. -/
def byteZero : LmF := ⟨0, 4, 2, 0, 0, 0, 0⟩

theorem unplacedLoad_issues : Issues (.ldr byteZero) unplacedLoad := by
  constructor <;> decide +kernel

theorem unplacedLoad_check :
    unplacedLoad.check ⟨1024, 0⟩ 0 1 ⟨true, false, true⟩ (fun _ => true) = .ok ⟨0, 0, 0, 0, 21, 0, 0⟩ readable := by decide +kernel

/-- Before the word the core's L1 holds the line. -/
theorem unplacedLoad_replica : unplacedLoad.replica 1 0 0 = some (fusedLine, 10) := by decide +kernel

/-- After the word no lock of the thread has a delivery cycle: the load has missed. -/
theorem unplacedLoad_misses {t : State} (h : exec (.ldr byteZero) unplacedLoad = .next t) : ∀ k ∈ (t.T 1024).locks, k.due = none := by
  have hrun : (match exec (.ldr byteZero) unplacedLoad with
    | .next t => (t.T 1024).locks.all fun k => k.due.isNone
    | _ => false) = true := by decide +kernel
  rw [h] at hrun
  simpa using hrun

/-- Refutes O16: the load's own lock puts its thread into the thread table, which ends its cluster's fusion (R173), and the load then misses in the core's own L1 the line that
the fused L1 held before the word. -/
theorem not_loadPaths : ¬ Obligations.LoadPaths := by
  rintro ⟨-, hsealed⟩
  obtain ⟨t, hexec, -, -, -, hhit⟩ := hsealed (.ldr byteZero) _ unplacedLoad ⟨1024, 0⟩ _ readable rfl rfl unplacedLoad_issues (by decide +kernel) unplacedLoad_check rfl rfl
  have hreplica : unplacedLoad.replica unplacedLoad.iss.core unplacedLoad.iss.ctx 0 = some (fusedLine, 10) := unplacedLoad_replica
  dsimp only at hhit
  have hea : (((unplacedLoad.rT 1024).gr byteZero.a.toNat + byteZero.o.signExtend 64 * W (2 ^ byteZero.s.toNat)).toNat) = 0 := by decide +kernel
  rw [hea, hreplica] at hhit
  obtain ⟨⟨k, hk, -, -, hdue, -⟩, -⟩ := hhit
  rw [unplacedLoad_misses hexec k hk] at hdue
  cases hdue
end Sys2Proof.Proofs
end

section
/-! SUPPORT. What messages, and what stopping, waking and trapping one thread can change (04 R67, 18 R374-R379): the rest of the state stays, and no message is lost. -/

namespace Sys2Proof.Proofs
open Sys2Proof Machine Claims Laws

/-! ### Messages -/

/-- No message of a state is lost in another. -/
def KeepsMessages (s t : State) : Prop := (∀ e ∈ s.agenda, e ∈ t.agenda) ∧ ∀ f ∈ s.flights, f ∈ t.flights

/-- A state that differs from another in messages and replicas alone, and in which no message is lost. -/
structure Mails (s t : State) : Prop where
  frame : t = { s with reps := t.reps, epochs := t.epochs, flights := t.flights, agenda := t.agenda, outs := t.outs, ids := t.ids }
  keeps : KeepsMessages s t

/-- Two states that differ in threads, crews, replicas and messages alone. -/
def ThrMsgs (s t : State) : Prop :=
  t = { s with thr := t.thr, crews := t.crews, reps := t.reps, epochs := t.epochs, flights := t.flights, agenda := t.agenda, outs := t.outs, ids := t.ids }

theorem KeepsMessages.refl (s : State) : KeepsMessages s s := ⟨fun _ h => h, fun _ h => h⟩
theorem KeepsMessages.trans {s t u : State} (h : KeepsMessages s t) (h' : KeepsMessages t u) : KeepsMessages s u :=
  ⟨fun e he => h'.1 e (h.1 e he), fun f hf => h'.2 f (h.2 f hf)⟩

theorem sent_mono {s t : State} {e : Ev} {chip core : Nat} (hs : Sent s e chip core) (h : KeepsMessages s t) : Sent t e chip core :=
  hs.elim (fun he => .inl (h.1 _ he)) fun ⟨f, hf, hto⟩ => .inr ⟨f, h.2 f hf, hto⟩

theorem ThrMsgs.refl (s : State) : ThrMsgs s s := rfl
theorem ThrMsgs.trans {s t u : State} (h : ThrMsgs s t) (h' : ThrMsgs t u) : ThrMsgs s u := by
  unfold ThrMsgs at *; rw [h', h]
theorem ThrMsgs.mem {s t : State} (h : ThrMsgs s t) : t.mem = s.mem := by rw [h]
theorem ThrMsgs.ovf {s t : State} (h : ThrMsgs s t) : t.ovf = s.ovf := by rw [h]
theorem ThrMsgs.setT {s t : State} (h : ThrMsgs s t) (tk : Nat) (x : Thr) : ThrMsgs s (t.setT tk x) := by
  unfold ThrMsgs at *; rw [h]; rfl
theorem ThrMsgs.setC {s t : State} (h : ThrMsgs s t) (ck : Nat) (x : Crew) : ThrMsgs s (t.setC ck x) := by
  unfold ThrMsgs at *; rw [h]; rfl

theorem Mails.refl (s : State) : Mails s s := ⟨rfl, .refl s⟩
theorem Mails.trans {s t u : State} (h : Mails s t) (h' : Mails t u) : Mails s u :=
  ⟨by rw [h'.frame, h.frame], h.keeps.trans h'.keeps⟩
theorem Mails.thr {s t : State} (h : Mails s t) : t.thr = s.thr := by rw [h.frame]
theorem Mails.T {s t : State} (h : Mails s t) (tk : Nat) : t.T tk = s.T tk := by rw [State.T, h.thr]; rfl
theorem Mails.crews {s t : State} (h : Mails s t) : t.crews = s.crews := by rw [h.frame]
theorem Mails.mem {s t : State} (h : Mails s t) : t.mem = s.mem := by rw [h.frame]
theorem Mails.ovf {s t : State} (h : Mails s t) : t.ovf = s.ovf := by rw [h.frame]
theorem Mails.tagent {s t : State} (h : Mails s t) (ctx kern : Nat) : t.tagent ctx kern = s.tagent ctx kern := by unfold State.tagent; rw [h.frame]
theorem Mails.thrMsgs {s t : State} (h : Mails s t) : ThrMsgs s t := by unfold ThrMsgs; rw [h.frame]

theorem Mails.foldl {α : Type} {g : State → α → State} (hg : ∀ u x, Mails u (g u x)) (l : List α) (s : State) : Mails s (l.foldl g s) :=
  List.foldlRecOn (motive := Mails s) l g (.refl s) fun u hu x _ => hu.trans (hg u x)

theorem Mails.ite {s t u : State} {p : Prop} [Decidable p] (ht : Mails s t) (hu : Mails s u) : Mails s (if p then t else u) := by
  split <;> assumption

theorem mails_post (s : State) (i : Instr) (a : Arg) : Mails s (s.post i a) :=
  ⟨rfl, fun _ he => List.mem_append_left _ he, fun _ hf => hf⟩

theorem mails_send (s : State) (src chip dst : Nat) (i : Instr) (a : Arg) : Mails s (s.send src chip dst i a) := by
  rcases send_cases s src chip dst i a with ⟨-, -, h⟩ | ⟨-, f, -, -, -, -, h⟩ <;> rw [h]
  · exact mails_post s i a
  · exact ⟨rfl, fun _ he => he, fun _ hf => List.mem_append_left _ hf⟩

/-- A message on its way to a core has been sent there. -/
theorem sent_send (s : State) (src chip dst : Nat) (i : Instr) (a : Arg) : Sent (s.send src chip dst i a) ⟨i, a⟩ chip dst :=
  send_carried s src chip dst i a

theorem mails_newOut (s : State) (o : Out) : Mails s (s.newOut o) := ⟨rfl, fun _ he => he, fun _ hf => hf⟩

theorem mails_fresh (s : State) : Mails s s.fresh := ⟨rfl, fun _ he => he, fun _ hf => hf⟩

theorem mails_leave (s : State) (o tk : Nat) : Mails s (s.leave o tk) := by
  unfold State.leave
  split
  case h_1 => exact .refl s
  case h_2 m _ =>
    refine Mails.ite ?_ ⟨rfl, fun _ he => he, fun _ hf => hf⟩
    exact Mails.trans (t := { s with outs := s.outs.del o }) ⟨rfl, fun _ he => he, fun _ hf => hf⟩ (mails_send ..)

theorem mails_payBack (s : State) (holder : Nat) (keys : List Nat) : Mails s (s.payBack holder keys) :=
  Mails.foldl (fun _ _ => mails_send ..) _ s

theorem mails_dropReps (s : State) (hit : Rep → RHalf → Bool) : Mails s (s.dropReps hit) := by
  unfold State.dropReps
  refine Mails.trans ?_ (Mails.foldl (fun _ _ => mails_payBack ..) _ _)
  exact ⟨rfl, fun _ he => he, fun _ hf => hf⟩

theorem mails_dropAway (s : State) (die : Nat) : Mails s (s.dropAway die) := by
  unfold State.dropAway
  refine Mails.trans ?_ (mails_dropReps ..)
  exact ⟨rfl, fun _ he => he, fun _ hf => hf⟩

theorem mails_sendFill (s : State) (chip : Nat) (f : Fill) : Mails s (s.sendFill chip f) := by
  unfold State.sendFill State.sliceFill
  exact (mails_send ..).trans (Mails.ite (.refl _) (mails_send ..))

theorem mails_slotFreed (s : State) (core : Nat) : Mails s (s.slotFreed core) := by
  unfold State.slotFreed
  have hmarked : Mails s (if (s.core core).marked = [] then s else (List.range 4).foldl (fun s d => s.post .crewPlacement (.n1 d)) s) :=
    Mails.ite (.refl s) (Mails.foldl (fun _ _ => mails_post ..) _ s)
  dsimp only
  refine hmarked.trans ?_
  generalize (if (s.core core).marked = [] then s else (List.range 4).foldl (fun s d => s.post .crewPlacement (.n1 d)) s) = u
  split
  case h_1 => exact Mails.ite (.refl _) (mails_post ..)
  case h_2 => exact .refl _

theorem mails_offerTempo (s : State) (core ctx : Nat) : Mails s (s.offerTempo core ctx) := Mails.foldl (fun _ _ => mails_post ..) _ s

/-! ### One thread stopped, woken or trapped -/

/-- What stopping, waking and trapping the thread `tk` keeps: its registers, the load with which it departs, every other thread, the crews, and every message. -/
structure OwnThread (tk : Nat) (s t : State) : Prop where
  frame : ThrMsgs s t
  keeps : KeepsMessages s t
  crews : t.crews = s.crews
  others : ∀ j, j ≠ tk → t.T j = s.T j
  mig : (t.T tk).mig = (s.T tk).mig
  regs : (t.T tk).g = (s.T tk).g

theorem OwnThread.refl (tk : Nat) (s : State) : OwnThread tk s s := ⟨.refl s, .refl s, rfl, fun _ _ => rfl, rfl, rfl⟩
theorem OwnThread.trans {tk : Nat} {s t u : State} (h : OwnThread tk s t) (h' : OwnThread tk t u) : OwnThread tk s u :=
  ⟨h.frame.trans h'.frame, h.keeps.trans h'.keeps, h'.crews.trans h.crews, fun j hj => (h'.others j hj).trans (h.others j hj), h'.mig.trans h.mig, h'.regs.trans h.regs⟩
theorem OwnThread.ite {tk : Nat} {s t u : State} {p : Prop} [Decidable p] (ht : OwnThread tk s t) (hu : OwnThread tk s u) : OwnThread tk s (if p then t else u) := by
  split <;> assumption
theorem OwnThread.C {tk : Nat} {s t : State} (h : OwnThread tk s t) (ck : Nat) : t.C ck = s.C ck := by rw [State.C, h.crews]; rfl
theorem Mails.ownThread {s t : State} (h : Mails s t) (tk : Nat) : OwnThread tk s t :=
  ⟨h.thrMsgs, h.keeps, h.crews, fun j _ => h.T j, by rw [h.T], by rw [h.T]⟩

theorem ownThread_setT {s : State} {tk : Nat} {x : Thr} (hmig : x.mig = (s.T tk).mig) (hg : x.g = (s.T tk).g) : OwnThread tk s (s.setT tk x) :=
  ⟨rfl, .refl s, rfl, fun j hj => by rw [T_setT, if_neg hj], by rw [T_setT_same, hmig], by rw [T_setT_same, hg]⟩

theorem ownThread_modT {s : State} {tk : Nat} {f : Thr → Thr} (hf : ∀ x, (f x).mig = x.mig ∧ (f x).g = x.g) : OwnThread tk s (s.modT tk f) :=
  ownThread_setT (hf _).1 (hf _).2

theorem ownThread_block (s : State) (tk : Nat) (w : Wait) : OwnThread tk s (s.block tk w) := ownThread_setT rfl rfl

theorem ownThread_needProbe (s : State) (p : Probe) : OwnThread p.tk s (s.needProbe p) := by
  unfold State.needProbe
  exact (ownThread_block s p.tk _).trans (.ite (.refl _ _) ((mails_send ..).ownThread _))

theorem ownThread_needLine (s : State) (tk k chip : Nat) (f : Fill) : OwnThread tk s (s.needLine tk k chip f) := by
  unfold State.needLine
  exact (ownThread_block s tk _).trans (.ite (.refl _ _) ((mails_sendFill ..).ownThread _))

theorem ownThread_seek (s : State) (tk : Nat) (w : CodeWord) : OwnThread tk s (s.seek tk w) := by
  cases w with
  | probe p => exact ownThread_needProbe s { p with tk := tk }
  | fill k chip f => exact ownThread_needLine s tk k chip f
  | word w => exact .refl tk s
  | fault c i => exact .refl tk s

theorem ownThread_escalate (s : State) (tk : Nat) (c : Cause) (pc : BitVec 56) (addr info : Word) : OwnThread tk s (s.escalate tk c pc addr info) := by
  unfold State.escalate
  refine OwnThread.trans ?_ (.ite (.refl _ _) ((mails_post ..).ownThread _))
  exact ownThread_setT rfl rfl

theorem ownThread_trapNow (s : State) (tk : Nat) (i : TrapInfo) : OwnThread tk s (s.trapNow tk i) := by
  unfold State.trapNow
  exact .ite (ownThread_escalate ..) (.ite (ownThread_escalate ..) (.ite (ownThread_escalate ..) (ownThread_setT rfl rfl)))

theorem ownThread_trapAll (s : State) (tk : Nat) (is : List TrapInfo) : OwnThread tk s (s.trapAll tk is) := by
  induction is generalizing s with
  | nil => exact .refl tk s
  | cons i is ih => exact .ite (ownThread_setT rfl rfl) ((ownThread_trapNow s tk i).trans (ih _))

theorem ownThread_takePending (s : State) (tk : Nat) : OwnThread tk s (s.takePending tk) := by
  unfold State.takePending
  refine .ite (ownThread_block ..) ?_
  split
  case h_1 w _ => exact ownThread_seek s tk w
  case h_2 => exact (ownThread_setT (x := { s.T tk with ptrap := [] }) rfl rfl).trans (ownThread_trapAll ..)

theorem ownThread_wake (s : State) (tk : Nat) : OwnThread tk s (s.wake tk) := by
  unfold State.wake
  exact .ite (ownThread_setT rfl rfl) (ownThread_takePending s tk)

end Sys2Proof.Proofs
end

section
/-! HOMEQ, MIGR and the events of a thread (05 R88, R92, 06 R138, 08 R212, R213, 16 R352, 18 R374). -/

namespace Sys2Proof.Proofs
open Sys2Proof Machine Claims Laws

/-! ### What a crew's lanes wait for together -/

/-- What the tests of a crew's gatherings keep: the threads, and which lanes of each crew are live. -/
structure CrewWork (s t : State) : Prop where
  frame : ThrMsgs s t
  thr : t.thr = s.thr
  live : ∀ c, (t.C c).live = (s.C c).live

theorem CrewWork.refl (s : State) : CrewWork s s := ⟨.refl s, rfl, fun _ => rfl⟩
theorem CrewWork.trans {s t u : State} (h : CrewWork s t) (h' : CrewWork t u) : CrewWork s u :=
  ⟨h.frame.trans h'.frame, h'.thr.trans h.thr, fun c => (h'.live c).trans (h.live c)⟩
theorem CrewWork.ite {s t u : State} {p : Prop} [Decidable p] (ht : CrewWork s t) (hu : CrewWork s u) : CrewWork s (if p then t else u) := by
  split <;> assumption
theorem CrewWork.foldl {α : Type} {g : State → α → State} (hg : ∀ u x, CrewWork u (g u x)) (l : List α) (s : State) : CrewWork s (l.foldl g s) :=
  List.foldlRecOn (motive := CrewWork s) l g (.refl s) fun u hu x _ => hu.trans (hg u x)
theorem CrewWork.T {s t : State} (h : CrewWork s t) (tk : Nat) : t.T tk = s.T tk := by rw [State.T, h.thr]; rfl
theorem Mails.crewWork {s t : State} (h : Mails s t) : CrewWork s t := ⟨h.thrMsgs, h.thr, fun c => by rw [State.C, h.crews]; rfl⟩

theorem crewWork_modC {s : State} {ck : Nat} {f : Crew → Crew} (hf : ∀ c, (f c).live = c.live) : CrewWork s (s.modC ck f) := by
  refine ⟨(ThrMsgs.refl s).setC ck _, rfl, fun c => ?_⟩
  rw [modC_eq, C_setC]
  split
  case isTrue h => rw [hf, h]
  case isFalse => rfl

theorem crewWork_sendDir (s : State) (dir src chip dst : Nat) (i : Instr) (a : Arg) : CrewWork s (s.sendDir dir src chip dst i a) := by
  unfold State.sendDir
  refine (mails_send s src chip dst i a).crewWork.trans ?_
  exact ⟨rfl, rfl, fun _ => rfl⟩

/-- A crew changed that keeps its live lanes, and a message about it. -/
theorem crewWork_tell {s : State} {ck : Nat} {f : Crew → Crew} (hf : ∀ c, (f c).live = c.live) (src chip dst : Nat) (i : Instr) (a : Arg) :
    CrewWork s ((s.modC ck f).send src chip dst i a) := (crewWork_modC hf).trans (mails_send ..).crewWork

theorem crewWork_barTest (s : State) (ck : Nat) : CrewWork s (s.barTest ck) := by
  unfold State.barTest
  refine CrewWork.foldl (fun u b => .ite ?_ (.refl u)) _ s
  refine crewWork_tell ?_ ..
  exact fun _ => rfl

theorem crewWork_tempoTest (s : State) (ck : Nat) : CrewWork s (s.tempoTest ck) := by
  unfold State.tempoTest
  refine .ite ?_ (.refl s)
  refine crewWork_tell ?_ ..
  exact fun _ => rfl

theorem crewWork_sendTest (s : State) (ck : Nat) : CrewWork s (s.sendTest ck) := by
  unfold State.sendTest
  refine CrewWork.foldl (fun u w => .ite (CrewWork.trans ?_ (crewWork_sendDir ..)) (.refl u)) _ s
  exact crewWork_modC fun _ => rfl

theorem crewWork_wdetTest (s : State) (ck : Nat) : CrewWork s (s.wdetTest ck) := by
  unfold State.wdetTest
  refine .ite ?_ (.refl s)
  refine crewWork_tell ?_ ..
  exact fun _ => rfl

theorem crewWork_crewTests (s : State) (ck : Nat) : CrewWork s (s.crewTests ck) :=
  (((crewWork_barTest s ck).trans (crewWork_tempoTest ..)).trans (crewWork_sendTest ..)).trans (crewWork_wdetTest ..)

/-! ### HOMEQ and MIGR (R212, R213) -/

theorem homeq_eq_homeqVal (s : State) (core ctx : Nat) (a : Word) : s.homeq core ctx a = homeqVal s core ctx a := by
  unfold State.homeq homeqVal
  by_cases ha : bits a 63 56 ≠ 0
  · rw [if_pos ha, if_pos ha]
    rfl
  · rw [if_neg ha, if_neg ha]
    cases s.homeAt core ctx a.toNat with
    | none => rfl
    | some h => simp [b2n]

theorem homeq_of_thrOnly {s t : State} (h : ThrOnly s t) (core ctx : Nat) (a : Word) : t.homeq core ctx a = s.homeq core ctx a := by rw [h]; rfl

/-- A word that gives each issuing lane's thread a new value changes nothing else. -/
theorem gives_eachLane {i : Instr} {s : State} {g : State → LaneRef → State} (f : LaneRef → Thr → Thr) (hexec : exec i s = .next (s.eachLane g).endWord)
    (hn : (s.iss.lanes.map (·.tk)).Nodup)
    (hg : ∀ u l, ThrOnly s u → u.T l.tk = s.T l.tk → l ∈ s.iss.lanes → g u l = u.setT l.tk (f l (s.T l.tk))) :
    Gives i s fun t => OnlyThreads s t ∧ EachLane s t f := by
  obtain ⟨honly, hthr⟩ := eachLane_threads s g f hn fun u l hu hT hl => .inl (hg u l hu hT hl)
  exact ⟨_, hexec, endWord_onlyThreads honly, fun tk => (hthr tk).trans rfl⟩

theorem wrG_homeq {s u : State} {l : LaneRef} (hu : ThrOnly s u) (hT : u.T l.tk = s.T l.tk) (a d : BitVec 5) :
    u.wrG l.tk d.toNat (u.homeq u.iss.core u.iss.ctx ((u.rT l.tk).gr a.toNat)) =
      u.setT l.tk { s.T l.tk with g := (s.T l.tk).g.setIfInBounds d.toNat (homeqVal s s.iss.core s.iss.ctx ((s.rT l.tk).gr a.toNat)) } := by
  rw [wrG_eq, hT, rT_of hu.iss hT, hu.iss, homeq_of_thrOnly hu, homeq_eq_homeqVal]
  rfl

theorem exec_homeq {f : FlowF} {s : State} (h : s.staticFault (.homeq f) = none) : exec (.homeq f) s =
    .next (s.eachLane fun s l => s.wrG l.tk f.d.toNat (s.homeq s.iss.core s.iss.ctx ((s.rT l.tk).gr f.a.toNat))).endWord :=
  word_ok (i := .homeq f) (fun s => s.eachLane fun s l => s.wrG l.tk f.d.toNat (s.homeq s.iss.core s.iss.ctx ((s.rT l.tk).gr f.a.toNat))) h

theorem homeqWords (f : FlowF) (s : State) (h : Issues (.homeq f) s) : Gives (.homeq f) s fun t => OnlyThreads s t ∧ EachLane s t fun l x =>
    { x with g := x.g.setIfInBounds f.d.toNat (homeqVal s s.iss.core s.iss.ctx ((s.rT l.tk).gr f.a.toNat)) } :=
  gives_eachLane _ (exec_homeq h.1) h.2 fun _ _ hu hT _ => wrG_homeq hu hT f.a f.d

/-- What MIGR does in a lane. -/
def migrLane (f : FlowF) (s : State) (l : LaneRef) : State :=
  let a := (s.rT l.tk).gr f.a.toNat
  if bits a 63 56 ≠ 0 then s.fail l .permission a 0 else
  match s.homeAt s.iss.core s.iss.ctx a.toNat with
  | none => s.fail l .permission a 0
  | some h =>
    if h.chip = s.chip ∧ h.core = s.iss.core then s.wrG l.tk f.d.toNat (s.homeq s.iss.core s.iss.ctx a)
    else if (s.rT l.tk).frames ≠ [] then s.fail l .permission a 1
    else s.depart l.tk { ea := a.toNat, sz := 0, sx := false, d := f.d.toNat, mg := true, acq := false, scope := 0, pc := s.iss.pc }

theorem exec_migr {f : FlowF} {s : State} (h : s.staticFault (.migr f) = none) : exec (.migr f) s = .next (s.eachLane (migrLane f)).endWord :=
  word_ok (i := .migr f) (fun s => s.eachLane (migrLane f)) h

theorem migrLane_of_homed {f : FlowF} {s : State} {l : LaneRef} {h : HomeLoc} (ha : bits ((s.rT l.tk).gr f.a.toNat) 63 56 = 0)
    (hh : s.homeAt s.iss.core s.iss.ctx ((s.rT l.tk).gr f.a.toNat).toNat = some h) : migrLane f s l =
      if h.chip = s.chip ∧ h.core = s.iss.core then s.wrG l.tk f.d.toNat (s.homeq s.iss.core s.iss.ctx ((s.rT l.tk).gr f.a.toNat))
      else if (s.rT l.tk).frames ≠ [] then s.fail l .permission ((s.rT l.tk).gr f.a.toNat) 1
      else s.depart l.tk { ea := ((s.rT l.tk).gr f.a.toNat).toNat, sz := 0, sx := false, d := f.d.toNat, mg := true, acq := false, scope := 0, pc := s.iss.pc } := by
  simp only [migrLane, ha, ne_eq, not_true_eq_false, if_false, hh]

theorem migrHome (f : FlowF) (s : State) (h : Issues (.migr f) s) (hhome : ∀ l ∈ s.iss.lanes, ∃ h, bits ((s.rT l.tk).gr f.a.toNat) 63 56 = 0
      ∧ s.homeAt s.iss.core s.iss.ctx ((s.rT l.tk).gr f.a.toNat).toNat = some h ∧ h.chip = s.chip ∧ h.core = s.iss.core) :
    Gives (.migr f) s fun t => OnlyThreads s t ∧ EachLane s t fun l x =>
      { x with g := x.g.setIfInBounds f.d.toNat (homeqVal s s.iss.core s.iss.ctx ((s.rT l.tk).gr f.a.toNat)) } := by
  refine gives_eachLane _ (exec_migr h.1) h.2 fun u l hu hT hl => ?_
  obtain ⟨x, ha, hx, hchip, hcore⟩ := hhome l hl
  have hr : u.rT l.tk = s.rT l.tk := rT_of hu.iss hT
  have hxu : u.homeAt u.iss.core u.iss.ctx ((u.rT l.tk).gr f.a.toNat).toNat = some x := by rw [hr, ← hx, hu]; rfl
  rw [migrLane_of_homed (by rw [hr, ha]) hxu, if_pos ⟨by rw [hchip, hu], by rw [hcore, hu.iss]⟩]
  exact wrG_homeq hu hT f.a f.d

/-! ### A thread that departs (R70, R71) -/

theorem recheck_depart {s : State} {tk : Nat} (hst : (s.T tk).st = .blocked) (hwait : (s.T tk).wait = .depart) :
    ∃ u, CrewWork s u ∧ ((s.T tk).kind ≠ 2 → u = s)
      ∧ s.recheck tk = if (s.T tk).locks.isEmpty && (s.T tk).pend.isEmpty then u.post .knightDeparture (.thread tk) else u := by
  refine ⟨if (s.T tk).kind = 2 then s.crewTests (ckOfTk tk) else s, .ite (crewWork_crewTests ..) (.refl s), fun hk => if_neg hk, ?_⟩
  have hT : (if (s.T tk).kind = 2 then s.crewTests (ckOfTk tk) else s).T tk = s.T tk := by
    split
    · exact (crewWork_crewTests s _).T tk
    · rfl
  simp only [State.recheck, hT, Thr.waiting, hst, hwait]
  rfl

/-- The thread as it waits for its departure drain. -/
theorem depart_T (s : State) (tk : Nat) (g : Mig) : (s.depart tk g).T tk = { s.T tk with st := .blocked, wait := .depart, mig := some g } := by
  obtain ⟨u, hu, -, hrecheck⟩ := recheck_depart (s := (s.modT tk fun t => { t with mig := some g }).block tk .depart) (tk := tk) (by simp) (by simp)
  have hT := hu.T tk
  rw [State.depart, hrecheck]
  split <;> simp_all [State.post, State.T]

theorem depart_mem (s : State) (tk : Nat) (g : Mig) : (s.depart tk g).mem = s.mem := by
  obtain ⟨u, hu, -, hrecheck⟩ := recheck_depart (s := (s.modT tk fun t => { t with mig := some g }).block tk .depart) (tk := tk) (by simp) (by simp)
  rw [State.depart, hrecheck]
  split <;> exact hu.frame.mem

/-- A thread with no lock and no access departs at once. -/
theorem depart_posts {s : State} {tk : Nat} (g : Mig) (hl : (s.T tk).locks = []) (hp : (s.T tk).pend = []) :
    ⟨.knightDeparture, .thread tk⟩ ∈ (s.depart tk g).agenda := by
  obtain ⟨u, -, -, hrecheck⟩ := recheck_depart (s := (s.modT tk fun t => { t with mig := some g }).block tk .depart) (tk := tk) (by simp) (by simp)
  rw [State.depart, hrecheck, if_pos (by simp [hl, hp])]
  simp [State.post]

theorem endWord_T (s : State) (tk : Nat) : s.endWord.T tk = s.T tk := rfl

theorem migrAway (f : FlowF) (s : State) (l : LaneRef) (h : HomeLoc) (hiss : Issues (.migr f) s) (hl : s.iss.lanes = [l])
    (ha : bits ((s.rT l.tk).gr f.a.toNat) 63 56 = 0) (hh : s.homeAt s.iss.core s.iss.ctx ((s.rT l.tk).gr f.a.toNat).toNat = some h)
    (haway : ¬ (h.chip = s.chip ∧ h.core = s.iss.core)) :
    Gives (.migr f) s fun t => t.mem = s.mem ∧
      if (s.rT l.tk).frames ≠ [] then t.T l.tk =
          (s.takeTrap l.tk { cause := .permission, pc := s.iss.pc, addr := (s.rT l.tk).gr f.a.toNat, info := 1, word := s.iss.widx }).T l.tk
      else ∃ m, t.T l.tk = { s.T l.tk with st := .blocked, wait := .depart, mig := some m } ∧ m.mg = true ∧ m.ea = ((s.rT l.tk).gr f.a.toNat).toNat ∧ m.d = f.d.toNat
          ∧ ((s.T l.tk).locks = [] → (s.T l.tk).pend = [] → ⟨.knightDeparture, .thread l.tk⟩ ∈ t.agenda) := by
  refine ⟨_, exec_migr hiss.1, ?_⟩
  have hlane : s.eachLane (migrLane f) = migrLane f s l := by rw [State.eachLane, hl]; rfl
  rw [hlane, migrLane_of_homed ha hh, if_neg haway]
  beta_reduce
  by_cases hf : (s.rT l.tk).frames ≠ []
  · rw [if_pos hf, if_pos hf]
    rw [endWord_mem, fail_mem, endWord_T]
    exact ⟨rfl, rfl⟩
  · rw [if_neg hf, if_neg hf]
    refine ⟨?_, { ea := ((s.rT l.tk).gr f.a.toNat).toNat, sz := 0, sx := false, d := f.d.toNat, mg := true, acq := false, scope := 0, pc := s.iss.pc }, ?_, rfl, rfl, rfl, ?_⟩
    · rw [endWord_mem, depart_mem]
    · rw [endWord_T, depart_T]
    · rw [endWord_agenda]
      exact depart_posts _

theorem whereAndMove : Claims.WhereAndMove := ⟨homeqWords, migrHome, migrAway⟩

/-! ### The EXIT drain (R88, R138) -/

/-- A drained thread retires: it is not a crew's last live lane. -/
theorem exec_exitDrainComplete {s : State} {tk : Nat} {pc : BitVec 56} (hev : s.ev = .thread tk) (hst : (s.T tk).st = .blocked) (hwait : (s.T tk).wait = .exitDrain pc)
    (hpend : (s.T tk).pend = []) (hlocks : (s.T tk).locks = []) (hdying : (s.T tk).dying = false)
    (hlast : (s.T tk).kind = 2 → (s.C (ckOfTk tk)).live ≠ BitVec.ofNat 32 (2 ^ (slotOfTk tk % 32))) :
    exec .exitDrainComplete s = .next (s.retire tk none) := by
  have hnot : ((s.T tk).kind == 2) = false ∨ ((s.C (ckOfTk tk)).live == BitVec.ofNat 32 (2 ^ (slotOfTk tk % 32))) = false := by
    by_cases hk : (s.T tk).kind = 2
    · exact .inr (beq_eq_false_iff_ne.mpr (hlast hk))
    · exact .inl (beq_eq_false_iff_ne.mpr hk)
  have hlane : s.lastLane tk = false := by
    rcases hnot with h | h <;> simp only [State.lastLane, h, Bool.and_false, Bool.false_and]
  have hwrite : s.lastToWrite tk = false := by
    rcases hnot with h | h <;> simp only [State.lastToWrite, h, Bool.and_false, Bool.false_and]
  show execExitDrainComplete s = _
  simp [execExitDrainComplete, hev, Thr.waiting, hst, hwait, hpend, hlocks, hdying, hlane, hwrite]

theorem kind_toNat_eq_two (k : BitVec 2) : (k.toNat == 2) = (k == 2) := by
  revert k
  decide

/-- A roaming thread that retires frees its slot and is reported to its kernel's chip (R88, R352). -/
theorem retire_roaming {s : State} {tk : Nat} (hk : (s.T tk).kind ≠ 2) (hfw : (s.T tk).fw = false) (hout : s.spawnsOut (s.T tk).ctx (s.T tk).tid = false) :
    let t := s.retire tk none
    t.mem = s.mem ∧ t.thr = s.thr.del tk ∧ t.crews = s.crews
      ∧ Sent t ⟨.tempoParticipantNotice, .tnote (s.T tk).ctx (s.T tk).ktab.toNat false s.chip (coreOfTk tk) (s.T tk).tid none none⟩
          (s.kernChip (s.T tk).ctx (s.T tk).ktab.toNat) 504 := by
  let u : State := { s with thr := s.thr.del tk }
  let v := u.send (coreOfTk tk) (s.kernChip (s.T tk).ctx (s.T tk).ktab.toNat) (distCore 0) .tempoParticipantNotice
    (.tnote (s.T tk).ctx (s.T tk).ktab.toNat false s.chip (coreOfTk tk) (s.T tk).tid none none)
  have hretire : s.retire tk none = v.slotFreed (coreOfTk tk) := by
    have hout' : u.spawnsOut (s.T tk).ctx (s.T tk).tid = false := hout
    rw [State.retire]
    simp only [kind_toNat_eq_two, beq_iff_eq, hk, if_false, hfw, Bool.false_eq_true]
    change (u.reportUnit _ _ _ _ _).slotFreed _ = _
    rw [State.reportUnit, if_neg (by rw [hout']; exact Bool.false_ne_true)]
    rfl
  have hsend : Mails u v := mails_send ..
  have hfreed : Mails v (v.slotFreed (coreOfTk tk)) := mails_slotFreed ..
  have hall := hsend.trans hfreed
  rw [hretire]
  exact ⟨hall.mem, hall.thr, hall.crews, sent_mono (sent_send ..) hfreed.keeps⟩

/-! ### A crew's lane retires (R138, R150, R151) -/

/-- What the effects of a lane's retirement on its crew keep: the retired thread itself, and which lanes of each crew are live. -/
structure KeepsLane (tk : Nat) (s t : State) : Prop where
  frame : ThrMsgs s t
  thread : t.T tk = s.T tk
  live : ∀ c, (t.C c).live = (s.C c).live

theorem KeepsLane.refl (tk : Nat) (s : State) : KeepsLane tk s s := ⟨.refl s, rfl, fun _ => rfl⟩
theorem KeepsLane.trans {tk : Nat} {s t u : State} (h : KeepsLane tk s t) (h' : KeepsLane tk t u) : KeepsLane tk s u :=
  ⟨h.frame.trans h'.frame, h'.thread.trans h.thread, fun c => (h'.live c).trans (h.live c)⟩
theorem OwnThread.keepsLane {tk k : Nat} {s t : State} (h : OwnThread k s t) (hne : tk ≠ k) : KeepsLane tk s t :=
  ⟨h.frame, h.others tk hne, fun c => by rw [h.C]⟩
theorem CrewWork.keepsLane {s t : State} (h : CrewWork s t) (tk : Nat) : KeepsLane tk s t := ⟨h.frame, h.T tk, h.live⟩

theorem laneTk_inj {ck l tk : Nat} (hl : l < 32) (h : tk = laneTk ck l) : slotOfTk tk % 32 = l := by
  unfold laneTk at h
  unfold slotOfTk
  omega

theorem bit_toNat {w : Nat} (x : BitVec w) (i : Nat) : bit x.toNat i = x.getLsbD i := by
  rw [BitVec.getLsbD, Nat.testBit_eq_decide_div_mod_eq]
  rfl

/-- A struck lane is parked in no rejoin register. -/
theorem strikeAll_parked (c : Crew) {l : Nat} (hl : l < 32) (n : Nat) : bit ((c.strikeAll l).jr n).parked.toNat l = false := by
  rw [bit_toNat]
  by_cases hn : n < 8
  · have hj : ((c.strikeAll l).jr n).parked = c.j[n].parked &&& ~~~BitVec.ofNat 32 (2 ^ l) := by simp [Crew.jr, Crew.strikeAll, Vector.getD, hn]
    rw [hj, BitVec.getLsbD_and, BitVec.getLsbD_not, BitVec.getLsbD_ofNat, Nat.testBit_two_pow_self]
    simp [hl]
  · simp [Crew.jr, Vector.getD, hn]

/-- A lane is parked in no rejoin register after one of them was cleared. -/
theorem setJ_zero_parked {c : Crew} {l : Nat} (h : ∀ n, bit (c.jr n).parked.toNat l = false) (m n : Nat) :
    bit ((c.setJ m ⟨0, 0⟩).jr n).parked.toNat l = false := by
  have hn := h n
  rw [bit_toNat] at *
  by_cases hn8 : n < 8
  · by_cases hmn : m = n <;> simp_all [Crew.jr, Crew.setJ, Vector.getD]
  · simp [Crew.jr, Vector.getD, hn8]

/-- The lanes parked in a rejoin register wake; a lane that is not parked there stays as it is. -/
theorem wakeParked_keepsLane {tk ck : Nat} {r : Rejoin} (h : bit r.parked.toNat (slotOfTk tk % 32) = false) (s : State) :
    let t := (List.range 32).foldl (fun s l => if bit r.parked.toNat l then s.wake (laneTk ck l) else s) s
    KeepsLane tk s t ∧ t.crews = s.crews := by
  refine List.foldlRecOn (motive := fun t => KeepsLane tk s t ∧ t.crews = s.crews) _ _ ⟨.refl tk s, rfl⟩ ?_
  rintro u ⟨hu, hcrews⟩ l hl
  split
  case isTrue hparked =>
    have hwake := ownThread_wake u (laneTk ck l)
    have hne : tk ≠ laneTk ck l := fun heq => by
      rw [laneTk_inj (List.mem_range.mp hl) heq, hparked] at h
      cases h
    exact ⟨hu.trans (hwake.keepsLane hne), hwake.crews.trans hcrews⟩
  case isFalse => exact ⟨hu, hcrews⟩

theorem rejoinTest_keepsLane {s : State} {tk ck : Nat} (h : ∀ n, bit ((s.C ck).jr n).parked.toNat (slotOfTk tk % 32) = false) :
    KeepsLane tk s (s.rejoinTest ck) := by
  unfold State.rejoinTest
  refine (List.foldlRecOn (motive := fun t => KeepsLane tk s t ∧ ∀ n, bit ((t.C ck).jr n).parked.toNat (slotOfTk tk % 32) = false) _ _ ⟨.refl tk s, h⟩ ?_).1
  rintro u ⟨hu, hparked⟩ n -
  dsimp only
  split
  case isTrue =>
    obtain ⟨hwoken, hcrews⟩ := wakeParked_keepsLane (ck := ck) (hparked n) u
    generalize (List.range 32).foldl (fun s l => if bit ((u.C ck).jr n).parked.toNat l then s.wake (laneTk ck l) else s) u = v at *
    have hset : CrewWork v (v.modC ck (·.setJ n ⟨0, 0⟩)) := crewWork_modC fun _ => rfl
    refine ⟨(hu.trans hwoken).trans (hset.keepsLane tk), fun m => ?_⟩
    have hC : v.C ck = u.C ck := by rw [State.C, hcrews]; rfl
    rw [modC_eq, C_setC_same, hC]
    exact setJ_zero_parked hparked n m
  case isFalse => exact ⟨hu, hparked⟩

/-- The lanes of a retired thread's crew that waited to read a register wake. -/
theorem wakeReaders_keepsLane {s : State} {tk : Nat} (h : (s.T tk).st = .retired) : KeepsLane tk s (s.wakeReaders tk) := by
  unfold State.wakeReaders
  split
  case isFalse => exact .refl tk s
  case isTrue =>
    refine List.foldlRecOn (motive := KeepsLane tk s) _ _ (.refl tk s) fun u hu l _ => ?_
    dsimp only
    split
    case isFalse => exact hu
    case isTrue hblocked =>
      refine hu.trans ((ownThread_wake u _).keepsLane fun heq => ?_)
      rw [← heq, hu.thread, h] at hblocked
      cases hblocked.1

theorem crewWork_crewDrain (s : State) (ck : Nat) : CrewWork s (s.crewDrain ck) := by
  unfold State.crewDrain
  have hdrain : CrewWork s (s.setC ck { s.C ck with st := .draining }) := crewWork_modC (f := fun c => { c with st := .draining }) fun _ => rfl
  have hleft := hdrain.trans (Mails.foldl (fun u b => mails_send u (coreOfCk ck) b.chip (distCore 0) .barrierMemberDeparture (.n3 (s.C ck).ctx b.g b.m)) (s.C ck).memb _).crewWork
  dsimp only
  refine CrewWork.trans (hleft.trans (.ite ?_ (.refl _))) (mails_post ..).crewWork
  refine crewWork_tell ?_ ..
  exact fun _ => rfl

theorem unitFault_none (s : State) (ctx kern : Nat) : s.unitFault ctx kern none = s := rfl

theorem retire_crewLane {s : State} {tk : Nat} (hk : (s.T tk).kind = 2) :
    let t := s.retire tk none
    t.mem = s.mem ∧ (t.T tk).st = .retired ∧ (t.C (ckOfTk tk)).live = (s.C (ckOfTk tk)).live &&& ~~~ BitVec.ofNat 32 (2 ^ (slotOfTk tk % 32)) := by
  let struck : State := (s.modT tk fun t => { t with st := .retired, wait := .none }).modC (ckOfTk tk) fun c => (c.strikeAll (slotOfTk tk % 32)).unlive (slotOfTk tk % 32)
  let tested : State := ((struck.rejoinTest (ckOfTk tk)).crewTests (ckOfTk tk)).wakeReaders tk
  have hretire : s.retire tk none = if (tested.C (ckOfTk tk)).live.toNat == 0 then tested.crewDrain (ckOfTk tk) else tested := by
    rw [State.retire]
    simp only [kind_toNat_eq_two, beq_iff_eq, hk, if_true, State.retireLane, unitFault_none]
    rfl
  have hst : (struck.T tk).st = .retired := by simp [struck]
  have hparked (n : Nat) : bit ((struck.C (ckOfTk tk)).jr n).parked.toNat (slotOfTk tk % 32) = false := by
    have hC : struck.C (ckOfTk tk) = ((s.C (ckOfTk tk)).strikeAll (slotOfTk tk % 32)).unlive (slotOfTk tk % 32) := by simp [struck]
    rw [hC]
    exact strikeAll_parked _ (Nat.mod_lt _ (by omega)) n
  have hcrew := (rejoinTest_keepsLane hparked).trans ((crewWork_crewTests _ (ckOfTk tk)).keepsLane tk)
  have htested : KeepsLane tk struck tested := hcrew.trans (wakeReaders_keepsLane (by rw [hcrew.thread, hst]))
  have hall : KeepsLane tk struck (s.retire tk none) := by
    rw [hretire]
    split
    · exact htested.trans ((crewWork_crewDrain ..).keepsLane tk)
    · exact htested
  refine ⟨hall.frame.mem, by rw [hall.thread, hst], ?_⟩
  rw [hall.live]
  simp only [struck, modC_eq, C_setC_same]
  rfl

/-! ### A trap that waited for locks (R374)

Whether an address is a chain head is what the core finds there for the thread (R58, R97), which depends on every thread of its cluster (R173): a thread's list of pending
traps has no part in it. -/

theorem all_set {α : Type} {t : Tab α} {n : Nat} {x y : α} {p : Nat × α → Bool} (hget : Tab.get? t n = some y) (hp : p (n, x) = p (n, y)) :
    (Tab.set t n x).all p = t.all p := by
  induction t with
  | nil => cases hget
  | cons e t ih =>
    obtain ⟨k, v⟩ := e
    unfold Tab.get? at hget
    unfold Tab.set
    split
    case isTrue h =>
      rw [if_pos h] at hget
      cases hget
      subst h
      rw [List.all_cons, List.all_cons, hp]
    case isFalse h =>
      rw [if_neg h] at hget
      split
      case isTrue hlt =>
        rw [if_pos hlt] at hget
        cases hget
      case isFalse hlt =>
        rw [if_neg hlt] at hget
        simp [ih hget]

/-- A thread in the thread table that stays of its kind, its state and its kernel leaves its cluster fused or not as it was (R173). -/
theorem fusedCluster_setT {s : State} {tk : Nat} {x y : Thr} (hget : s.thr.get? tk = some y) (hkind : x.kind = y.kind) (hst : x.st = y.st) (hctx : x.ctx = y.ctx)
    (hktab : x.ktab = y.ktab) (cl : Nat) : (s.setT tk x).fusedCluster cl = s.fusedCluster cl := by
  unfold State.fusedCluster
  have hkent (ctx k : Nat) : (s.setT tk x).kent ctx k = s.kent ctx k := rfl
  simp only [setT_thr, setT_crews, setT_saves, hkent]
  congr 2
  exact all_set hget (by simp only [hkind, hst, hctx, hktab])

/-- What a core finds for a thread depends on the other fields of the state, on which clusters are fused, and on what the thread's line fills and probe answered. -/
theorem sealedAt_congr {s t : State} {tk : Nat} (h : ThrOnly s t) (hfused : ∀ cl, t.fusedCluster cl = s.fusedCluster cl) (hgot : (t.rT tk).got = (s.rT tk).got)
    (hfresh : (t.rT tk).fresh = (s.rT tk).fresh) (core ctx : Nat) (code : Bool) (a : Nat) : t.sealedAt core ctx tk code a = s.sealedAt core ctx tk code a := by
  have hhome : t.homeAt core ctx a = s.homeAt core ctx a := by rw [h]; rfl
  have hperm (chip key : Nat) : t.permEntry core ctx chip key = s.permEntry core ctx chip key := by rw [h]; rfl
  have hl1 (line : Nat) : t.l1Of core line = s.l1Of core line := by simp only [State.l1Of, hfused]
  have hrep (holder : Nat) : t.repAt holder ctx a = s.repAt holder ctx a := by rw [h]; rfl
  have hreplica : t.replica core ctx a = s.replica core ctx a := by simp only [State.replica, hl1, hrep, hfused]
  have hepoch (die : Nat) : t.epoch die = s.epoch die := by rw [h]; rfl
  have hchip : t.chip = s.chip := by rw [h]
  simp only [State.sealedAt, hgot, hfresh, hhome, hperm, hl1, hreplica, hepoch, hchip]

theorem targetFault_congr {s t : State} {tk : Nat} (h : ThrOnly s t) (hfused : ∀ cl, t.fusedCluster cl = s.fusedCluster cl) (hgot : (t.rT tk).got = (s.rT tk).got)
    (hfresh : (t.rT tk).fresh = (s.rT tk).fresh) (hctx : (t.T tk).ctx = (s.T tk).ctx) (hktab : (t.T tk).ktab = (s.T tk).ktab) (a : Nat) :
    t.targetFault tk a = s.targetFault tk a := by
  have hkent : t.kent (t.T tk).ctx (t.T tk).ktab.toNat = s.kent (s.T tk).ctx (s.T tk).ktab.toNat := by rw [hctx, hktab, h]; rfl
  have hbase : t.codeBase (t.T tk) = s.codeBase (s.T tk) := by rw [State.codeBase, hkent]; rfl
  have hcode : t.inCode (t.T tk) a = s.inCode (s.T tk) a := by rw [State.inCode, hbase]; rfl
  have hhead (core ctx : Nat) : t.chainHead core ctx tk a = s.chainHead core ctx tk a := by
    simp only [State.chainHead, State.codeWord, sealedAt_congr h hfused hgot hfresh]
  simp only [State.targetFault, hcode, hctx, hhead]

/-- A thread that waits stands in the thread table. -/
theorem get_of_blocked {s : State} {tk : Nat} (h : (s.T tk).st = .blocked) : s.thr.get? tk = some (s.T tk) := by
  unfold State.T at *
  cases hget : s.thr.get? tk with
  | none => rw [hget] at h; cases h
  | some x => rfl

theorem targetFault_clearPtrap {s : State} {tk : Nat} (h : (s.T tk).st = .blocked) (a : Nat) :
    (s.setT tk { s.T tk with ptrap := [] }).targetFault tk a = s.targetFault tk a := by
  have hfused (cl : Nat) : (s.setT tk { s.T tk with ptrap := [] }).fusedCluster cl = s.fusedCluster cl :=
    fusedCluster_setT (x := { s.T tk with ptrap := [] }) (get_of_blocked h) rfl rfl rfl rfl cl
  have hread : ((s.setT tk { s.T tk with ptrap := [] }).rT tk).got = (s.rT tk).got ∧ ((s.setT tk { s.T tk with ptrap := [] }).rT tk).fresh = (s.rT tk).fresh := by
    unfold State.rT
    rw [setT_iss]
    cases s.iss.pre with
    | none => simp
    | some p => exact ⟨rfl, rfl⟩
  exact targetFault_congr ((ThrOnly.refl s).setT tk _) hfused hread.1 hread.2 (by rw [T_setT_same]) (by rw [T_setT_same]) a

/-- One pending trap of a waiting thread without locks, whose handler the core knows to be a good target. -/
theorem takePending_one {s : State} {tk : Nat} {i : TrapInfo} (hst : (s.T tk).st = .blocked) (hlocks : (s.T tk).locks = []) (hp : (s.T tk).ptrap = [i])
    (hc : i.cause ≠ .uncorrectable) (hd : (s.T tk).frames.length < 4) (hh : (s.T tk).handler ≠ 0) (hf : s.targetFault tk (s.T tk).handler.toNat = none)
    (hn : s.targetNeeds tk (s.T tk).handler.toNat = none) : s.takePending tk = (s.setT tk { s.T tk with ptrap := [] }).trapNow tk i := by
  have hstays : (s.T tk).stays = false := by simp [Thr.stays, hp, hc, hd]
  have hblocked : ((s.setT tk { s.T tk with ptrap := [] }).T tk).st ≠ .trapped := by rw [T_setT_same]; simp [hst]
  have hgo : ¬ ((s.T tk).stays = true ∨ (s.T tk).handler = 0 ∨ (s.targetFault tk (s.T tk).handler.toNat).isSome = true) := by
    rw [hstays, hf]
    exact not_or.mpr ⟨Bool.false_ne_true, not_or.mpr ⟨hh, Bool.false_ne_true⟩⟩
  unfold State.takePending
  dsimp only
  rw [if_neg (not_not.mpr hlocks), if_neg hgo, hn, hp]
  dsimp only
  rw [State.trapAll, if_neg hblocked, State.trapAll]

theorem set_set {α : Type} (t : Tab α) (n : Nat) (x y : α) : Tab.set (Tab.set t n x) n y = Tab.set t n y := by
  induction t with
  | nil => simp [Tab.set]
  | cons e t ih =>
    obtain ⟨k, v⟩ := e
    by_cases h : n = k
    · simp [Tab.set, h]
    · by_cases hlt : n < k <;> simp [Tab.set, h, hlt, ih]

theorem setT_setT (s : State) (tk : Nat) (x y : Thr) : (s.setT tk x).setT tk y = s.setT tk y := by
  simp only [State.setT, set_set]

theorem takeTrapEvent (s : State) (tk : Nat) (i : TrapInfo) (hev : s.ev = .thread tk) (hst : (s.T tk).st = .blocked) (hwait : (s.T tk).wait = .trap)
    (hlocks : (s.T tk).locks = []) (hp : (s.T tk).ptrap = [i]) (hc : i.cause ≠ .uncorrectable) (hd : (s.T tk).frames.length < 4) (hh : (s.T tk).handler ≠ 0)
    (hf : s.targetFault tk (s.T tk).handler.toNat = none) (hn : s.targetNeeds tk (s.T tk).handler.toNat = none) :
    exec .takeTrap s = .next (s.setT tk { s.T tk with
      frames := ⟨i.pc, i.word, i.cause, i.addr, i.info⟩ :: (s.T tk).frames, view := 0, pc := (s.T tk).handler, st := .ready, wait := .none, ptrap := []
      readyAt := s.clockOf (coreOfTk tk), fresh := none, got := [] }) := by
  have hevent : exec .takeTrap s = .next (s.takePending tk) := by
    show execTakeTrap s = _
    simp [execTakeTrap, hev, hst, hwait, hlocks]
  rw [hevent, takePending_one hst hlocks hp hc hd hh hf hn, trapNow_enters hc (by rwa [T_setT_same]) (by rwa [T_setT_same]) (by rw [T_setT_same, targetFault_clearPtrap hst, hf]),
    setT_setT, T_setT_same]
  rfl

/-- A thread replaced: the rest of the state is as before. -/
theorem setT_others (s : State) (tk : Nat) (x : Thr) : s.setT tk x = { s with thr := (s.setT tk x).thr } ∧ (∀ j, j ≠ tk → (s.setT tk x).T j = s.T j) ∧ (s.setT tk x).T tk = x :=
  ⟨rfl, fun j hj => by rw [T_setT, if_neg hj], T_setT_same s tk x⟩

/-! ### A sleeper (R92) -/

theorem exec_sleepDeadline {s : State} {tk d : Nat} (hev : s.ev = .thread tk) (hd : (s.T tk).sleepAt = some d) (hst : (s.T tk).st = .blocked) (hwait : (s.T tk).wait = .sleep)
    (hp : (s.T tk).ptrap = []) : exec .sleepDeadline s = .next (if d ≤ s.clockOf (coreOfTk tk) then
      s.setT tk { s.T tk with sleepAt := none, st := .ready, wait := .none, readyAt := s.clockOf (coreOfTk tk) } else s) := by
  have hwake : (s.modT tk fun t => { t with sleepAt := none }).wake tk =
      s.setT tk { s.T tk with sleepAt := none, st := .ready, wait := .none, readyAt := s.clockOf (coreOfTk tk) } := by
    rw [wake_ready (by simp [hp]), modT_eq, setT_setT, T_setT_same]
    rfl
  show execSleepDeadline s = _
  simp only [execSleepDeadline, hev, State.sleepOver, hd, hst, hwait, true_and, hwake]

theorem sleepEvent (s : State) (tk d : Nat) (hev : s.ev = .thread tk) (hd : (s.T tk).sleepAt = some d) (hst : (s.T tk).st = .blocked) (hwait : (s.T tk).wait = .sleep)
    (hp : (s.T tk).ptrap = []) : Gives .sleepDeadline s fun t => t = { s with thr := t.thr } ∧ (∀ j, j ≠ tk → t.T j = s.T j)
      ∧ t.T tk = if d ≤ s.clockOf (coreOfTk tk) then
          { s.T tk with sleepAt := none, st := .ready, wait := .none, readyAt := s.clockOf (coreOfTk tk) } else s.T tk := by
  have hexec := exec_sleepDeadline hev hd hst hwait hp
  by_cases hdue : d ≤ s.clockOf (coreOfTk tk)
  · rw [if_pos hdue] at hexec ⊢
    exact ⟨_, hexec, setT_others ..⟩
  · rw [if_neg hdue] at hexec ⊢
    exact ⟨s, hexec, rfl, fun _ _ => rfl, rfl⟩

/-! ### The tempo agent (R352) -/

theorem tagent_setTagent (s : State) (ctx kern : Nat) (a : TAgent) : (s.setTagent ctx kern a).tagent ctx kern = a := by
  simp [State.tagent, State.setTagent]

theorem exec_tempoNotice {s : State} {ctx kern chip core : Nat} {add : Bool} {p : TId} {ack : Option TId} {f : Option NFault}
    (hev : s.ev = .tnote ctx kern add chip core p ack f) (hgo : add = false → chip = s.chip → s.spawnsOut ctx p = false ∧ s.kernChip ctx kern = s.chip) :
    exec .tempoParticipantNotice s = .next (s.tempoNotice ctx kern add chip core p ack f) := by
  have hcond : (!add && chip == s.chip && (s.spawnsOut ctx p || s.kernChip ctx kern != s.chip)) = false := by
    cases add
    case true => rfl
    case false =>
      by_cases hchip : chip = s.chip
      · obtain ⟨hout, hkern⟩ := hgo rfl hchip
        simp [hout, hkern]
      · simp [hchip]
  show execTempoParticipantNotice s = _
  simp only [execTempoParticipantNotice, hev, hcond, Bool.false_eq_true, if_false]

/-- A pawn is counted, and its SPAWN acknowledged. -/
theorem tempoAdds (s : State) (ctx kern core : Nat) (p i : TId) (hev : s.ev = .tnote ctx kern true s.chip core p (some i) none) (hgone : (s.tagent ctx kern).gone = []) :
    Gives .tempoParticipantNotice s fun t => t.thr = s.thr ∧ t.mem = s.mem ∧ (t.tagent ctx kern).live = (s.tagent ctx kern).live + 1
      ∧ Sent t ⟨.ackResponse, .tnote ctx kern true s.chip core i none none⟩ s.chip core := by
  let u := s.setTagent ctx kern { s.tagent ctx kern with live := (s.tagent ctx kern).live + 1, known := p :: (s.tagent ctx kern).known }
  have hnotice : s.tempoNotice ctx kern true s.chip core p (some i) none =
      u.send (distCore 0) s.chip core .ackResponse (.tnote ctx kern true s.chip core i none none) := by
    have hnew : (s.tagent ctx kern).gone.contains p = false := by rw [hgone]; rfl
    simp only [State.tempoNotice, if_true, hnew, Bool.false_eq_true, if_false]
    rfl
  have hmails : Mails u (u.send (distCore 0) s.chip core .ackResponse (.tnote ctx kern true s.chip core i none none)) := mails_send ..
  refine ⟨_, (exec_tempoNotice hev (fun h => nomatch h)).trans (congrArg _ hnotice), hmails.thr, hmails.mem, ?_, sent_send ..⟩
  rw [hmails.tagent, tagent_setTagent]

/-- A retirement that waits for the unit's pawns is put off. -/
theorem tempoWaits (s : State) (ctx kern core : Nat) (p : TId) (f : Option NFault) (hev : s.ev = .tnote ctx kern false s.chip core p none f)
    (hout : s.spawnsOut ctx p = true) :
    Gives .tempoParticipantNotice s fun t => t = { s with agenda := s.agenda ++ [⟨.tempoParticipantNotice, s.ev⟩] } := by
  refine ⟨_, ?_, rfl⟩
  show execTempoParticipantNotice s = _
  simp [execTempoParticipantNotice, hev, hout, State.reportUnit, State.post]

theorem unitDone_frame (s : State) (ctx kern : Nat) (f : Option NFault) : ∃ n g, s.unitDone ctx kern f = { s with nodes := n, agenda := g } := by
  unfold State.unitDone State.kernTest
  split
  case h_2 => exact ⟨_, _, rfl⟩
  case h_1 =>
    split
    case h_2 => exact ⟨_, _, rfl⟩
    case h_1 => split <;> exact ⟨_, _, rfl⟩

/-- A completed kernel leaves LIVE as it was. -/
theorem tempoComplete_spec (s : State) (ctx kern : Nat) :
    (s.tempoComplete ctx kern).thr = s.thr ∧ (s.tempoComplete ctx kern).mem = s.mem ∧ ((s.tempoComplete ctx kern).tagent ctx kern).live = (s.tagent ctx kern).live := by
  unfold State.tempoComplete
  dsimp only
  split
  case isFalse => exact ⟨rfl, rfl, rfl⟩
  case isTrue =>
    have hmails := Mails.foldl (fun u (p : Nat × Nat × TPart) => mails_send u (distCore 0) p.1 p.2.1 .tempoRelease (.trel ctx p.2.1 p.2.2 (s.tagent ctx kern).orv))
      (s.tagent ctx kern).arr (s.setTagent ctx kern { s.tagent ctx kern with arr := [], orv := 0 })
    refine ⟨hmails.thr, hmails.mem, ?_⟩
    rw [hmails.tagent, tagent_setTagent]

/-- A retired participant that is no pawn counts no more. -/
theorem tempoRetires (s : State) (ctx kern chip core : Nat) (p : TId) (f : Option NFault) (hev : s.ev = .tnote ctx kern false chip core p none f) (hk : p.kind ≠ 1)
    (hgo : chip = s.chip → s.spawnsOut ctx p = false ∧ s.kernChip ctx kern = s.chip) :
    Gives .tempoParticipantNotice s fun t => t.thr = s.thr ∧ t.mem = s.mem ∧ (t.tagent ctx kern).live = (s.tagent ctx kern).live - 1 := by
  let u := s.setTagent ctx kern { s.tagent ctx kern with live := (s.tagent ctx kern).live - 1, known := (s.tagent ctx kern).known.filter (· != p) }
  have hnotice : s.tempoNotice ctx kern false chip core p none f = (u.unitDone ctx kern f).tempoComplete ctx kern := by
    simp only [State.tempoNotice, Bool.false_eq_true, hk, false_and, if_false]
    rfl
  obtain ⟨n, g, hdone⟩ := unitDone_frame u ctx kern f
  obtain ⟨hthr, hmem, hlive⟩ := tempoComplete_spec (u.unitDone ctx kern f) ctx kern
  refine ⟨_, (exec_tempoNotice hev fun _ => hgo).trans (congrArg _ hnotice), ?_, ?_, ?_⟩
  · rw [hthr, hdone]; rfl
  · rw [hmem, hdone]; rfl
  · rw [hlive, hdone]
    exact congrArg TAgent.live (tagent_setTagent ..)

theorem threadEvents : Claims.ThreadEvents := by
  refine ⟨?_, ?_, ?_, sleepEvent, tempoAdds, tempoWaits, tempoRetires⟩
  · intro s tk pc hev hst hwait hpend hlocks hk hfw hdying hout
    exact ⟨_, exec_exitDrainComplete hev hst hwait hpend hlocks hdying fun h => absurd h hk, retire_roaming hk hfw hout⟩
  · intro s tk pc hev hst hwait hpend hlocks hk hdying hlast
    exact ⟨_, exec_exitDrainComplete hev hst hwait hpend hlocks hdying fun _ => hlast, retire_crewLane hk⟩
  · intro s tk i hev hst hwait hlocks hp hc hd hh hf hn
    exact ⟨_, takeTrapEvent s tk i hev hst hwait hlocks hp hc hd hh hf hn, setT_others ..⟩

/-- Settles O22: each word lane by lane, and each event of a thread or of the tempo agent by its rule. -/
theorem threadFlow : Obligations.ThreadFlow := ⟨whereAndMove, threadEvents⟩

end Sys2Proof.Proofs
end

section
/-! Knights, pawns and parked records (04 R70-R77, R83, 08 R214, 14 R322, 16 R352). -/

namespace Sys2Proof.Proofs
open Sys2Proof Machine Claims Laws

/-! ### Accesses and the messages that carry them (R194-R197) -/

/-- The accesses of a thread behind which an access is held. -/
def heldBehind (s : State) (tk : Nat) (a : Acc) : List Nat := ((s.T tk).pend.filter (·.holds a)).map (·.id)

/-- The state in which an access of a thread is outstanding. -/
def withAcc (s : State) (tk : Nat) (a : Acc) : State := s.setT tk { s.T tk with pend := (s.T tk).pend ++ [{ a with held := heldBehind s tk a }] }

theorem startAcc_eq (s : State) (tk : Nat) (a : Acc) :
    s.startAcc tk a = if heldBehind s tk a = [] then (withAcc s tk a).leave a.out tk else withAcc s tk a := rfl

theorem mails_startAcc (s : State) (tk : Nat) (a : Acc) : Mails (withAcc s tk a) (s.startAcc tk a) := by
  rw [startAcc_eq]
  exact .ite (mails_leave ..) (.refl _)

theorem startAcc_T (s : State) (tk : Nat) (a : Acc) (j : Nat) : (s.startAcc tk a).T j =
    if j = tk then { s.T tk with pend := (s.T tk).pend ++ [{ a with held := heldBehind s tk a }] } else s.T j := by
  rw [(mails_startAcc s tk a).T, withAcc, T_setT]

theorem ownThread_startAcc (s : State) (tk : Nat) (a : Acc) : OwnThread tk s (s.startAcc tk a) :=
  (ownThread_setT (s := s) (x := { s.T tk with pend := (s.T tk).pend ++ [{ a with held := heldBehind s tk a }] }) rfl rfl).trans ((mails_startAcc s tk a).ownThread tk)

/-- A message that waits for one lane leaves with it; to the sender's own agent it has then arrived. -/
theorem leave_here {s : State} {tk core : Nat} {e : Ev} {o : Nat} (hget : s.outs.get? o = some { wait := [tk], chip := s.chip, core := core, src := core, ev := e }) :
    s.leave o tk = { s with outs := s.outs.del o, agenda := s.agenda ++ [e] } := by
  rw [State.leave, hget]
  simp [State.send, State.post]

/-- An access whose message goes to the core's own agent: it has arrived, or waits for the accesses before it. -/
theorem startAcc_here {s : State} {tk core : Nat} {e : Ev} {a : Acc} (hget : s.outs.get? a.out = some { wait := [tk], chip := s.chip, core := core, src := core, ev := e }) :
    s.startAcc tk a = if heldBehind s tk a = [] then { withAcc s tk a with outs := s.outs.del a.out, agenda := s.agenda ++ [e] } else withAcc s tk a := by
  rw [startAcc_eq]
  exact if_congr Iff.rfl (leave_here hget) rfl

/-! ### A thread's departure (R70-R72) -/

/-- The thread with its departure called off. -/
def calledOff (s : State) (tk : Nat) : State := s.modT tk fun t => { t with mig := none }

theorem calledOff_homeAt {s : State} {tk : Nat} {m : Mig} {h : HomeLoc} (hh : s.homeAt (coreOfTk tk) (s.T tk).ctx m.ea = some h) :
    (calledOff s tk).homeAt (coreOfTk tk) ((calledOff s tk).T tk).ctx m.ea = some h := by
  rw [← hh, calledOff, modT_eq, T_setT_same]
  rfl

/-- MIGR called off gives what HOMEQ would (R377). -/
theorem stayPut_migr {s : State} {tk : Nat} {m : Mig} {h : HomeLoc} (hh : s.homeAt (coreOfTk tk) (s.T tk).ctx m.ea = some h) (hm : m.mg = true) :
    s.stayPut tk m = ((calledOff s tk).wrG tk m.d ((calledOff s tk).homeq (coreOfTk tk) ((calledOff s tk).T tk).ctx (W m.ea))).takePending tk := by
  have hhome := calledOff_homeAt hh
  unfold calledOff at *
  unfold State.stayPut
  dsimp only
  rw [hhome]
  simp only [hm, if_true]

/-- A load called off is read remotely (R377): the thread keeps its registers. -/
theorem stayPut_load {s : State} {tk : Nat} {m : Mig} {h : HomeLoc} (hh : s.homeAt (coreOfTk tk) (s.T tk).ctx m.ea = some h) (hm : m.mg = false) :
    OwnThread tk (calledOff s tk) (s.stayPut tk m) := by
  have hhome := calledOff_homeAt hh
  unfold calledOff at *
  unfold State.stayPut
  dsimp only
  rw [hhome]
  simp only [hm, Bool.false_eq_true, if_false]
  refine OwnThread.trans ?_ (ownThread_takePending ..)
  refine OwnThread.trans ?_ (ownThread_startAcc ..)
  refine OwnThread.trans ?_ ((mails_newOut ..).ownThread tk)
  refine ((mails_fresh _).ownThread tk).trans (ownThread_modT ?_)
  exact fun _ => ⟨rfl, rfl⟩

/-- What a departure called off by a waiting trap leaves. -/
theorem stayPut_spec {s : State} {tk : Nat} {m : Mig} {h : HomeLoc} (hh : s.homeAt (coreOfTk tk) (s.T tk).ctx m.ea = some h) :
    (s.stayPut tk m).mem = s.mem ∧ ((s.stayPut tk m).T tk).mig = none ∧ (∀ j, j ≠ tk → (s.stayPut tk m).T j = s.T j)
      ∧ (m.mg = true → ((s.stayPut tk m).T tk).g = (s.T tk).g.setIfInBounds m.d (homeqVal s (coreOfTk tk) (s.T tk).ctx (W m.ea))) := by
  have hoff : (calledOff s tk).T tk = { s.T tk with mig := none } := T_setT_same ..
  have hothers (j : Nat) (hj : j ≠ tk) : (calledOff s tk).T j = s.T j := by rw [calledOff, modT_eq, T_setT, if_neg hj]
  cases hm : m.mg with
  | false =>
    have hstay := stayPut_load hh hm
    exact ⟨hstay.frame.mem, by rw [hstay.mig, hoff], fun j hj => (hstay.others j hj).trans (hothers j hj), fun h => nomatch h⟩
  | true =>
    rw [stayPut_migr hh hm]
    have hq : (calledOff s tk).homeq (coreOfTk tk) ((calledOff s tk).T tk).ctx (W m.ea) = homeqVal s (coreOfTk tk) (s.T tk).ctx (W m.ea) := by
      have honly : ThrOnly s (calledOff s tk) := (ThrOnly.refl s).setT tk _
      rw [hoff, homeq_of_thrOnly honly, homeq_eq_homeqVal]
    rw [hq, wrG_eq, hoff]
    have htrap := ownThread_takePending ((calledOff s tk).setT tk (Thr.setG { s.T tk with mig := none } m.d (homeqVal s (coreOfTk tk) (s.T tk).ctx (W m.ea)))) tk
    refine ⟨htrap.frame.mem, ?_, fun j hj => ?_, fun _ => ?_⟩
    · rw [htrap.mig, T_setT_same]; rfl
    · rw [htrap.others j hj, T_setT, if_neg hj, hothers j hj]
    · rw [htrap.regs, T_setT_same]; rfl

/-- The knight that a thread departs as (R72). -/
def knightOf (s : State) (tk : Nat) (m : Mig) : Knight :=
  let t := s.T tk
  { ctx := t.ctx, kern := t.ktab.toNat, mig := m, round := t.rmode, pw := t.kind == 1, number := t.number, carry := t.carry
    pcw := (t.pc.toNat - s.codeBase t) / 4 % 2 ^ 28, pdepth := t.pdepth, pent := t.pent, flags := t.flags, trapen := t.trapen, srng := t.srng
    regs := t.carried m.d, posted := t.posted }

theorem exec_knightDeparture {s : State} {tk : Nat} {m : Mig} {h : HomeLoc} (hev : s.ev = .thread tk) (hmig : (s.T tk).mig = some m) (hst : (s.T tk).st = .blocked)
    (hwait : (s.T tk).wait = .depart) (hlocks : (s.T tk).locks = []) (hpend : (s.T tk).pend = []) (hh : s.homeAt (coreOfTk tk) (s.T tk).ctx m.ea = some h) :
    exec .knightDeparture s = .next (if (s.T tk).ptrap ≠ [] then s.stayPut tk m else
      (({ s with thr := s.thr.del tk } : State).send (coreOfTk tk) h.chip h.core .knightArrival (.knight h.core (knightOf s tk m))).slotFreed (coreOfTk tk)) := by
  show execKnightDeparture s = _
  unfold execKnightDeparture
  rw [hev]
  dsimp only
  rw [hmig]
  simp only [hst, hwait, hlocks, hpend, and_self, if_true, hh]
  rfl

/-- The registers of CARRY.MASK without D (R72). -/
theorem mem_carried (t : Thr) (d r : Nat) (v : Word) : (r, v) ∈ t.carried d ↔ r < 32 ∧ t.carry.getLsbD r = true ∧ r ≠ d ∧ v = t.gr r := by
  simp only [Thr.carried, List.mem_map, List.mem_filter, List.mem_range, Bool.and_eq_true, bit_toNat, bne_iff_ne, Prod.mk.injEq]
  constructor
  · rintro ⟨n, ⟨hn, hc, hd⟩, rfl, rfl⟩
    exact ⟨hn, hc, hd, rfl⟩
  · rintro ⟨hr, hc, hd, rfl⟩
    exact ⟨r, ⟨hr, hc, hd⟩, rfl, rfl⟩

/-- The drained thread is gone from its slot, and its knight is on its way. -/
theorem departs_as_knight (s : State) (tk : Nat) (k : Knight) (h : HomeLoc) :
    let t := (({ s with thr := s.thr.del tk } : State).send (coreOfTk tk) h.chip h.core .knightArrival (.knight h.core k)).slotFreed (coreOfTk tk)
    t.mem = s.mem ∧ t.thr = s.thr.del tk ∧ Sent t ⟨.knightArrival, .knight h.core k⟩ h.chip h.core := by
  have hsend := mails_send { s with thr := s.thr.del tk } (coreOfTk tk) h.chip h.core .knightArrival (.knight h.core k)
  have hall := hsend.trans (mails_slotFreed _ (coreOfTk tk))
  exact ⟨hall.mem, hall.thr, sent_mono (sent_send ..) (mails_slotFreed ..).keeps⟩

theorem knightDeparture (s : State) (tk : Nat) (m : Mig) (h : HomeLoc) (hev : s.ev = .thread tk) (hmig : (s.T tk).mig = some m) (hst : (s.T tk).st = .blocked)
    (hwait : (s.T tk).wait = .depart) (hlocks : (s.T tk).locks = []) (hpend : (s.T tk).pend = []) (hh : s.homeAt (coreOfTk tk) (s.T tk).ctx m.ea = some h) :
    ((s.T tk).ptrap ≠ [] → Gives .knightDeparture s fun t => t.mem = s.mem ∧ (t.T tk).mig = none ∧ (∀ j, j ≠ tk → t.T j = s.T j)
      ∧ (m.mg = true → (t.T tk).g = (s.T tk).g.setIfInBounds m.d (homeqVal s (coreOfTk tk) (s.T tk).ctx (W m.ea))))
    ∧ ((s.T tk).ptrap = [] → Gives .knightDeparture s fun t => t.mem = s.mem ∧ t.thr = s.thr.del tk ∧ ∃ k : Knight, Sent t ⟨.knightArrival, .knight h.core k⟩ h.chip h.core
      ∧ k.mig = m ∧ k.ctx = (s.T tk).ctx ∧ k.kern = (s.T tk).ktab.toNat ∧ k.number = (s.T tk).number ∧ k.pw = ((s.T tk).kind == 1)
      ∧ k.srng = (s.T tk).srng ∧ k.flags = (s.T tk).flags ∧ k.pdepth = (s.T tk).pdepth ∧ k.pent = (s.T tk).pent ∧ k.trapen = (s.T tk).trapen
      ∧ k.round = (s.T tk).rmode ∧ k.carry = (s.T tk).carry ∧ k.posted = (s.T tk).posted
      ∧ k.pcw = ((s.T tk).pc.toNat - s.codeBase (s.T tk)) / 4 % 2 ^ 28
      ∧ ∀ r v, (r, v) ∈ k.regs ↔ r < 32 ∧ (s.T tk).carry.getLsbD r = true ∧ r ≠ m.d ∧ v = (s.T tk).gr r) := by
  have hexec := exec_knightDeparture hev hmig hst hwait hlocks hpend hh
  constructor
  · intro htrap
    rw [if_pos htrap] at hexec
    exact ⟨_, hexec, stayPut_spec hh⟩
  · intro htrap
    rw [if_neg (not_not.mpr htrap)] at hexec
    obtain ⟨hmem, hthr, hsent⟩ := departs_as_knight s tk (knightOf s tk m) h
    exact ⟨_, hexec, hmem, hthr, knightOf s tk m, hsent, rfl, rfl, rfl, rfl, rfl, rfl, rfl, rfl, rfl, rfl, rfl, rfl, rfl, rfl, mem_carried _ _⟩

/-! ### A record placed at a core (R73-R76, R83) -/

theorem carriedThread_restore (s : State) (k : Knight) : carriedThread s k (s.restore k) := by
  refine ⟨rfl, rfl, rfl, rfl, rfl, rfl, rfl, rfl, rfl, rfl, rfl, ?_, rfl, rfl, fun e he => ?_⟩
  · cases hpw : k.pw <;> simp [State.restore, hpw, b2n]
  · simp only [State.restore, he, Option.map_some, Option.getD_some, and_self]

/-- The load of a knight in its slot, as a request to the core's own home (R73). -/
def knightLoad (s : State) (core slot : Nat) (k : Knight) : MemReq :=
  let tk := tkOf core (s.core core).active slot
  { op := .load k.mig.sx, ctx := k.ctx, home := core, chip := s.chip, core := core, sum := 0, fl := 0
    lanes := [{ tk := tk, id := s.ids, tid := (s.restore k).tid, pcw := k.pcw, ea := k.mig.ea, size := 2 ^ k.mig.sz, data := 0, cmp := 0, mode := 0 }] }

/-- The thread of a knight that waits for its load. -/
def loadingThread (s : State) (k : Knight) : Thr :=
  { s.restore k with locks := [{ id := s.ids, d := k.mig.d, regs := gbit k.mig.d, left := 0, active := true, due := none, val := none, fl := 0 }] }

/-- The access of a knight's load. -/
def knightAcc (s : State) (core : Nat) (k : Knight) : Acc :=
  { id := s.ids, kind := .load, line := some (k.mig.ea / 128), pkind := ((s.homeAt core k.ctx k.mig.ea).map (s.kindAt core k.ctx)).getD 0, acq := k.mig.acq, rel := false
    scope := k.mig.scope, held := [], out := s.ids + 1, pc := k.mig.pc, d := k.mig.d, ea := k.mig.ea, heldAt := none, recd := false }

/-- A knight of MIGR in its slot: D has received HOMEQ (R73). -/
theorem admitKnight_migr {s : State} {core slot : Nat} {k : Knight} (hm : k.mig.mg = true) : let tk := tkOf core (s.core core).active slot
    s.admitKnight core slot k = s.setT tk { (s.restore k).setG k.mig.d (homeqVal s core k.ctx (W k.mig.ea)) with
      st := .ready, wait := .none, readyAt := s.clockOf (coreOfTk tk) } := by
  intro tk
  unfold State.admitKnight
  dsimp only
  rw [if_pos hm, wake_ready (by rw [T_setT_same]; rfl), T_setT_same, setT_setT, homeq_eq_homeqVal]
  rfl

/-- A knight of a load in its slot: the load is at the core's own home (R73). -/
theorem admitKnight_load {s : State} {core slot : Nat} {k : Knight} (hm : k.mig.mg = false) : let tk := tkOf core (s.core core).active slot
    let e : Ev := ⟨.remoteRead, .req (knightLoad s core slot k)⟩
    ∃ u, s.admitKnight core slot k = u.startAcc tk (knightAcc s core k) ∧ Mails (s.setT tk (loadingThread s k)) u
      ∧ u.outs.get? (knightAcc s core k).out = some { wait := [tk], chip := u.chip, core := core, src := core, ev := e } := by
  intro tk e
  refine ⟨(s.fresh.setT tk (loadingThread s k)).newOut { wait := [tk], chip := s.chip, core := core, src := core, ev := e }, ?_, ?_, ?_⟩
  · unfold State.admitKnight
    dsimp only
    rw [if_neg (by rw [hm]; exact Bool.false_ne_true)]
    rfl
  · exact ⟨rfl, fun _ he => he, fun _ hf => hf⟩
  · exact get_set_same ..

/-- What a knight's place in a slot leaves. -/
theorem admitKnight_spec (s : State) (core slot : Nat) (k : Knight) : let tk := tkOf core (s.core core).active slot
    let t := s.admitKnight core slot k
    ThrMsgs s t ∧ (∀ j, j ≠ tk → t.T j = s.T j) ∧ carriedThread s k (t.T tk)
      ∧ (k.mig.mg = true → (t.T tk).st = .ready ∧ (t.T tk).g = (carriedRegs k.regs).setIfInBounds k.mig.d (homeqVal s core k.ctx (W k.mig.ea)))
      ∧ (k.mig.mg = false → (t.T tk).st = .blocked ∧ (t.T tk).g = carriedRegs k.regs ∧ ∃ r l, ⟨.remoteRead, .req r⟩ ∈ t.agenda ∧ r.op = .load k.mig.sx
          ∧ r.lanes = [l] ∧ l.tk = tk ∧ l.ea = k.mig.ea ∧ l.size = 2 ^ k.mig.sz ∧ ∃ c ∈ (t.T tk).locks, c.id = l.id ∧ c.d = k.mig.d) := by
  intro tk t
  cases hm : k.mig.mg with
  | true =>
    have ht : t = _ := admitKnight_migr hm
    have hT : t.T tk = { (s.restore k).setG k.mig.d (homeqVal s core k.ctx (W k.mig.ea)) with st := .ready, wait := .none, readyAt := s.clockOf (coreOfTk tk) } := by
      rw [ht, T_setT_same]
    refine ⟨by rw [ht]; exact (ThrMsgs.refl s).setT .., fun j hj => by rw [ht, T_setT, if_neg hj], ?_, fun _ => ?_, fun h => nomatch h⟩
    · rw [hT]
      exact carriedThread_restore s k
    · rw [hT]
      exact ⟨rfl, rfl⟩
  | false =>
    obtain ⟨u, ht, hu, hget⟩ := admitKnight_load (s := s) (core := core) (slot := slot) hm
    have ht : t = u.startAcc tk (knightAcc s core k) := ht
    have hacc := ownThread_startAcc u tk (knightAcc s core k)
    have huT : u.T tk = loadingThread s k := by rw [hu.T, T_setT_same]
    have hT : t.T tk = { loadingThread s k with pend := (t.T tk).pend } := by
      rw [ht, startAcc_T, if_pos rfl, huT]
    have hbehind : heldBehind u tk (knightAcc s core k) = [] := by rw [heldBehind, huT]; rfl
    refine ⟨?_, fun j hj => ?_, ?_, (fun h => nomatch h), fun _ => ?_⟩
    · rw [ht]
      exact (((ThrMsgs.refl s).setT ..).trans hu.thrMsgs).trans hacc.frame
    · rw [ht, hacc.others j hj, hu.T, T_setT, if_neg hj]
    · rw [hT]
      exact carriedThread_restore s k
    · rw [hT]
      refine ⟨rfl, rfl, knightLoad s core slot k, _, ?_, rfl, rfl, rfl, rfl, rfl, _, List.mem_singleton_self _, rfl, rfl⟩
      rw [ht, startAcc_here hget, if_pos hbehind]
      exact List.mem_append_right _ (List.mem_singleton_self _)

/-- The thread that a creation record makes, before it is READY (R83, R322). -/
def madeThread (s : State) (c : Spawn) : Thr :=
  let e := s.kent c.ctx c.kern
  { Thr.blank with
    ctx := c.ctx, g := ((Vector.replicate 32 0).setIfInBounds 0 c.g0).setIfInBounds 1 c.g1
    pc := BitVec.ofNat 56 ((e.map (·.code.toNat)).getD 0 + 4 * c.pcw), trapen := (e.map (·.trapen)).getD 0, rmode := (e.map (·.round)).getD 1, srng := c.srng
    carry := (e.map (·.carry)).getD 0, handler := (e.map (·.trapv)).getD 0, kind := if c.ln then 0 else 1, number := c.number
    qid := BitVec.ofNat 6 ((e.map (·.qid)).getD 0), ktab := BitVec.ofNat 12 c.kern, pkt := BitVec.ofNat 32 ((e.map (·.pkt)).getD 0) }

theorem createdThread_made (s : State) (c : Spawn) (tk : Nat) :
    createdThread s c tk { madeThread s c with st := .ready, wait := .none, readyAt := s.clockOf (coreOfTk tk) } := by
  refine ⟨rfl, rfl, rfl, rfl, rfl, rfl, rfl, rfl, rfl, rfl, rfl, rfl, fun e he => ?_⟩
  simp only [madeThread, he, Option.map_some, Option.getD_some, and_self]

theorem admitSpawn_eq (s : State) (core slot : Nat) (c : Spawn) : let tk := tkOf core (s.core core).active slot
    s.admitSpawn core slot c = s.setT tk { madeThread s c with st := .ready, wait := .none, readyAt := s.clockOf (coreOfTk tk) } := by
  intro tk
  have hadmit : s.admitSpawn core slot c = (s.setT tk (madeThread s c)).wake tk := rfl
  rw [hadmit, wake_ready (by rw [T_setT_same]; rfl), T_setT_same, setT_setT]
  rfl

/-- A created thread in its slot is READY (R83). -/
theorem admitSpawn_spec (s : State) (core slot : Nat) (c : Spawn) : let tk := tkOf core (s.core core).active slot
    let t := s.admitSpawn core slot c
    ThrMsgs s t ∧ (∀ j, j ≠ tk → t.T j = s.T j) ∧ createdThread s c tk (t.T tk) := by
  intro tk t
  have ht : t = _ := admitSpawn_eq s core slot c
  refine ⟨by rw [ht]; exact (ThrMsgs.refl s).setT .., fun j hj => by rw [ht, T_setT, if_neg hj], ?_⟩
  rw [ht, T_setT_same]
  exact createdThread_made s c tk

theorem place_taken {s : State} {core n : Nat} {r : ORec} (h : Taken s core r.ctx n) : s.place core r = s.takeIn core n r := by
  obtain ⟨hgone, hactive, hovf, hslot⟩ := h
  simp [State.place, hgone, hactive, hovf, hslot]

/-- A parked record stands at the tail of its context's list (R74, R75). -/
theorem place_parks {s : State} {core : Nat} {r : ORec} (h : Parks s core r) :
    s.place core r = (s.setOvf core r.ctx (s.ovfOf core r.ctx ++ [(r, false)])).offerTempo core r.ctx := by
  obtain ⟨hgone, hno, hroom⟩ := h
  have hpark : s.park core r = s.setOvf core r.ctx (s.ovfOf core r.ctx ++ [(r, false)]) := if_pos hroom
  unfold State.place
  rw [hgone, if_neg Bool.false_ne_true]
  split
  case isTrue => rw [hpark]
  case isFalse hin =>
    have hslot : s.freeSlot core = none := by
      obtain ⟨hactive, hovf⟩ : s.ctxActive core r.ctx = true ∧ s.ovfOf core r.ctx = [] := by simpa using hin
      rcases hno with h | h | h
      · exact absurd (h.symm.trans hactive) Bool.false_ne_true
      · exact absurd hovf h
      · exact h
    rw [hslot]
    dsimp only
    rw [hpark]

theorem ovfOf_setOvf_append (s : State) (core ctx : Nat) (l : List (ORec × Bool)) (x : ORec × Bool) :
    (s.setOvf core ctx (l ++ [x])).ovfOf core ctx = l ++ [x] := by
  simp [State.ovfOf, State.setOvf]

theorem parks_spec {s : State} {core : Nat} {r : ORec} (h : Parks s core r) :
    (s.place core r).mem = s.mem ∧ (s.place core r).thr = s.thr ∧ (s.place core r).ovfOf core r.ctx = s.ovfOf core r.ctx ++ [(r, false)] := by
  have hoffer := mails_offerTempo (s.setOvf core r.ctx (s.ovfOf core r.ctx ++ [(r, false)])) core r.ctx
  rw [place_parks h]
  refine ⟨hoffer.mem, hoffer.thr, ?_⟩
  rw [State.ovfOf, hoffer.ovf]
  exact ovfOf_setOvf_append ..

/-! ### Arrivals (R74, R77, R83, R322) -/

theorem exec_knightArrival_here {s : State} {core : Nat} {k : Knight} (hev : s.ev = .knight core k) (hhome : HomedHere s k.ctx k.mig.ea core) :
    exec .knightArrival s = .next (s.place core (.knight k)) := by
  show execKnightArrival s = _
  unfold execKnightArrival
  rw [hev]
  dsimp only
  cases hh : homeIn (s.ctx k.ctx).ptab k.mig.ea with
  | none => rfl
  | some h => dsimp only; rw [if_pos (hhome h hh)]

theorem exec_knightArrival_away {s : State} {core : Nat} {k : Knight} {h : HomeLoc} (hev : s.ev = .knight core k) (hh : homeIn (s.ctx k.ctx).ptab k.mig.ea = some h)
    (haway : ¬ (h.chip = s.chip ∧ h.core = core)) :
    exec .knightArrival s = .next (s.forward core h.chip h.core k.ctx .knightArrival (.knight h.core k)) := by
  show execKnightArrival s = _
  unfold execKnightArrival
  rw [hev]
  dsimp only
  rw [hh]
  dsimp only
  rw [if_neg haway]

theorem forward_spec (s : State) (src chip core ctx : Nat) (i : Instr) (a : Arg) : let t := s.forward src chip core ctx i a
    t.mem = s.mem ∧ t.thr = s.thr ∧ Sent t ⟨.homeChangeForward, .fwd s.chip src i a⟩ chip core :=
  ⟨send_mem .., send_thr .., sent_send ..⟩

theorem knights : Claims.Knights := by
  refine ⟨knightDeparture, ?_, ?_, ?_⟩
  · intro s core k n hev hhome htaken
    obtain ⟨hframe, hothers, hcarried, hmigr, hload⟩ := admitKnight_spec s core n k
    exact ⟨_, (exec_knightArrival_here hev hhome).trans (congrArg _ (place_taken (r := .knight k) htaken)), hframe.mem, hothers, hcarried, hmigr, hload⟩
  · intro s core k hev hhome hparks
    exact ⟨_, exec_knightArrival_here hev hhome, parks_spec hparks⟩
  · intro s core k h hev hh haway
    exact ⟨_, exec_knightArrival_away hev hh haway, forward_spec ..⟩

/-- A pawn's arrival reported to its kernel's tempo agent (R352). -/
def reported (s : State) (core : Nat) (c : Spawn) : State :=
  if c.ln then s else s.send core (s.kernChip c.ctx c.kern) (distCore 0) .tempoParticipantNotice
    (.tnote c.ctx c.kern true c.chip c.core ⟨c.kern, 1, c.number.toNat⟩ (some c.tid) none)

theorem mails_reported (s : State) (core : Nat) (c : Spawn) : Mails s (reported s core c) := Mails.ite (.refl s) (mails_send ..)

theorem exec_spawnRecordArrival_here {s : State} {chip core tk id : Nat} {c : Spawn} (hev : s.ev = .spawn chip core tk id c) (hhome : HomedHere s c.ctx c.addr core) :
    exec .spawnRecordArrival s = .next ((reported s core c).place core (.spawn c)) := by
  show execSpawnRecordArrival s = _
  unfold execSpawnRecordArrival
  rw [hev]
  dsimp only
  cases hh : homeIn (s.ctx c.ctx).ptab c.addr with
  | none => rfl
  | some h => dsimp only; rw [if_pos (hhome h hh)]; rfl

theorem exec_spawnRecordArrival_away {s : State} {chip core tk id : Nat} {c : Spawn} {h : HomeLoc} (hev : s.ev = .spawn chip core tk id c)
    (hh : homeIn (s.ctx c.ctx).ptab c.addr = some h) (haway : ¬ (h.chip = s.chip ∧ h.core = core)) :
    exec .spawnRecordArrival s = .next (s.forward core h.chip h.core c.ctx .spawnRecordArrival (.spawn h.chip h.core tk id c)) := by
  show execSpawnRecordArrival s = _
  unfold execSpawnRecordArrival
  rw [hev]
  dsimp only
  rw [hh]
  dsimp only
  rw [if_neg haway]

theorem Mails.taken {s t : State} (h : Mails s t) {core ctx n : Nat} (ht : Taken s core ctx n) : Taken t core ctx n := by
  rw [h.frame]; exact ht
theorem Mails.parks {s t : State} (h : Mails s t) {core : Nat} {r : ORec} (hp : Parks s core r) : Parks t core r := by
  rw [h.frame]; exact hp
theorem Mails.createdThread {s t : State} (h : Mails s t) {c : Spawn} {tk : Nat} {x : Thr} (hc : createdThread t c tk x) : createdThread s c tk x := by
  rw [h.frame] at hc; exact hc
theorem Mails.core {s t : State} (h : Mails s t) (c : Nat) : t.core c = s.core c := by rw [h.frame]; rfl
theorem Mails.ovfOf {s t : State} (h : Mails s t) (core ctx : Nat) : t.ovfOf core ctx = s.ovfOf core ctx := by rw [h.frame]; rfl

theorem spawnArrival_parks (s : State) (chip core tk id : Nat) (c : Spawn) (hev : s.ev = .spawn chip core tk id c) (hhome : HomedHere s c.ctx c.addr core)
    (hparks : Parks s core (.spawn c)) :
    Gives .spawnRecordArrival s fun t => t.mem = s.mem ∧ t.thr = s.thr ∧ t.ovfOf core c.ctx = s.ovfOf core c.ctx ++ [(.spawn c, false)] := by
  have hreported := mails_reported s core c
  obtain ⟨hmem, hthr, hovf⟩ := parks_spec (hreported.parks hparks)
  exact ⟨_, exec_spawnRecordArrival_here hev hhome, hmem.trans hreported.mem, hthr.trans hreported.thr, hovf.trans (by rw [hreported.ovfOf]; rfl)⟩

theorem spawnArrival_taken (s : State) (chip core tk id : Nat) (c : Spawn) (n : Nat) (hev : s.ev = .spawn chip core tk id c) (hhome : HomedHere s c.ctx c.addr core)
    (htaken : Taken s core c.ctx n) :
    Gives .spawnRecordArrival s fun t => t.mem = s.mem ∧ createdThread s c (tkOf core (s.core core).active n) (t.T (tkOf core (s.core core).active n))
      ∧ (∀ j, j ≠ tkOf core (s.core core).active n → t.T j = s.T j)
      ∧ (c.ln = false → Sent t ⟨.tempoParticipantNotice, .tnote c.ctx c.kern true c.chip c.core ⟨c.kern, 1, c.number.toNat⟩ (some c.tid) none⟩
          (s.kernChip c.ctx c.kern) 504) := by
  have hreported := mails_reported s core c
  have hplace : (reported s core c).place core (.spawn c) = (reported s core c).admitSpawn core n c := place_taken (r := .spawn c) (hreported.taken htaken)
  obtain ⟨hframe, hothers, hcreated⟩ := admitSpawn_spec (reported s core c) core n c
  have hadmit := admitSpawn_eq (reported s core c) core n c
  rw [hreported.core] at hothers hcreated hadmit
  refine ⟨_, (exec_spawnRecordArrival_here hev hhome).trans (congrArg _ hplace), hframe.mem.trans hreported.mem, hreported.createdThread hcreated,
    fun j hj => (hothers j hj).trans (hreported.T j), fun hln => ?_⟩
  have hsent : Sent (reported s core c) ⟨.tempoParticipantNotice, .tnote c.ctx c.kern true c.chip c.core ⟨c.kern, 1, c.number.toNat⟩ (some c.tid) none⟩
      (s.kernChip c.ctx c.kern) 504 := by
    rw [reported, hln, if_neg Bool.false_ne_true]
    exact sent_send ..
  rw [hadmit]
  exact hsent

theorem spawnArrival_forwarded (s : State) (chip core tk id : Nat) (c : Spawn) (h : HomeLoc) (hev : s.ev = .spawn chip core tk id c)
    (hh : homeIn (s.ctx c.ctx).ptab c.addr = some h) (haway : ¬ (h.chip = s.chip ∧ h.core = core)) :
    Gives .spawnRecordArrival s fun t => t.mem = s.mem ∧ t.thr = s.thr
      ∧ Sent t ⟨.homeChangeForward, .fwd s.chip core .spawnRecordArrival (.spawn h.chip h.core tk id c)⟩ h.chip h.core :=
  ⟨_, exec_spawnRecordArrival_away hev hh haway, forward_spec ..⟩

/-! ### A record leaves its core (R83) -/

/-- The outstanding accesses of a thread without one of them. -/
def pendWithout (t : Thr) (id : Nat) : List Acc := (t.pend.filter (·.id != id)).map fun a => { a with held := a.held.filter (· != id) }

theorem id_of_mem_pendWithout {t : Thr} {id : Nat} {a : Acc} (ha : a ∈ pendWithout t id) : a.id ≠ id := by
  obtain ⟨b, hb, rfl⟩ := List.mem_map.mp ha
  simpa using (List.mem_filter.mp hb).2

/-- A complete access is gone from its thread; the rest is messages and replicas (R197). -/
theorem complete_mails (s : State) (tk id : Nat) :
    ∃ u, Mails s u ∧ Mails (u.setT tk { s.T tk with pend := pendWithout (s.T tk) id }) (s.complete tk id) := by
  have hdrop : Mails s (if (s.T tk).pend.any fun a => a.id == id && a.acq && decide (4 ≤ a.scope) then s.dropAway (dieOf (coreOfTk tk)) else s) :=
    .ite (mails_dropAway ..) (.refl s)
  unfold State.complete
  generalize (if (s.T tk).pend.any fun a => a.id == id && a.acq && decide (4 ≤ a.scope) then s.dropAway (dieOf (coreOfTk tk)) else s) = u at hdrop ⊢
  refine ⟨u, hdrop, ?_⟩
  rw [← hdrop.T]
  exact Mails.foldl (fun _ _ => mails_leave ..) _ _

theorem complete_T (s : State) (tk id : Nat) : (s.complete tk id).T tk = { s.T tk with pend := pendWithout (s.T tk) id } := by
  obtain ⟨u, -, hcomplete⟩ := complete_mails s tk id
  rw [hcomplete.T, T_setT_same]

theorem complete_mem (s : State) (tk id : Nat) : (s.complete tk id).mem = s.mem := by
  obtain ⟨u, hu, hcomplete⟩ := complete_mails s tk id
  exact hcomplete.mem.trans hu.mem

theorem complete_keeps (s : State) (tk id : Nat) : KeepsMessages s (s.complete tk id) := by
  obtain ⟨u, hu, hcomplete⟩ := complete_mails s tk id
  exact hu.keeps.trans hcomplete.keeps

/-- A thread of no crew that waits for nothing has nothing to test again. -/
theorem recheck_idle {s : State} {tk : Nat} (hkind : (s.T tk).kind ≠ 2) (hwait : (s.T tk).waiting = false) : s.recheck tk = s := by
  unfold State.recheck
  rw [if_neg hkind]
  dsimp only
  rw [hwait]
  rfl

theorem spawnMessageSend (s : State) (chip core tk id : Nat) (c : Spawn) (hev : s.ev = .spawn chip core tk id c) (hwait : (s.T tk).waiting = false)
    (hkind : (s.T tk).kind ≠ 2) :
    Gives .spawnMessageSend s fun t => t.mem = s.mem ∧ Sent t ⟨.spawnRecordArrival, .spawn chip core tk id c⟩ chip core
      ∧ (∀ a ∈ (t.T tk).pend, a.id ≠ id) ∧ (t.T tk).g = (s.T tk).g := by
  have hexec : exec .spawnMessageSend s =
      .next (((s.send (coreOfTk tk) chip core .spawnRecordArrival (.spawn chip core tk id c)).complete tk id).recheck tk) := by
    show execSpawnMessageSend s = _
    unfold execSpawnMessageSend
    rw [hev]
  have hsend := mails_send s (coreOfTk tk) chip core .spawnRecordArrival (.spawn chip core tk id c)
  have hsent := sent_send s (coreOfTk tk) chip core .spawnRecordArrival (.spawn chip core tk id c)
  generalize s.send (coreOfTk tk) chip core .spawnRecordArrival (.spawn chip core tk id c) = u at hexec hsend hsent
  have hT : (u.complete tk id).T tk = { s.T tk with pend := pendWithout (s.T tk) id } := by rw [complete_T, hsend.T]
  rw [recheck_idle (by rw [hT]; exact hkind) (by rw [hT]; exact hwait)] at hexec
  refine ⟨_, hexec, (complete_mem ..).trans hsend.mem, sent_mono hsent (complete_keeps ..), ?_, ?_⟩
  · rw [hT]
    exact fun a ha => id_of_mem_pendWithout ha
  · rw [hT]

/-! ### A parked record takes a free slot (R75) -/

theorem ThrMsgs.foldl {α : Type} {g : State → α → State} (hg : ∀ u x, ThrMsgs u (g u x)) (l : List α) (s : State) : ThrMsgs s (l.foldl g s) :=
  List.foldlRecOn (motive := ThrMsgs s) l g (.refl s) fun u hu x _ => hu.trans (hg u x)

theorem thrMsgs_wakeReaders (s : State) (tk : Nat) : ThrMsgs s (s.wakeReaders tk) := by
  unfold State.wakeReaders
  split
  · refine ThrMsgs.foldl (fun u l => ?_) _ s
    dsimp only
    split
    · exact (ownThread_wake u _).frame
    · exact .refl u
  · exact .refl s

/-- A released thread of a tempo is written and READY; messages apart, nothing else changes (R353). -/
theorem thrMsgs_tempoGo (s : State) (tk : Nat) (v : Word) : ThrMsgs s (s.tempoGo tk v) := by
  unfold State.tempoGo
  dsimp only
  refine ThrMsgs.trans ?_ (thrMsgs_wakeReaders ..)
  refine ThrMsgs.trans ?_ (ownThread_wake ..).frame
  refine ThrMsgs.trans ?_ (mails_dropAway ..).thrMsgs
  have hunlocked := (ThrMsgs.refl s).setT tk { s.T tk with tmp := none, locks := (s.T tk).locks.filter fun k => !bit k.regs 33 }
  split
  · split
    · exact hunlocked.setT ..
    · exact hunlocked
  · exact hunlocked

theorem thrMsgs_takeIn (s : State) (core slot : Nat) (r : ORec) : ThrMsgs s (s.takeIn core slot r) := by
  cases r with
  | knight k => exact (admitKnight_spec s core slot k).1
  | spawn c => exact (admitSpawn_spec s core slot c).1
  | tempo x done =>
    have hset := (ThrMsgs.refl s).setT (tkOf core (s.core core).active slot) x
    cases done with
    | none => exact hset
    | some v => exact hset.trans (thrMsgs_tempoGo ..)

theorem exec_overflowRecordReload {s : State} {core ctx n : Nat} {r : ORec} {b : Bool} {rest : List (ORec × Bool)} (hev : s.ev = .core core)
    (hbank : (s.core core).bank.getD (s.core core).active none = some ctx) (hslot : s.freeSlot core = some n) (hovf : s.ovfOf core ctx = (r, b) :: rest)
    (hactive : s.ctxActive core ctx = true) :
    exec .overflowRecordReload s = .next (((s.setOvf core ctx rest).takeIn core n r).slotFreed core) := by
  show execOverflowRecordReload s = _
  unfold execOverflowRecordReload
  rw [hev]
  dsimp only
  rw [hbank, hslot]
  dsimp only
  rw [hovf]
  dsimp only
  rw [if_pos hactive]

theorem reload (s : State) (core ctx n : Nat) (r : ORec) (b : Bool) (rest : List (ORec × Bool)) (hev : s.ev = .core core)
    (hbank : (s.core core).bank.getD (s.core core).active none = some ctx) (hslot : s.freeSlot core = some n) (hovf : s.ovfOf core ctx = (r, b) :: rest)
    (hactive : s.ctxActive core ctx = true) :
    Gives .overflowRecordReload s fun t => t.mem = s.mem ∧ t.ovf = (s.setOvf core ctx rest).ovf
      ∧ (∀ c, r = .spawn c → createdThread s c (tkOf core (s.core core).active n) (t.T (tkOf core (s.core core).active n)))
      ∧ ∀ k, r = .knight k → carriedThread s k (t.T (tkOf core (s.core core).active n)) := by
  have hfreed := mails_slotFreed ((s.setOvf core ctx rest).takeIn core n r) core
  have htaken := thrMsgs_takeIn (s.setOvf core ctx rest) core n r
  refine ⟨_, exec_overflowRecordReload hev hbank hslot hovf hactive, hfreed.mem.trans htaken.mem, hfreed.ovf.trans htaken.ovf, ?_, ?_⟩
  · rintro c rfl
    obtain ⟨-, -, hcreated⟩ := admitSpawn_spec (s.setOvf core ctx rest) core n c
    rw [hfreed.T]
    exact hcreated
  · rintro k rfl
    obtain ⟨-, -, hcarried, -, -⟩ := admitKnight_spec (s.setOvf core ctx rest) core n k
    rw [hfreed.T]
    exact hcarried

/-! ### SPAWN (R83, R214) -/

theorem mem_set_self {α : Type} (t : Tab α) (n : Nat) (x : α) : (n, x) ∈ t.set n x := by
  induction t with
  | nil => exact List.mem_singleton_self _
  | cons e t ih =>
    obtain ⟨k, v⟩ := e
    unfold Tab.set
    split
    · exact List.mem_cons_self
    · split
      · exact List.mem_cons_self
      · exact List.mem_cons_of_mem _ ih

theorem mem_set_of_ne {α : Type} {t : Tab α} {n : Nat} (x : α) {e : Nat × α} (he : e ∈ t) (hne : e.1 ≠ n) : e ∈ t.set n x := by
  induction t with
  | nil => exact absurd he List.not_mem_nil
  | cons p t ih =>
    obtain ⟨k, v⟩ := p
    unfold Tab.set
    split
    case isTrue hk =>
      rcases List.mem_cons.mp he with rfl | he
      · exact absurd hk.symm hne
      · exact List.mem_cons_of_mem _ he
    case isFalse =>
      split
      · exact List.mem_cons_of_mem _ he
      · rcases List.mem_cons.mp he with rfl | he
        · exact List.mem_cons_self
        · exact List.mem_cons_of_mem _ (ih he)

theorem mem_del_of_ne {α : Type} {t : Tab α} {n : Nat} {e : Nat × α} (he : e ∈ t) (hne : e.1 ≠ n) : e ∈ t.del n := by
  induction t with
  | nil => exact absurd he List.not_mem_nil
  | cons p t ih =>
    obtain ⟨k, v⟩ := p
    unfold Tab.del
    split
    case isTrue hk =>
      rcases List.mem_cons.mp he with rfl | he
      · exact absurd hk.symm hne
      · exact he
    case isFalse =>
      split
      · exact he
      · rcases List.mem_cons.mp he with rfl | he
        · exact List.mem_cons_self
        · exact List.mem_cons_of_mem _ (ih he)

/-- What the SPAWNs of a word can change. -/
def OnlySpawns (s t : State) : Prop :=
  t = { s with thr := t.thr, pawns := t.pawns, spawned := t.spawned, nodes := t.nodes, outs := t.outs, agenda := t.agenda, ids := t.ids,
               iss := { s.iss with draws := t.iss.draws } }

theorem OnlySpawns.refl (s : State) : OnlySpawns s s := rfl
theorem OnlySpawns.trans {s t u : State} (h : OnlySpawns s t) (h' : OnlySpawns t u) : OnlySpawns s u := by
  unfold OnlySpawns at *; rw [h', h]
theorem OnlySpawns.iss {s t : State} (h : OnlySpawns s t) : t.iss = { s.iss with draws := t.iss.draws } := congrArg State.iss h
theorem OnlySpawns.mem {s t : State} (h : OnlySpawns s t) : t.mem = s.mem := by rw [h]
theorem OnlySpawns.crews {s t : State} (h : OnlySpawns s t) : t.crews = s.crews := by rw [h]
theorem OnlySpawns.core {s t : State} (h : OnlySpawns s t) : t.iss.core = s.iss.core := congrArg (·.iss.core) h
theorem OnlySpawns.homeAt {s t : State} (h : OnlySpawns s t) (core ctx va : Nat) : t.homeAt core ctx va = s.homeAt core ctx va := by rw [h]; rfl
theorem OnlySpawns.codeBase {s t : State} (h : OnlySpawns s t) (x : Thr) : t.codeBase x = s.codeBase x := by rw [h]; rfl
theorem OnlySpawns.inCode {s t : State} (h : OnlySpawns s t) (x : Thr) (a : Nat) : t.inCode x a = s.inCode x a := by rw [h]; rfl

/-- A thread that no SPAWN of the word has touched is read as before. -/
theorem OnlySpawns.rT {s t : State} (h : OnlySpawns s t) {tk : Nat} (hT : t.T tk = s.T tk) : t.rT tk = s.rT tk := by
  unfold State.rT
  rw [h.iss, hT]

/-- A state with other nodes. -/
def withNodes (s : State) (ns : List Node) : State := { s with nodes := ns }

theorem unitAdd_eq (s : State) (ctx kern : Nat) : ∃ ns, s.unitAdd ctx kern = withNodes s ns := by
  unfold State.unitAdd
  split
  · exact ⟨_, rfl⟩
  · exact ⟨s.nodes, rfl⟩

/-- A message of an access that has begun: under a number that is given, it waits for its lanes, or has arrived. -/
def Underway (t : State) (e : Ev) (chip core : Nat) : Prop := e ∈ t.agenda ∨ ∃ o ∈ t.outs, o.1 < t.ids ∧ o.2.ev = e ∧ o.2.chip = chip ∧ o.2.core = core

theorem Underway.carried {t : State} {e : Ev} {chip core : Nat} (h : Underway t e chip core) : Carried t e chip core :=
  h.elim .inl fun ⟨o, ho, _, hto⟩ => .inr (.inr ⟨o, ho, hto⟩)

/-- The access of a SPAWN, its message under the number `out`. -/
def spawnAcc (id out : Nat) (pc : BitVec 56) (a : Word) : Acc :=
  { id := id, kind := .spawn, line := none, pkind := 3, acq := false, rel := false, scope := 0, held := [], out := out
    pc := pc, d := 0, ea := a.toNat, heldAt := none, recd := false }

/-- The count of pawns of a core, context and kernel. -/
def pawnKey (s : State) (x : Thr) : Nat := (s.iss.core * 64 + x.ctx) * 4096 + x.ktab.toNat

/-- The creation record of a lane's SPAWN. -/
def spawnRecord (s : State) (x : Thr) (a b target : Word) : Spawn :=
  { ctx := x.ctx, kern := x.ktab.toNat, ln := false, g0 := a, g1 := b, pcw := (target.toNat - s.codeBase x) / 4, srng := splitSeed x.srng a
    number := BitVec.ofNat 32 (s.iss.core * 2 ^ 23 + (s.pawns.get? (pawnKey s x)).getD 0), addr := a.toNat, chip := s.chip, core := s.iss.core, tid := x.tid }

/-- The message of a lane's SPAWN. -/
def spawnEv (s : State) (l : LaneRef) (h : HomeLoc) (a b target : Word) : Ev :=
  ⟨.spawnMessageSend, .spawn h.chip h.core l.tk s.ids (spawnRecord s (s.drawT l.tk) a b target)⟩

/-- The state in which a thread's pawn is counted. -/
def pawnCounted (s : State) (x : Thr) : State :=
  { s.fresh with
    pawns := s.pawns.set (pawnKey s x) (((s.pawns.get? (pawnKey s x)).getD 0 + 1) % 2 ^ 23)
    spawned := s.spawned ++ [(x.ctx, x.tid)] }

/-- The state in which a lane's generator has drawn for its SPAWN. -/
def spawnDrew (s : State) (l : LaneRef) (next : Word) : State := (s.modT l.tk fun t => { t with srng := next }).drew l.tk (some next)

/-- The state in which a lane's creation record waits. -/
def recordWaits (s : State) (l : LaneRef) (e : Ev) : State := s.newOut { wait := [l.tk], chip := s.chip, core := s.iss.core, src := s.iss.core, ev := e }

/-- The state of a SPAWN before its access begins, `ns` the nodes with the unit added: the pawn is counted, the generator has drawn, the record waits. -/
def spawnBegun (s : State) (l : LaneRef) (h : HomeLoc) (a b target : Word) (ns : List Node) : State :=
  let x := s.drawT l.tk
  { s with
    ids := s.ids + 2, nodes := ns, pawns := s.pawns.set (pawnKey s x) (((s.pawns.get? (pawnKey s x)).getD 0 + 1) % 2 ^ 23)
    spawned := s.spawned ++ [(x.ctx, x.tid)], thr := s.thr.set l.tk { s.T l.tk with srng := (nextDraw x.srng).1 }
    iss := { s.iss with draws := (l.tk, (nextDraw x.srng).1) :: s.iss.draws }
    outs := s.outs.set (s.ids + 1) { wait := [l.tk], chip := s.chip, core := s.iss.core, src := s.iss.core, ev := spawnEv s l h a b target } }

theorem spawnBegun_eq (s : State) (l : LaneRef) (h : HomeLoc) (a b target : Word) (ns : List Node) : spawnBegun s l h a b target ns =
    recordWaits (spawnDrew (withNodes (pawnCounted s (s.drawT l.tk)) ns) l (nextDraw (s.drawT l.tk).srng).1) l (spawnEv s l h a b target) := by
  unfold spawnBegun recordWaits State.newOut spawnDrew State.drew State.modT State.setT withNodes pawnCounted State.fresh
  rfl

theorem spawnLane_steps (s : State) (l : LaneRef) (h : HomeLoc) (a b target : Word) :
    let u := spawnDrew ((pawnCounted s (s.drawT l.tk)).unitAdd (s.drawT l.tk).ctx (s.drawT l.tk).ktab.toNat) l (nextDraw (s.drawT l.tk).srng).1
    s.spawnLane l h a b target = State.startAcc (u.newOut { wait := [l.tk], chip := u.chip, core := s.iss.core, src := s.iss.core, ev := spawnEv s l h a b target })
      l.tk (spawnAcc s.ids u.ids u.iss.pc a) := rfl

theorem spawnLane_eq (s : State) (l : LaneRef) (h : HomeLoc) (a b target : Word) :
    ∃ ns, s.spawnLane l h a b target = (spawnBegun s l h a b target ns).startAcc l.tk (spawnAcc s.ids (s.ids + 1) s.iss.pc a) := by
  obtain ⟨ns, hns⟩ := unitAdd_eq (pawnCounted s (s.drawT l.tk)) (s.drawT l.tk).ctx (s.drawT l.tk).ktab.toNat
  refine ⟨ns, ?_⟩
  rw [spawnLane_steps, hns, spawnBegun_eq]
  rfl

/-- An access whose message goes to the core's own agent begins: its thread, the messages that wait and those that have arrived change, nothing else. -/
theorem startAcc_here_frame {s : State} {tk core : Nat} {e : Ev} {a : Acc}
    (hget : s.outs.get? a.out = some { wait := [tk], chip := s.chip, core := core, src := core, ev := e }) :
    s.startAcc tk a = { s with thr := (s.startAcc tk a).thr, outs := (s.startAcc tk a).outs, agenda := (s.startAcc tk a).agenda } := by
  rw [startAcc_here hget]
  split <;> rfl

/-- The message of an access that begins is under way. -/
theorem startAcc_here_underway {s : State} {tk core : Nat} {e : Ev} {a : Acc} {m : Out} (hm : m = { wait := [tk], chip := s.chip, core := core, src := core, ev := e })
    (hget : s.outs.get? a.out = some m) (hmem : (a.out, m) ∈ s.outs) (hid : a.out < s.ids) : Underway (s.startAcc tk a) e s.chip core := by
  subst hm
  rw [startAcc_here hget]
  split
  · exact .inl (List.mem_append_right _ (List.mem_singleton_self _))
  · exact .inr ⟨_, hmem, hid, rfl, rfl, rfl⟩

/-- A message under way stays so when an access under another number begins. -/
theorem startAcc_here_keeps {s : State} {tk core : Nat} {e : Ev} {a : Acc}
    (hget : s.outs.get? a.out = some { wait := [tk], chip := s.chip, core := core, src := core, ev := e }) {e' : Ev} {chip' core' : Nat}
    (h : e' ∈ s.agenda ∨ ∃ o ∈ s.outs, o.1 < a.out ∧ o.2.ev = e' ∧ o.2.chip = chip' ∧ o.2.core = core') (hid : a.out < s.ids) :
    Underway (s.startAcc tk a) e' chip' core' := by
  rw [startAcc_here hget]
  rcases h with he | ⟨o, ho, hlt, hto⟩
  · split
    · exact .inl (List.mem_append_left _ he)
    · exact .inl he
  · split
    · exact .inr ⟨o, mem_del_of_ne ho hlt.ne, hlt.trans hid, hto⟩
    · exact .inr ⟨o, ho, hlt.trans hid, hto⟩

theorem onlySpawns_startAcc_here {s : State} {tk core : Nat} {e : Ev} {a : Acc}
    (hget : s.outs.get? a.out = some { wait := [tk], chip := s.chip, core := core, src := core, ev := e }) : OnlySpawns s (s.startAcc tk a) := by
  unfold OnlySpawns
  rw [startAcc_here_frame hget]

theorem spawnBegun_T (s : State) (l : LaneRef) (h : HomeLoc) (a b target : Word) (ns : List Node) (j : Nat) : (spawnBegun s l h a b target ns).T j =
    if j = l.tk then { s.T l.tk with srng := (nextDraw (s.drawT l.tk).srng).1 } else s.T j := T_setT ..

theorem heldBehind_spawn {s : State} {tk id out : Nat} {pc : BitVec 56} {a : Word} {c : Acc} (hc : c ∈ (s.T tk).pend) (hkind : c.kind = .store ∨ c.kind = .atom) :
    c.id ∈ heldBehind s tk (spawnAcc id out pc a) := by
  refine List.mem_map_of_mem (List.mem_filter.mpr ⟨hc, ?_⟩)
  rcases hkind with h | h <;> simp [Acc.holds, spawnAcc, h]

/-- One lane's SPAWN. -/
structure LaneSpawned (s t : State) (l : LaneRef) (h : HomeLoc) (a b target : Word) : Prop where
  frame : OnlySpawns s t
  spawned : t.spawned = s.spawned ++ [((s.drawT l.tk).ctx, (s.drawT l.tk).tid)]
  pawns : t.pawns = s.pawns.set (pawnKey s (s.drawT l.tk)) (((s.pawns.get? (pawnKey s (s.drawT l.tk))).getD 0 + 1) % 2 ^ 23)
  draws : t.iss.draws = (l.tk, (nextDraw (s.drawT l.tk).srng).1) :: s.iss.draws
  others : ∀ j, j ≠ l.tk → t.T j = s.T j
  own : t.T l.tk = { s.T l.tk with srng := (nextDraw (s.drawT l.tk).srng).1, pend := (t.T l.tk).pend }
  record : Underway t (spawnEv s l h a b target) s.chip s.iss.core
  held : ∃ c ∈ (t.T l.tk).pend, c.id = s.ids ∧ c.kind = .spawn ∧ ∀ c' ∈ (s.T l.tk).pend, c'.kind = .store ∨ c'.kind = .atom → c'.id ∈ c.held
  underway : ∀ e chip core, Underway s e chip core → Underway t e chip core

theorem laneSpawned (s : State) (l : LaneRef) (h : HomeLoc) (a b target : Word) : LaneSpawned s (s.spawnLane l h a b target) l h a b target := by
  obtain ⟨ns, heq⟩ := spawnLane_eq s l h a b target
  rw [heq]
  generalize hbegun : spawnBegun s l h a b target ns = u
  generalize hacc : spawnAcc s.ids (s.ids + 1) s.iss.pc a = acc
  have hspawns : OnlySpawns s u := by rw [← hbegun]; rfl
  have hT := spawnBegun_T s l h a b target ns
  have hids : u.ids = s.ids + 2 := by rw [← hbegun]; rfl
  have hchip : u.chip = s.chip := by rw [← hbegun]; rfl
  have hagenda : u.agenda = s.agenda := by rw [← hbegun]; rfl
  have houts : u.outs = s.outs.set (s.ids + 1) { wait := [l.tk], chip := s.chip, core := s.iss.core, src := s.iss.core, ev := spawnEv s l h a b target } := by
    rw [← hbegun]; rfl
  rw [hbegun] at hT
  have hout : acc.out = s.ids + 1 := by rw [← hacc]; rfl
  have hget : u.outs.get? acc.out = some { wait := [l.tk], chip := u.chip, core := s.iss.core, src := s.iss.core, ev := spawnEv s l h a b target } := by
    rw [houts, hout, hchip, get_set_same]
  have hlt : acc.out < u.ids := by rw [hout, hids]; exact Nat.lt_succ_self _
  have hframe := startAcc_here_frame hget
  have hown := startAcc_T u l.tk acc l.tk
  rw [if_pos rfl, hT, if_pos rfl] at hown
  refine ⟨hspawns.trans (onlySpawns_startAcc_here hget), ?_, ?_, ?_, fun j hj => ?_, ?_, ?_, ?_, fun e chip core hu => ?_⟩
  · rw [hframe, ← hbegun]; rfl
  · rw [hframe, ← hbegun]; rfl
  · rw [hframe, ← hbegun]; rfl
  · rw [startAcc_T, if_neg hj, hT, if_neg hj]
  · rw [hown]
  · rw [← hchip]
    refine startAcc_here_underway rfl hget ?_ hlt
    rw [houts, hout, hchip]
    exact mem_set_self ..
  · rw [hown]
    refine ⟨_, List.mem_append_right _ (List.mem_singleton_self _), by rw [← hacc]; rfl, by rw [← hacc]; rfl, fun c' hc' hkind => ?_⟩
    rw [← hacc]
    refine heldBehind_spawn ?_ hkind
    rw [hT, if_pos rfl]
    exact hc'
  · refine startAcc_here_keeps hget ?_ hlt
    rw [hagenda, houts, hout]
    rcases hu with he | ⟨o, ho, hid, hto⟩
    · exact .inl he
    · exact .inr ⟨o, mem_set_of_ne _ ho (Nat.ne_of_lt (Nat.lt_succ_of_lt hid)), Nat.lt_succ_of_lt hid, hto⟩

/-! ### The lanes of one SPAWN -/

/-- A lane whose SPAWN raises no cause (R214). -/
def Spawns (f : SpawnF) (s : State) (kern : BitVec 12) (h : LaneRef → HomeLoc) (l : LaneRef) : Prop :=
  (s.rT l.tk).ctx = s.iss.ctx ∧ (s.rT l.tk).ktab = kern ∧ ((s.rT l.tk).gr f.d.toNat).toNat % 4 = 0 ∧ s.inCode (s.rT l.tk) ((s.rT l.tk).gr f.d.toNat).toNat = true
  ∧ ((s.rT l.tk).gr f.d.toNat).toNat < 2 ^ 56 ∧ bits ((s.rT l.tk).gr f.a.toNat) 63 56 = 0
  ∧ s.homeAt s.iss.core s.iss.ctx ((s.rT l.tk).gr f.a.toNat).toNat = some (h l)

/-- SPAWN in one lane. -/
def spawnStep (f : SpawnF) (s : State) (l : LaneRef) : State :=
  let t := s.rT l.tk
  let p := t.gr f.d.toNat
  let a := t.gr f.a.toNat
  if p.toNat % 4 ≠ 0 then s.fail l .misaligned p 0
  else if !s.inCode t p.toNat || decide (2 ^ 56 ≤ p.toNat) then s.fail l .permission p 5
  else if bits a 63 56 ≠ 0 then s.fail l .permission a 0
  else match s.homeAt s.iss.core s.iss.ctx a.toNat with
    | none => s.fail l .permission a 0
    | some h => s.spawnLane l h a (t.gr f.b.toNat) p

theorem exec_spawn {f : SpawnF} {s : State} (hiss : Issues (.spawn f) s) : exec (.spawn f) s = .next (s.iss.lanes.foldl (spawnStep f) s).endWord :=
  word_ok (fun s => s.eachLane (spawnStep f)) hiss.1

theorem spawnStep_eq {f : SpawnF} {s : State} {kern : BitVec 12} {h : LaneRef → HomeLoc} {l : LaneRef} (hl : Spawns f s kern h l) :
    spawnStep f s l = s.spawnLane l (h l) ((s.rT l.tk).gr f.a.toNat) ((s.rT l.tk).gr f.b.toNat) ((s.rT l.tk).gr f.d.toNat) := by
  obtain ⟨-, -, haligned, hcode, hlow, hbits, hhome⟩ := hl
  unfold spawnStep
  simp only [haligned, hcode, hbits, hhome, ne_eq, not_true_eq_false, if_false, Bool.not_true, Bool.false_or, decide_eq_true_eq, not_le.mpr hlow]

/-- The draws of a chain change a thread's generator alone. -/
theorem drawT_eq (s : State) (tk : Nat) : ∃ y, s.drawT tk = { s.rT tk with srng := y } := by
  unfold State.drawT
  split
  · exact ⟨_, rfl⟩
  · exact ⟨(s.rT tk).srng, rfl⟩

theorem drawT_ctx (s : State) (tk : Nat) : (s.drawT tk).ctx = (s.rT tk).ctx := by
  obtain ⟨y, h⟩ := drawT_eq s tk
  rw [h]
theorem drawT_ktab (s : State) (tk : Nat) : (s.drawT tk).ktab = (s.rT tk).ktab := by
  obtain ⟨y, h⟩ := drawT_eq s tk
  rw [h]
theorem drawT_tid (s : State) (tk : Nat) : (s.drawT tk).tid = (s.rT tk).tid := by
  obtain ⟨y, h⟩ := drawT_eq s tk
  rw [h]
  rfl
theorem codeBase_drawT (s u : State) (tk : Nat) : s.codeBase (u.drawT tk) = s.codeBase (u.rT tk) := by
  obtain ⟨y, h⟩ := drawT_eq u tk
  rw [h]
  rfl

/-- The pawns counted after `k` SPAWNs of a core for a context and kernel. -/
def pawnsAfter (s : State) (pk k : Nat) : Nat := Nat.repeat (fun n => (n + 1) % 2 ^ 23) k ((s.pawns.get? pk).getD 0)

/-- What the SPAWN of the lane `l`, the `k`th of its word, leaves of the lane (R83, R214). -/
def LaneLeft (f : SpawnF) (s t : State) (kern : BitVec 12) (h : LaneRef → HomeLoc) (k : Nat) (l : LaneRef) : Prop :=
  t.T l.tk = { s.T l.tk with srng := (nextDraw (s.drawT l.tk).srng).1, pend := (t.T l.tk).pend }
  ∧ ∃ (c : Spawn) (id : Nat), Underway t ⟨.spawnMessageSend, .spawn (h l).chip (h l).core l.tk id c⟩ s.chip s.iss.core ∧ c.g0 = (s.rT l.tk).gr f.a.toNat
    ∧ c.g1 = (s.rT l.tk).gr f.b.toNat ∧ c.ln = false ∧ c.ctx = s.iss.ctx ∧ c.kern = kern.toNat
    ∧ c.srng = splitSeed (s.drawT l.tk).srng ((s.rT l.tk).gr f.a.toNat) ∧ c.addr = ((s.rT l.tk).gr f.a.toNat).toNat
    ∧ c.pcw = (((s.rT l.tk).gr f.d.toNat).toNat - s.codeBase (s.rT l.tk)) / 4
    ∧ c.number = BitVec.ofNat 32 (s.iss.core * 2 ^ 23 + pawnsAfter s ((s.iss.core * 64 + s.iss.ctx) * 4096 + kern.toNat) k)
    ∧ ∃ b ∈ (t.T l.tk).pend, b.id = id ∧ b.kind = .spawn ∧ ∀ b' ∈ (s.T l.tk).pend, b'.kind = .store ∨ b'.kind = .atom → b'.id ∈ b.held

theorem LaneLeft.mono {f : SpawnF} {s t u : State} {kern : BitVec 12} {h : LaneRef → HomeLoc} {k : Nat} {l : LaneRef} (hl : LaneLeft f s t kern h k l)
    (hT : u.T l.tk = t.T l.tk) (hunder : ∀ e chip core, Underway t e chip core → Underway u e chip core) : LaneLeft f s u kern h k l := by
  unfold LaneLeft at *
  rw [hT]
  obtain ⟨hthr, c, id, hrecord, hrest⟩ := hl
  exact ⟨hthr, c, id, hunder _ _ _ hrecord, hrest⟩

/-- What the SPAWNs of a word's first lanes leave. -/
structure LanesSpawned (f : SpawnF) (s t : State) (kern : BitVec 12) (h : LaneRef → HomeLoc) (ls : List LaneRef) : Prop where
  frame : OnlySpawns s t
  spawned : t.spawned = s.spawned ++ ls.map fun l => (s.iss.ctx, (s.rT l.tk).tid)
  count : (t.pawns.get? ((s.iss.core * 64 + s.iss.ctx) * 4096 + kern.toNat)).getD 0 = pawnsAfter s ((s.iss.core * 64 + s.iss.ctx) * 4096 + kern.toNat) ls.length
  counted : ls ≠ [] → (t.pawns.get? ((s.iss.core * 64 + s.iss.ctx) * 4096 + kern.toNat)).isSome
  otherCounts : ∀ j, j ≠ (s.iss.core * 64 + s.iss.ctx) * 4096 + kern.toNat → t.pawns.get? j = s.pawns.get? j
  others : ∀ tk, tk ∉ ls.map (·.tk) → t.T tk = s.T tk
  otherDraws : ∀ tk, tk ∉ ls.map (·.tk) → t.drawT tk = s.drawT tk
  lanes : ∀ k l, ls[k]? = some l → LaneLeft f s t kern h k l

theorem lanesSpawned_nil (f : SpawnF) (s : State) (kern : BitVec 12) (h : LaneRef → HomeLoc) : LanesSpawned f s s kern h [] :=
  ⟨.refl s, (List.append_nil _).symm, rfl, fun hne => absurd rfl hne, fun _ _ => rfl, fun _ _ => rfl, fun _ _ => rfl, fun _ _ hk => nomatch hk⟩

/-- A lane that has not issued its SPAWN reads its registers as at the start of the word. -/
theorem LanesSpawned.rT {f : SpawnF} {s t : State} {kern : BitVec 12} {h : LaneRef → HomeLoc} {ls : List LaneRef} (hs : LanesSpawned f s t kern h ls)
    {tk : Nat} (htk : tk ∉ ls.map (·.tk)) : t.rT tk = s.rT tk := hs.frame.rT (hs.others tk htk)

theorem LanesSpawned.spawns {f : SpawnF} {s t : State} {kern : BitVec 12} {h : LaneRef → HomeLoc} {ls : List LaneRef} (hs : LanesSpawned f s t kern h ls)
    {l : LaneRef} (htk : l.tk ∉ ls.map (·.tk)) (hl : Spawns f s kern h l) : Spawns f t kern h l := by
  unfold Spawns at *
  have hctx : t.iss.ctx = s.iss.ctx := by rw [hs.frame.iss]
  rw [hs.rT htk, hs.frame.inCode, hs.frame.homeAt, hs.frame.core, hctx]
  exact hl

theorem LanesSpawned.pawnKey {f : SpawnF} {s t : State} {kern : BitVec 12} {h : LaneRef → HomeLoc} {ls : List LaneRef} (hs : LanesSpawned f s t kern h ls)
    {l : LaneRef} (htk : l.tk ∉ ls.map (·.tk)) (hl : Spawns f s kern h l) :
    pawnKey t (t.drawT l.tk) = (s.iss.core * 64 + s.iss.ctx) * 4096 + kern.toNat := by
  obtain ⟨hctx, hkern, -⟩ := hl
  rw [Proofs.pawnKey, hs.frame.core, hs.otherDraws l.tk htk, drawT_ctx, drawT_ktab, hctx, hkern]

/-- The generators of the other lanes stay. -/
theorem LaneSpawned.drawT {s t : State} {l : LaneRef} {h : HomeLoc} {a b p : Word} (hs : LaneSpawned s t l h a b p) {tk : Nat} (htk : tk ≠ l.tk) :
    t.drawT tk = s.drawT tk := by
  have hne : (l.tk == tk) = false := beq_false_of_ne htk.symm
  unfold State.drawT
  rw [hs.frame.rT (hs.others tk htk), hs.draws, List.find?_cons_of_neg (by simp [hne])]

theorem LaneSpawned.left {f : SpawnF} {s u t : State} {kern : BitVec 12} {h : LaneRef → HomeLoc} {ls : List LaneRef} {l : LaneRef} (hu : LanesSpawned f s u kern h ls)
    (htk : l.tk ∉ ls.map (·.tk)) (hl : Spawns f s kern h l)
    (ht : LaneSpawned u t l (h l) ((s.rT l.tk).gr f.a.toNat) ((s.rT l.tk).gr f.b.toNat) ((s.rT l.tk).gr f.d.toNat)) : LaneLeft f s t kern h ls.length l := by
  have hkey := hu.pawnKey htk hl
  obtain ⟨hctx, hkern, -⟩ := hl
  have hdraw := hu.otherDraws l.tk htk
  have hcore := hu.frame.core
  have hchip : u.chip = s.chip := by rw [hu.frame]
  have hown := ht.own
  have hrecord := ht.record
  have hheld := ht.held
  rw [hu.others l.tk htk] at hown hheld
  rw [hdraw] at hown
  rw [hchip, hcore] at hrecord
  refine ⟨hown, spawnRecord u (u.drawT l.tk) _ _ _, u.ids, hrecord, rfl, rfl, rfl, ?_, ?_, ?_, rfl, ?_, ?_, hheld⟩
  · show (u.drawT l.tk).ctx = _
    rw [hdraw, drawT_ctx, hctx]
  · show (u.drawT l.tk).ktab.toNat = _
    rw [hdraw, drawT_ktab, hkern]
  · show splitSeed (u.drawT l.tk).srng _ = _
    rw [hdraw]
  · show (_ - u.codeBase (u.drawT l.tk)) / 4 = _
    rw [hu.frame.codeBase, hdraw, codeBase_drawT]
  · show BitVec.ofNat 32 (u.iss.core * 2 ^ 23 + (u.pawns.get? (pawnKey u (u.drawT l.tk))).getD 0) = _
    rw [hkey, hcore, hu.count]

theorem lanesSpawned_snoc {f : SpawnF} {s u : State} {kern : BitVec 12} {h : LaneRef → HomeLoc} {ls : List LaneRef} {l : LaneRef} (hu : LanesSpawned f s u kern h ls)
    (htk : l.tk ∉ ls.map (·.tk)) (hl : Spawns f s kern h l) : LanesSpawned f s (spawnStep f u l) kern h (ls ++ [l]) := by
  have hrT := hu.rT htk
  have hdraw := hu.otherDraws l.tk htk
  rw [spawnStep_eq (hu.spawns htk hl), hrT]
  have ht := laneSpawned u l (h l) ((s.rT l.tk).gr f.a.toNat) ((s.rT l.tk).gr f.b.toNat) ((s.rT l.tk).gr f.d.toNat)
  generalize u.spawnLane l (h l) ((s.rT l.tk).gr f.a.toNat) ((s.rT l.tk).gr f.b.toNat) ((s.rT l.tk).gr f.d.toNat) = t at ht
  have hleft := LaneSpawned.left hu htk hl ht
  have hkey := hu.pawnKey htk hl
  obtain ⟨hctx, -⟩ := hl
  have hpawns := ht.pawns
  rw [hkey, hu.count] at hpawns
  have hsplit (tk : Nat) (h' : tk ∉ (ls ++ [l]).map (·.tk)) : tk ∉ ls.map (·.tk) ∧ tk ≠ l.tk := by simpa [not_or] using h'
  refine ⟨hu.frame.trans ht.frame, ?_, ?_, fun _ => ?_, fun j hj => ?_, fun tk h' => ?_, fun tk h' => ?_, fun k l' hk => ?_⟩
  · rw [ht.spawned, hu.spawned, hdraw, drawT_ctx, drawT_tid, hctx, List.map_append, List.append_assoc]
    rfl
  · rw [hpawns, get_set_same, List.length_append]
    rfl
  · rw [hpawns, get_set_same]
    rfl
  · rw [hpawns, get_set_other _ _ hj, hu.otherCounts j hj]
  · rw [ht.others tk (hsplit tk h').2, hu.others tk (hsplit tk h').1]
  · rw [ht.drawT (hsplit tk h').2, hu.otherDraws tk (hsplit tk h').1]
  · rcases Nat.lt_or_ge k ls.length with hlt | hge
    · rw [List.getElem?_append_left hlt] at hk
      have hne : l'.tk ≠ l.tk := fun heq => htk (heq ▸ List.mem_map_of_mem (List.mem_of_getElem? hk))
      exact (hu.lanes k l' hk).mono (ht.others _ hne) ht.underway
    · rw [List.getElem?_append_right hge] at hk
      obtain ⟨hk0, rfl⟩ : k - ls.length = 0 ∧ l = l' := by
        simpa [List.getElem?_singleton] using hk
      rw [show k = ls.length by omega]
      exact hleft

theorem lanesSpawned {f : SpawnF} {s : State} {kern : BitVec 12} {h : LaneRef → HomeLoc} (ls : List LaneRef) (hnodup : (ls.map (·.tk)).Nodup)
    (hall : ∀ l ∈ ls, Spawns f s kern h l) : LanesSpawned f s (ls.foldl (spawnStep f) s) kern h ls := by
  induction ls using List.reverseRecOn with
  | nil => exact lanesSpawned_nil f s kern h
  | append_singleton ls l ih =>
    rw [List.map_append, List.nodup_append] at hnodup
    obtain ⟨hdone, -, hdisj⟩ := hnodup
    rw [List.foldl_append]
    refine lanesSpawned_snoc (ih hdone fun l' hl' => hall l' (List.mem_append_left _ hl')) ?_ (hall l (List.mem_append_right _ (List.mem_singleton_self l)))
    exact fun hmem => hdisj _ hmem _ (List.mem_singleton_self _) rfl

theorem spawn (f : SpawnF) (s : State) (kern : BitVec 12) (h : LaneRef → HomeLoc) (hiss : Issues (.spawn f) s) (hall : ∀ l ∈ s.iss.lanes, Spawns f s kern h l) :
    let pk := (s.iss.core * 64 + s.iss.ctx) * 4096 + kern.toNat
    Gives (.spawn f) s fun t => t.mem = s.mem ∧ t.crews = s.crews ∧ t.spawned = s.spawned ++ s.iss.lanes.map (fun l => (s.iss.ctx, (s.rT l.tk).tid))
      ∧ (s.iss.lanes ≠ [] → t.pawns.get? pk = some (pawnsAfter s pk s.iss.lanes.length)) ∧ (∀ j, j ≠ pk → t.pawns.get? j = s.pawns.get? j)
      ∧ (∀ tk, tk ∉ s.iss.lanes.map (·.tk) → t.T tk = s.T tk) ∧ ∀ k l, s.iss.lanes[k]? = some l → LaneLeft f s t kern h k l := by
  intro pk
  have hs := lanesSpawned s.iss.lanes hiss.2 hall
  refine ⟨_, exec_spawn hiss, hs.frame.mem, hs.frame.crews, hs.spawned, fun hne => ?_, hs.otherCounts, hs.others, hs.lanes⟩
  obtain ⟨n, hn⟩ := Option.isSome_iff_exists.mp (hs.counted hne)
  have hcount := hs.count
  rw [hn] at hcount
  exact hn.trans (congrArg some hcount)

theorem pawns : Claims.Pawns := by
  refine ⟨?_, spawnMessageSend, spawnArrival_parks, spawnArrival_forwarded, spawnArrival_taken, reload⟩
  intro f s kern h hiss a p hall pk num
  obtain ⟨t, hexec, hmem, hcrews, hspawned, hcounted, hcounts, hothers, hlanes⟩ := spawn f s kern h hiss hall
  refine ⟨t, hexec, hmem, hcrews, hspawned, hcounted, hcounts, hothers, fun k l hk => ?_⟩
  obtain ⟨hthr, c, id, hrecord, hrest⟩ := hlanes k l hk
  exact ⟨hthr, c, id, hrecord.carried, hrest⟩

/-- Settles O21: a departure's knight and a SPAWN's record are followed message by message; the lanes of a SPAWN by induction on the lanes that have issued. -/
theorem migration : Obligations.Migration := ⟨knights, pawns⟩

end Sys2Proof.Proofs
end

section
/-! Scalar words in lanes whose threads stand in no thread table (06 R140-R143, 07 R173): a state in which the second lane does not write what it would have read before the
word. -/

namespace Sys2Proof.Proofs
open Sys2Proof Machine Claims

/-! ### A scalar word whose first lane changes what its second lane reads

As with MTSR, the first lane's write puts its thread into the thread table and so ends the fusion of its cluster's L1 (R173), through which the second lane would have read
its launch constant. -/

/-- SMOV of launch constant 0 to g0. -/
def g0FromConst : S2F := ⟨0, 184, 0⟩

theorem unplacedLanes_issuesSmov : Issues (.smov g0FromConst) unplacedLanes := by
  constructor <;> decide +kernel

/-- The second lane's register takes the value 2, where the lane read 1 before the word. -/
theorem unplacedLanes_g0 {t : State} (h : exec (.smov g0FromConst) unplacedLanes = .next t) : (t.T 1).gr 0 = 2 := by
  have hrun : (match exec (.smov g0FromConst) unplacedLanes with
    | .next t => (t.T 1).gr 0
    | _ => 0) = 2 := by decide +kernel
  rw [h] at hrun
  exact hrun

/-- Refutes O5: the first lane's write puts its thread into the thread table, which ends its cluster's fusion (R173), and the second lane's launch constant is then
read from another L1 than before the word. -/
theorem not_scalarResults : ¬ Obligations.ScalarResults := by
  rintro ⟨hscalar, -⟩
  obtain ⟨t, hexec, -, hlanes⟩ := (hscalar (.smov g0FromConst) _ _ unplacedLanes rfl unplacedLanes_issuesSmov).1 (by decide)
  have hsecond : (t.T 1).gr 0 = 1 := by
    rw [hlanes 1]
    change ((Vector.replicate 32 (0 : Word)).setIfInBounds 0 (unplacedLanes.code g0FromConst.a 1)).getD 0 0 = 1
    rw [show unplacedLanes.code g0FromConst.a 1 = 1 from unplacedLanes_const]
    rfl
  rw [unplacedLanes_g0 hexec] at hsecond
  exact absurd hsecond (by decide)

end Sys2Proof.Proofs
end

section
/-! Words that change one crew, ENROL, PARK, STRIKE and JMOV (06 R146-R152): a rejoin register read after a write, what PARK does lane by lane, and the words. -/

namespace Sys2Proof.Proofs
open Sys2Proof Machine Claims Laws

/-! ### A word that changes its crew alone -/

theorem oneCrew_modC (s : State) (ck : Nat) (f : Crew → Crew) : OneCrew s (s.modC ck f) ck f := fun c => by
  rw [modC_eq, C_setC]
  split
  case isTrue h => rw [h]
  case isFalse => rfl

/-- A word that changes one crew changes nothing else. -/
theorem gives_modC {i : Instr} {s : State} {ck : Nat} {f : Crew → Crew} (hexec : exec i s = .next (s.modC ck f).endWord) :
    Gives i s fun t => t = { s with crews := t.crews, iss := { s.iss with pfx := .none } } ∧ OneCrew s t ck f :=
  ⟨_, hexec, rfl, oneCrew_modC s ck f⟩

/-- A uniform destination is written in the issuers' crew (R135, R140). -/
theorem wrUni_eq {s : State} {ck : Nat} (hck : s.iss.crew = some ck) (d : BitVec 8) (v : Word) : s.wrUni d v = s.modC ck (wrCode d v) := by
  rw [State.wrUni, hck]
  refine congrArg (s.modC ck) (funext fun c => ?_)
  unfold wrCode isS
  by_cases hs : d.toNat < 160
  case pos => simp [hs, Crew.setS]
  case neg =>
    by_cases h0 : d.toNat = 160
    case pos => simp [h0, Crew.setK]
    case neg => simp [hs, h0, Crew.setK, show d.toNat - 160 ≠ 0 by omega]

/-- The write of one value to a code: in each issuing lane's g register, or once in the crew's s or k register (R140). -/
def writeOnce (s : State) (d : BitVec 8) (v : Word) : State := if isG d then s.eachLane fun s l => s.wrG l.tk (d.toNat - 184) v else s.wrUni d v

theorem gives_writeOnce {i : Instr} {s : State} {ck : Nat} {d : BitVec 8} {v : Word} (hexec : exec i s = .next (writeOnce s d v).endWord)
    (hck : s.iss.crew = some ck) (hn : (s.iss.lanes.map (·.tk)).Nodup) :
    (isG d = true → Gives i s fun t => OnlyThreads s t ∧ EachLane s t fun _ x => { x with g := x.g.setIfInBounds (d.toNat - 184) v })
      ∧ (isG d = false → Gives i s fun t => t = { s with crews := t.crews, iss := { s.iss with pfx := .none } } ∧ OneCrew s t ck (wrCode d v)) := by
  unfold writeOnce at hexec
  refine ⟨fun hg => ?_, fun hg => ?_⟩
  · rw [if_pos hg] at hexec
    exact gives_eachLane _ hexec hn fun u l _ hT _ => by rw [wrG_eq, hT]; rfl
  · rw [hg, if_neg Bool.false_ne_true, wrUni_eq hck] at hexec
    exact gives_modC hexec

/-! ### Rejoin registers -/

/-- There are eight rejoin registers. -/
theorem setJ_of_le {n : Nat} (hn : 8 ≤ n) (c : Crew) (v : Rejoin) : c.setJ n v = c := by
  rw [Crew.setJ, Vector.setIfInBounds_eq_of_size_le hn]

theorem jr_setJ_same {n : Nat} (hn : n < 8) (c : Crew) (v : Rejoin) : (c.setJ n v).jr n = v := by
  simp [Crew.jr, Crew.setJ, Vector.getD, hn]

theorem setJ_setJ (c : Crew) (n : Nat) (v w : Rejoin) : (c.setJ n v).setJ n w = c.setJ n w := by
  simp only [Crew.setJ, Vector.setIfInBounds_setIfInBounds]

theorem setJ_jr (c : Crew) (n : Nat) : c.setJ n (c.jr n) = c := by
  rcases lt_or_ge n 8 with hn | hn
  case inl =>
    have hj : c.j.setIfInBounds n (c.jr n) = c.j := Vector.ext fun m hm => by
      rw [Vector.getElem_setIfInBounds]
      split
      case isTrue h => subst h; simp [Crew.jr, Vector.getD, hn]
      case isFalse => rfl
    rw [Crew.setJ, hj]
  case inr => exact setJ_of_le hn c _

theorem modJ_eq {s : State} {ck : Nat} (hck : s.iss.crew = some ck) (n : Nat) (g : Rejoin → Rejoin) :
    s.modJ n g = s.modC ck fun c => c.setJ n (g (c.jr n)) := by
  rw [State.modJ, hck]

/-- A crew with lanes parked in rejoin register n. -/
def parkIn (n : Nat) (m : BitVec 32) (c : Crew) : Crew := c.setJ n { c.jr n with parked := (c.jr n).parked ||| m }

theorem parkIn_zero (n : Nat) (c : Crew) : parkIn n 0 c = c := by
  simp only [parkIn, BitVec.ofNat_eq_ofNat, BitVec.or_zero]
  exact setJ_jr c n

theorem parkIn_parkIn (n : Nat) (m m' : BitVec 32) (c : Crew) : parkIn n m' (parkIn n m c) = parkIn n (m ||| m') c := by
  unfold parkIn
  rw [setJ_setJ]
  rcases lt_or_ge n 8 with hn | hn
  case inl => rw [jr_setJ_same hn, BitVec.or_assoc]
  case inr => rw [setJ_of_le hn, setJ_of_le hn]

theorem enrolled_parkIn (n : Nat) (m : BitVec 32) (c : Crew) : ((parkIn n m c).jr n).enrolled = (c.jr n).enrolled := by
  unfold parkIn
  rcases lt_or_ge n 8 with hn | hn
  case inl => rw [jr_setJ_same hn]
  case inr => rw [setJ_of_le hn]

/-! ### The set of the issuing lanes (R147) -/

/-- The bits of lanes' positions. -/
def laneMask (ls : List LaneRef) : BitVec 32 := ls.foldr (fun l m => BitVec.ofNat 32 (2 ^ l.pos) ||| m) 0

theorem issueMask_eq (s : State) : s.issueMask = laneMask s.iss.lanes := by
  have hfold (ls : List LaneRef) (m : BitVec 32) : ls.foldl (fun m l => m ||| BitVec.ofNat 32 (2 ^ l.pos)) m = m ||| laneMask ls := by
    induction ls generalizing m with
    | nil => exact (BitVec.or_zero).symm
    | cons l ls ih => rw [List.foldl_cons, ih, BitVec.or_assoc]; rfl
  exact (hfold s.iss.lanes 0).trans BitVec.zero_or

/-- One position's bit, where it is set. -/
theorem and_bitAt (e : BitVec 32) (p : Nat) : e &&& BitVec.ofNat 32 (2 ^ p) = if e.getLsbD p then BitVec.ofNat 32 (2 ^ p) else 0 := by
  have htwo : BitVec.ofNat 32 (2 ^ p) = BitVec.twoPow 32 p := BitVec.eq_of_toNat_eq (by simp)
  rw [htwo, BitVec.and_twoPow]
  rfl

/-! ### PARK lane by lane (R149) -/

theorem ThrCrews.trans {s t u : State} (h : ThrCrews s t) (h' : ThrCrews t u) : ThrCrews s u := by
  unfold ThrCrews at *
  rw [h', h]

/-- What PARK does in a lane: an enrolled lane is parked. -/
def parkLane (n ck : Nat) (s : State) (l : LaneRef) : State :=
  if bit ((s.C ck).jr n).enrolled.toNat l.pos then (s.modJ n fun r => { r with parked := r.parked ||| BitVec.ofNat 32 (2 ^ l.pos) }).block l.tk (.park n) else s

/-- A thread that waits in rejoin register n. -/
def parkedThr (n : Nat) (x : Thr) : Thr := { x with st := .blocked, wait := .park n }

/-- PARK in one lane: the crew's register, the lane's own thread, and nothing else. -/
theorem parkLane_spec {s : State} {ck : Nat} (hck : s.iss.crew = some ck) (n : Nat) (l : LaneRef) : let e := ((s.C ck).jr n).enrolled
    ThrCrews s (parkLane n ck s l) ∧ OneCrew s (parkLane n ck s l) ck (parkIn n (e &&& BitVec.ofNat 32 (2 ^ l.pos)))
      ∧ ∀ tk, (parkLane n ck s l).T tk = if tk = l.tk ∧ e.getLsbD l.pos then parkedThr n (s.T tk) else s.T tk := by
  intro e
  rw [and_bitAt]
  unfold parkLane
  rw [modJ_eq hck, bit_toNat]
  by_cases hin : e.getLsbD l.pos = true
  case pos =>
    rw [if_pos hin, if_pos hin]
    refine ⟨rfl, oneCrew_modC s ck (parkIn n (BitVec.ofNat 32 (2 ^ l.pos))), fun tk => (T_setT _ l.tk tk _).trans ?_⟩
    by_cases htk : tk = l.tk
    case pos => rw [if_pos htk, if_pos ⟨htk, hin⟩, htk]; rfl
    case neg => rw [if_neg htk, if_neg fun h => htk h.1]; rfl
  case neg =>
    rw [if_neg hin, if_neg hin]
    refine ⟨rfl, fun c => ?_, fun tk => (if_neg fun h => hin h.2).symm⟩
    rw [parkIn_zero, ite_self]

/-- PARK in the lanes of a list, one after another. -/
theorem parkLanes_spec {ck : Nat} (n : Nat) (ls : List LaneRef) (s : State) (hck : s.iss.crew = some ck) (hn : (ls.map (·.tk)).Nodup) :
    let e := ((s.C ck).jr n).enrolled
    let t := ls.foldl (parkLane n ck) s
    ThrCrews s t ∧ OneCrew s t ck (parkIn n (e &&& laneMask ls)) ∧ ∀ tk, t.T tk = match ls.find? (·.tk == tk) with
      | some l => if e.getLsbD l.pos then parkedThr n (s.T tk) else s.T tk
      | none => s.T tk := by
  induction ls generalizing s with
  | nil =>
    intro e t
    refine ⟨rfl, fun c => ?_, fun _ => rfl⟩
    rw [show e &&& laneMask [] = 0 from BitVec.and_zero, parkIn_zero, ite_self]
    rfl
  | cons l ls ih =>
    obtain ⟨hl, hrest⟩ := List.nodup_cons.mp hn
    obtain ⟨hframe, hcrew, hthr⟩ := parkLane_spec hck n l
    obtain ⟨hframe', hcrew', hthr'⟩ := ih (parkLane n ck s l) (by rw [hframe]; exact hck) hrest
    have hself : (parkLane n ck s l).C ck = parkIn n (((s.C ck).jr n).enrolled &&& BitVec.ofNat 32 (2 ^ l.pos)) (s.C ck) := (hcrew ck).trans (if_pos rfl)
    rw [hself, enrolled_parkIn] at hcrew' hthr'
    intro e t
    refine ⟨?_, fun c => (hcrew' c).trans ?_, fun tk => (hthr' tk).trans ?_⟩
    · exact hframe.trans hframe'
    · rw [hcrew c]
      by_cases hc : c = ck
      case pos => rw [if_pos hc, if_pos hc, if_pos hc, parkIn_parkIn, ← BitVec.and_or_distrib_left]; rfl
      case neg => rw [if_neg hc, if_neg hc, if_neg hc]
    · rw [hthr tk, List.find?_cons]
      by_cases htk : tk = l.tk
      case pos =>
        have hnone : ls.find? (·.tk == tk) = none :=
          List.find?_eq_none.mpr fun x hx heq => hl (List.mem_map.mpr ⟨x, hx, (beq_iff_eq.mp heq).trans htk⟩)
        rw [hnone, beq_iff_eq.mpr htk.symm]
        exact if_congr (and_iff_right htk) rfl rfl
      case neg => rw [beq_eq_false_iff_ne.mpr (Ne.symm htk), if_neg fun h => htk h.1]

theorem exec_park {f : RejF} {s : State} {ck : Nat} (hok : s.staticFault (.park f) = none) (hck : s.iss.crew = some ck) :
    exec (.park f) s = .next (s.eachLane (parkLane (f.j.toNat - 168) ck)).endWord := by
  change execPark f s = _
  simp only [execPark, word_ok _ hok, hck]
  rfl

theorem parkWord (f : RejF) (s : State) (ck : Nat) (h : Issues (.park f) s) (hck : s.iss.crew = some ck) : Gives (.park f) s fun t =>
    let n := f.j.toNat - 168
    let e := ((s.C ck).jr n).enrolled
    OnlyThreadsCrews s t
      ∧ OneCrew s t ck (fun c => c.setJ n { c.jr n with parked := (c.jr n).parked ||| (e &&& s.issueMask) })
      ∧ EachLane s t fun l x => if e.getLsbD l.pos then { x with st := .blocked, wait := .park n } else x := by
  obtain ⟨hok, hn⟩ := h
  obtain ⟨hframe, hcrew, hthr⟩ := parkLanes_spec (f.j.toNat - 168) s.iss.lanes s hck hn
  refine ⟨_, exec_park hok hck, ?_, ?_, fun tk => (hthr tk).trans rfl⟩
  · unfold OnlyThreadsCrews State.eachLane
    rw [hframe]
    rfl
  · rw [issueMask_eq]
    exact hcrew

/-! ### JMOV (R152) -/

/-- A rejoin register as a value: the parked lanes above the enrolled ones. -/
theorem rejoin_value (r : Rejoin) : W (r.parked.toNat * 2 ^ 32 + r.enrolled.toNat) = (r.parked ++ r.enrolled).setWidth 64 :=
  BitVec.eq_of_toNat_eq (by
    rw [BitVec.toNat_setWidth, BitVec.toNat_append, BitVec.toNat_ofNat, ← Nat.shiftLeft_add_eq_or_of_lt r.enrolled.isLt, Nat.shiftLeft_eq])

/-- JMOV of a rejoin register is a move of its value. -/
theorem exec_jmov_read {f : S2F} {s : State} {ck : Nat} (hok : s.staticFault (.jmov f) = none) (hck : s.iss.crew = some ck) (hd : isJ f.d = false) :
    exec (.jmov f) s =
      .next (writeOnce s f.d ((((s.rC ck).jr (f.a.toNat - 168)).parked ++ ((s.rC ck).jr (f.a.toNat - 168)).enrolled).setWidth 64)).endWord := by
  change execJmov f s = _
  simp only [execJmov, word_ok _ hok, hck, hd, rejoin_value]
  rfl

theorem exec_jmov_write {f : S2F} {s : State} {ck : Nat} (hok : s.staticFault (.jmov f) = none) (hck : s.iss.crew = some ck) (hd : isJ f.d = true)
    (hpark : ((s.C ck).jr (f.d.toNat - 168)).parked = 0) :
    exec (.jmov f) s = .next (s.modC ck fun c => c.setJ (f.d.toNat - 168) ⟨0, (s.code f.a s.lowLane.tk).setWidth 32⟩).endWord := by
  change execJmov f s = _
  simp only [execJmov, word_ok _ hok, hck, hd, if_true, hpark, ne_eq, not_true, if_false, modJ_eq hck]

/-- A g code is no j code. -/
theorem isJ_of_isG {d : BitVec 8} (h : isG d = true) : isJ d = false := by
  simp only [isG, isJ, decide_eq_true_eq, decide_eq_false_iff_not] at *
  omega

/-! ### The rejoin words -/

theorem exec_enrol {f : RejF} {s : State} {ck : Nat} (hok : s.staticFault (.enrol f) = none) (hck : s.iss.crew = some ck) : exec (.enrol f) s =
    .next (s.modC ck fun c => c.setJ (f.j.toNat - 168) { c.jr (f.j.toNat - 168) with enrolled := (c.jr (f.j.toNat - 168)).enrolled ||| s.issueMask }).endWord := by
  change execEnrol f s = _
  simp only [execEnrol, word_ok _ hok, modJ_eq hck]

theorem exec_strike {f : RejF} {s : State} {ck : Nat} (hok : s.staticFault (.strike f) = none) (hck : s.iss.crew = some ck) : exec (.strike f) s =
    .next (s.modC ck fun c => c.setJ (f.j.toNat - 168)
      ⟨(c.jr (f.j.toNat - 168)).parked &&& ~~~s.issueMask, (c.jr (f.j.toNat - 168)).enrolled &&& ~~~s.issueMask⟩).endWord := by
  change execStrike f s = _
  simp only [execStrike, word_ok _ hok, modJ_eq hck]

/-- Settles O8: PARK by induction on the issuing lanes, each other word as one write of a register. -/
theorem rejoinWords : Obligations.RejoinWords := by
  refine ⟨fun f s ck h hck => gives_modC (exec_enrol h.1 hck), fun f s ck h hck => gives_modC (exec_strike h.1 hck),
    fun f s ck h hck _ _ => parkWord f s ck h hck, fun f s ck h hck => ⟨fun hd hpark => ?_, fun hd hg => ?_, fun hg => ?_⟩⟩
  · exact gives_modC (exec_jmov_write h.1 hck hd hpark)
  · exact (gives_writeOnce (exec_jmov_read h.1 hck hd) hck h.2).2 hg
  · exact (gives_writeOnce (exec_jmov_read h.1 hck (isJ_of_isG hg)) hck h.2).1 hg

end Sys2Proof.Proofs
end

section
/-! SLD and SST (06 R145): the share's 8 bytes at an offset that passes the checks. -/

namespace Sys2Proof.Proofs
open Sys2Proof Machine Claims Laws

theorem exec_sld {f : S2F} {s : State} {ck : Nat} (hok : s.staticFault (.sld f) = none) (hck : s.iss.crew = some ck)
    (hofs : s.sOffset ck (s.code f.a s.lowLane.tk) = none) :
    exec (.sld f) s = .next (writeOnce s f.d (W (s.shareRd ck (s.code f.a s.lowLane.tk).toNat 8))).endWord := by
  change execSld f s = _
  simp only [execSld, word_ok _ hok, hck, hofs]
  rfl

theorem exec_sst {f : S2F} {s : State} {ck : Nat} (hok : s.staticFault (.sst f) = none) (hck : s.iss.crew = some ck)
    (hofs : s.sOffset ck (s.code f.d s.lowLane.tk) = none) :
    exec (.sst f) s = .next (s.shareWr ck (s.code f.d s.lowLane.tk).toNat 8 (s.code f.a s.lowLane.tk).toNat).endWord := by
  change execSst f s = _
  simp only [execSst, word_ok _ hok, hck, hofs]

/-- A word of the share written: its bytes, and the mark in the crew's bound range, which is all that changes in a crew (R178). -/
theorem shareWr_spec (s : State) (ck o : Nat) (v : Word) (hwf : Memory.wf s.mem = true) : let t := s.shareWr ck o 8 v.toNat
    let k := spadKey (coreOfCk ck) ((s.C ck).spBase + o)
    memRdN t.mem k 8 = v.toNat ∧ (∀ a, ¬ (k ≤ a ∧ a < k + 8) → memRd t.mem a = memRd s.mem a) ∧ ∀ c, t.C c = { s.C c with bind := (t.C c).bind } := by
  intro t k
  refine ⟨?_, fun a ha => memRd_memWrN_out k 8 v.toNat a hwf (by omega), fun c => ?_⟩
  · exact (memRdN_memWrN k 8 v.toNat hwf).trans (Nat.mod_eq_of_lt v.isLt)
  · have hC : t.C c = if c = ck then (s.C c).mark o else s.C c := oneCrew_modC (s.wrMem k 8 v.toNat) ck (·.mark o) c
    rw [hC]
    split <;> rfl

/-- Settles O13: SLD writes what it reads once for all its lanes, SST is one write of the share. -/
theorem scalarShareWords : Obligations.ScalarShareWords := by
  refine ⟨fun f s ck h hck hofs => gives_writeOnce (exec_sld h.1 hck hofs) hck h.2, fun f s ck h hck hofs hwf => ?_⟩
  exact ⟨_, exec_sst h.1 hck hofs, rfl, shareWr_spec s ck _ _ hwf⟩

end Sys2Proof.Proofs
end

section
/-! The checks of an address in a lane whose thread stands in no thread table (07 R171, R173, 08 R184, 18 R374): a state in which a trap of the first lane changes what the second
lane's trap finds at its handler. -/

namespace Sys2Proof.Proofs
open Sys2Proof Machine Claims

/-! ### A trap that ends the fusion which the next lane's trap would profit from

Whether a trap's handler is a chain head is told by the word before it in its packet, which the core finds in its L1 or in the fused one of its cluster (R97, R173). The first
lane's trap puts its thread into the thread table and so ends the fusion; the second lane's then waits for a line that the fused L1 holds. -/

/-- The page of address 0 as core 1's permission cache knows it: it may be executed. -/
def executable : PermE := { readable with ex := true }

/-- The second lane's thread: a crew's, which ends no fusion (R173), with a handler inside its packet. -/
def handledThread : Thr := { Thr.blank with kind := 2, handler := 4 }

/-- Two lanes issue on core 1; the first one's thread stands in no table. The fused L1 of the cluster holds line 0. -/
def unplacedTrap : State :=
  { State.reset with
    ctxs := [(0, { Ctx.blank with ptab := [homeZero] })], cores := [(1, { CoreSt.blank with perm := [executable] })], reps := [fusedLine]
    thr := [(1025, handledThread)], iss := { Issue.blank with core := 1, lanes := [⟨1024, 0⟩, ⟨1025, 1⟩] } }

/-- LD of the byte at address -1, which no region holds. -/
def byteOutside : LmF := ⟨0, 4, 2, 0, 0, 31, 0⟩

theorem unplacedTrap_issues : Issues (.ld byteOutside) unplacedTrap := by
  constructor <;> decide +kernel

theorem unplacedTrap_check : ∀ l ∈ unplacedTrap.iss.lanes, unplacedTrap.active (byteOutside.p == 1) l = true
    ∧ unplacedTrap.check l ((unplacedTrap.rT l.tk).gr byteOutside.a.toNat + byteOutside.o.signExtend 64 * W (2 ^ byteOutside.s.toNat)) (2 ^ byteOutside.s.toNat)
        ⟨true, false, false⟩ (fun _ => true) = .fault .permission := by
  decide +kernel

/-- Before the word the second lane's trap enters its handler. -/
theorem unplacedTrap_enters : ((unplacedTrap.takeTrap 1025 { cause := .permission, pc := unplacedTrap.iss.pc, info := 0, word := unplacedTrap.iss.widx
                                                             addr := (unplacedTrap.rT 1025).gr byteOutside.a.toNat + byteOutside.o.signExtend 64 * W (2 ^ byteOutside.s.toNat) }).T 1025).st = .ready := by
  decide +kernel

/-- After the word its thread waits for a line. -/
theorem unplacedTrap_waits {t : State} (h : exec (.ld byteOutside) unplacedTrap = .next t) : (t.T 1025).st = .blocked := by
  have hrun : (match exec (.ld byteOutside) unplacedTrap with
    | .next t => (t.T 1025).st
    | _ => .ready) = .blocked := by decide +kernel
  rw [h] at hrun
  exact hrun

/-- Refutes O17: the first lane's trap puts its thread into the thread table, which ends its cluster's fusion (R173), and the second lane's trap then waits for a line that
the fused L1 held before the word, where it would have entered its handler. -/
theorem not_memoryChecks : ¬ Obligations.MemoryChecks := by
  rintro ⟨hfault, -⟩
  obtain ⟨t, hexec, -, -, -, -, hlanes⟩ := hfault (.ld byteOutside) _ unplacedTrap (fun _ => .permission) rfl unplacedTrap_issues unplacedTrap_check
  have hsecond : (t.T 1025).st = .ready := by
    rw [hlanes 1025]
    exact unplacedTrap_enters
  rw [unplacedTrap_waits hexec] at hsecond
  cases hsecond

end Sys2Proof.Proofs
end

section
/-! SUPPORT. What the accesses that begin in some threads can change (08 R178, R185, R194-R197): their outstanding accesses, the words marked in bound ranges, and messages, of
which none is lost. -/

namespace Sys2Proof.Proofs
open Sys2Proof Machine Claims Laws

/-! ### Messages in transit -/

/-- A message for a core: it has arrived, is a frame in the network, or waits for its lanes under a number that is given. -/
def InTransit (t : State) (e : Ev) (chip core : Nat) : Prop :=
  Sent t e chip core ∨ ∃ o ∈ t.outs, o.1 < t.ids ∧ o.2.ev = e ∧ o.2.chip = chip ∧ o.2.core = core

theorem InTransit.carried {t : State} {e : Ev} {chip core : Nat} (h : InTransit t e chip core) : Carried t e chip core := by
  rcases h with (h | h) | ⟨o, ho, -, hto⟩
  · exact .inl h
  · exact .inr (.inl h)
  · exact .inr (.inr ⟨o, ho, hto⟩)

/-- An entry stays in its table when one is set, unless it is the one replaced. -/
theorem mem_set_or {α : Type} {t : Tab α} (n : Nat) (x : α) {e : Nat × α} (he : e ∈ t) : e ∈ t.set n x ∨ (e.1 = n ∧ t.get? n = some e.2) := by
  induction t with
  | nil => exact absurd he List.not_mem_nil
  | cons p t ih =>
    obtain ⟨k, v⟩ := p
    unfold Tab.set Tab.get?
    split
    case isTrue hk =>
      rcases List.mem_cons.mp he with rfl | he
      · exact .inr ⟨hk.symm, rfl⟩
      · exact .inl (List.mem_cons_of_mem _ he)
    case isFalse =>
      split
      · exact .inl (List.mem_cons_of_mem _ he)
      · rcases List.mem_cons.mp he with rfl | he
        · exact .inl List.mem_cons_self
        · exact (ih he).imp_left (List.mem_cons_of_mem _)

/-- An entry stays in its table when a key is deleted, unless it is the one found there. -/
theorem mem_del_or {α : Type} {t : Tab α} (n : Nat) {e : Nat × α} (he : e ∈ t) : e ∈ t.del n ∨ (e.1 = n ∧ t.get? n = some e.2) := by
  induction t with
  | nil => exact absurd he List.not_mem_nil
  | cons p t ih =>
    obtain ⟨k, v⟩ := p
    unfold Tab.del Tab.get?
    split
    case isTrue hk =>
      rcases List.mem_cons.mp he with rfl | he
      · exact .inr ⟨hk.symm, rfl⟩
      · exact .inl he
    case isFalse =>
      split
      · exact .inl he
      · rcases List.mem_cons.mp he with rfl | he
        · exact .inl List.mem_cons_self
        · exact (ih he).imp_left (List.mem_cons_of_mem _)

theorem send_ids (s : State) (src chip dst : Nat) (i : Instr) (a : Arg) : s.ids ≤ (s.send src chip dst i a).ids := by
  rcases send_cases s src chip dst i a with ⟨-, -, h⟩ | ⟨-, f, -, -, -, -, h⟩ <;> rw [h]
  · exact le_rfl
  · exact Nat.le_succ _

theorem send_outs (s : State) (src chip dst : Nat) (i : Instr) (a : Arg) : (s.send src chip dst i a).outs = s.outs := by
  obtain ⟨_, _, _, h⟩ := send_frame s src chip dst i a
  rw [h]

theorem inTransit_send {s : State} {e : Ev} {c k : Nat} (h : InTransit s e c k) (src chip dst : Nat) (i : Instr) (a : Arg) :
    InTransit (s.send src chip dst i a) e c k := by
  rcases h with h | ⟨o, ho, hlt, hto⟩
  · exact .inl (sent_mono h (mails_send ..).keeps)
  · exact .inr ⟨o, by rwa [send_outs], lt_of_lt_of_le hlt (send_ids ..), hto⟩

/-- A lane that becomes free keeps each message in transit: the one that it was the last to hold has left. -/
theorem inTransit_leave {s : State} {e : Ev} {c k : Nat} (h : InTransit s e c k) (o tk : Nat) : InTransit (s.leave o tk) e c k := by
  unfold State.leave
  split
  case h_1 => exact h
  case h_2 m hm =>
    dsimp only
    split
    case isTrue =>
      rcases h with h | ⟨x, hx, hlt, hto⟩
      · exact inTransit_send (s := { s with outs := s.outs.del o }) (.inl h) ..
      · rcases mem_del_or o hx with hx | ⟨-, hfound⟩
        · exact inTransit_send (s := { s with outs := s.outs.del o }) (.inr ⟨x, hx, hlt, hto⟩) ..
        · obtain rfl : m = x.2 := Option.some.inj (hm.symm.trans hfound)
          obtain ⟨rfl, rfl, rfl⟩ := hto
          exact .inl (sent_send ..)
    case isFalse =>
      rcases h with h | ⟨x, hx, hlt, hto⟩
      · exact .inl h
      · rcases mem_set_or o { m with wait := m.wait.filter (· != tk) } hx with hx | ⟨hkey, hfound⟩
        · exact .inr ⟨x, hx, hlt, hto⟩
        · obtain rfl : m = x.2 := Option.some.inj (hm.symm.trans hfound)
          exact .inr ⟨_, mem_set_self .., hkey ▸ hlt, hto⟩

/-- A new message is in transit, and no other is lost. -/
theorem inTransit_newOut (s : State) (o : Out) : InTransit (s.newOut o) o.ev o.chip o.core :=
  .inr ⟨_, mem_set_self .., Nat.lt_succ_self _, rfl, rfl, rfl⟩

theorem inTransit_newOut_of {s : State} {e : Ev} {c k : Nat} (h : InTransit s e c k) (o : Out) : InTransit (s.newOut o) e c k := by
  rcases h with h | ⟨x, hx, hlt, hto⟩
  · exact .inl h
  · exact .inr ⟨x, mem_set_of_ne o hx (Nat.ne_of_lt hlt), Nat.lt_succ_of_lt hlt, hto⟩

/-! ### Accesses that begin -/

/-- What accesses that begin in the threads `on` keep: the rest of the state, what these threads hold beside their accesses and their waiting, earlier accesses, and messages
in transit. -/
structure Starts (on : List Nat) (s t : State) : Prop where
  frame : t = { s with thr := t.thr, crews := t.crews, flights := t.flights, agenda := t.agenda, outs := t.outs, ids := t.ids }
  crews : ∀ c, t.C c = { s.C c with bind := (t.C c).bind }
  thread : ∀ j, t.T j = { s.T j with st := (t.T j).st, wait := (t.T j).wait, pend := (t.T j).pend, posted := (t.T j).posted }
  others : ∀ j, j ∉ on → t.T j = s.T j
  grows : ∀ j, ∀ a ∈ (s.T j).pend, a ∈ (t.T j).pend
  mail : ∀ e c k, InTransit s e c k → InTransit t e c k

/-- The same where no thread begins or ends to wait. -/
structure Begun (on : List Nat) (s t : State) : Prop extends Starts on s t where
  still : ∀ j, (t.T j).st = (s.T j).st ∧ (t.T j).wait = (s.T j).wait

theorem Starts.refl (on : List Nat) (s : State) : Starts on s s := ⟨rfl, fun _ => rfl, fun _ => rfl, fun _ _ => rfl, fun _ _ h => h, fun _ _ _ h => h⟩

theorem Starts.trans {on : List Nat} {s t u : State} (h : Starts on s t) (h' : Starts on t u) : Starts on s u where
  frame := by rw [h'.frame, h.frame]
  crews c := by rw [h'.crews, h.crews]
  thread j := by rw [h'.thread, h.thread]
  others j hj := (h'.others j hj).trans (h.others j hj)
  grows j a ha := h'.grows j a (h.grows j a ha)
  mail e c k he := h'.mail e c k (h.mail e c k he)

theorem Starts.mono {on on' : List Nat} {s t : State} (h : Starts on s t) (hon : ∀ j ∈ on, j ∈ on') : Starts on' s t :=
  { h with others := fun j hj => h.others j fun hj' => hj (hon j hj') }

theorem Starts.iss {on : List Nat} {s t : State} (h : Starts on s t) : t.iss = s.iss := by rw [h.frame]
theorem Starts.chip {on : List Nat} {s t : State} (h : Starts on s t) : t.chip = s.chip := by rw [h.frame]
theorem Starts.mem {on : List Nat} {s t : State} (h : Starts on s t) : t.mem = s.mem := by rw [h.frame]

/-- The word reads a thread's registers and identity as before. -/
theorem Starts.rT {on : List Nat} {s t : State} (h : Starts on s t) (j : Nat) : (t.rT j).gr = (s.rT j).gr ∧ (t.rT j).tid = (s.rT j).tid := by
  unfold State.rT
  rw [h.iss]
  cases s.iss.pre with
  | none => dsimp only; rw [h.thread]; exact ⟨rfl, rfl⟩
  | some p => exact ⟨rfl, rfl⟩

theorem Begun.refl (on : List Nat) (s : State) : Begun on s s := ⟨.refl on s, fun _ => ⟨rfl, rfl⟩⟩

theorem Begun.trans {on : List Nat} {s t u : State} (h : Begun on s t) (h' : Begun on t u) : Begun on s u :=
  ⟨h.toStarts.trans h'.toStarts, fun j => ⟨(h'.still j).1.trans (h.still j).1, (h'.still j).2.trans (h.still j).2⟩⟩

theorem Begun.mono {on on' : List Nat} {s t : State} (h : Begun on s t) (hon : ∀ j ∈ on, j ∈ on') : Begun on' s t := ⟨h.toStarts.mono hon, h.still⟩

theorem Begun.ite {on : List Nat} {s t u : State} {p : Prop} [Decidable p] (ht : Begun on s t) (hu : Begun on s u) : Begun on s (if p then t else u) := by
  split <;> assumption

theorem Begun.foldl {α : Type} {on : List Nat} {g : State → α → State} (l : List α) (hg : ∀ u, ∀ x ∈ l, Begun on u (g u x)) (s : State) : Begun on s (l.foldl g s) :=
  List.foldlRecOn (motive := Begun on s) l g (.refl on s) fun u hu x hx => hu.trans (hg u x hx)

/-- A thread differs in its accesses and in the homes that have posted its stores. -/
theorem Begun.T {on : List Nat} {s t : State} (h : Begun on s t) (j : Nat) : t.T j = { s.T j with pend := (t.T j).pend, posted := (t.T j).posted } := by
  have hthread := h.thread j
  rw [(h.still j).1, (h.still j).2] at hthread
  exact hthread

/-- A state whose threads are the same has begun nothing in them. -/
theorem begun_of_T {s t : State} (hframe : t = { s with thr := t.thr, crews := t.crews, flights := t.flights, agenda := t.agenda, outs := t.outs, ids := t.ids })
    (hcrews : ∀ c, t.C c = { s.C c with bind := (t.C c).bind }) (hT : ∀ j, t.T j = s.T j) (hmail : ∀ e c k, InTransit s e c k → InTransit t e c k) (on : List Nat) :
    Begun on s t :=
  ⟨⟨hframe, hcrews, fun j => by rw [hT], fun j _ => hT j, fun j a ha => by rwa [hT], hmail⟩, fun j => by rw [hT]; exact ⟨rfl, rfl⟩⟩

/-- One thread's accesses, or its waiting, changed. -/
theorem starts_setT {s : State} {tk : Nat} {x : Thr} (hx : x = { s.T tk with st := x.st, wait := x.wait, pend := x.pend, posted := x.posted })
    (hp : ∀ a ∈ (s.T tk).pend, a ∈ x.pend) : Starts [tk] s (s.setT tk x) := by
  refine ⟨rfl, fun _ => rfl, fun j => ?_, fun j hj => ?_, fun j a ha => ?_, fun _ _ _ h => h⟩
  · rw [T_setT]
    split
    case isTrue h => rw [h]; exact hx
    case isFalse => rfl
  · rw [T_setT, if_neg fun h => hj (List.mem_singleton.mpr h)]
  · rw [T_setT]
    split
    case isTrue h => exact hp a (h ▸ ha)
    case isFalse => exact ha

theorem begun_setT {s : State} {tk : Nat} {pend : List Acc} {posted : List Nat} (hp : ∀ a ∈ (s.T tk).pend, a ∈ pend) :
    Begun [tk] s (s.setT tk { s.T tk with pend := pend, posted := posted }) := by
  refine ⟨starts_setT rfl hp, fun j => ?_⟩
  rw [T_setT]
  split
  case isTrue h => rw [h]; exact ⟨rfl, rfl⟩
  case isFalse => exact ⟨rfl, rfl⟩

theorem starts_block (s : State) (tk : Nat) (w : Wait) : Starts [tk] s (s.block tk w) := starts_setT rfl fun _ h => h

theorem begun_fresh (on : List Nat) (s : State) : Begun on s s.fresh :=
  begun_of_T (s := s) (t := s.fresh) rfl (fun _ => rfl) (fun _ => rfl) (fun _ _ _ h => h.imp id fun ⟨o, ho, hlt, hto⟩ => ⟨o, ho, Nat.lt_succ_of_lt hlt, hto⟩) on

theorem begun_newOut (on : List Nat) (s : State) (o : Out) : Begun on s (s.newOut o) :=
  begun_of_T (s := s) (t := s.newOut o) rfl (fun _ => rfl) (fun _ => rfl) (fun _ _ _ h => inTransit_newOut_of h o) on

/-- A free lane's message changes messages alone. -/
theorem leave_frame (s : State) (o tk : Nat) : s.leave o tk = { s with flights := (s.leave o tk).flights, agenda := (s.leave o tk).agenda
                                                                       outs := (s.leave o tk).outs, ids := (s.leave o tk).ids } := by
  unfold State.leave
  split
  case h_1 => rfl
  case h_2 m _ =>
    dsimp only
    split
    · obtain ⟨_, _, _, h⟩ := send_frame { s with outs := s.outs.del o } m.src m.chip m.core m.ev.i m.ev.a
      rw [h]
    · rfl

theorem begun_leave (on : List Nat) (s : State) (o tk : Nat) : Begun on s (s.leave o tk) :=
  begun_of_T (by rw [leave_frame]) (fun c => by rw [leave_frame]; rfl) (mails_leave s o tk).T (fun _ _ _ h => inTransit_leave h o tk) on

/-- An access begins: it joins the thread's accesses, and its message leaves if nothing holds it (R194-R197). -/
theorem begun_startAcc (s : State) (tk : Nat) (a : Acc) : Begun [tk] s (s.startAcc tk a) := by
  rw [startAcc_eq]
  have hadd : Begun [tk] s (withAcc s tk a) := begun_setT (posted := (s.T tk).posted) fun _ => List.mem_append_left _
  exact .ite (hadd.trans (begun_leave ..)) hadd

/-- What an access that has begun records: what it is, and the earlier ones that hold it. -/
theorem startAcc_mem (s : State) (tk : Nat) (a : Acc) : { a with held := heldBehind s tk a } ∈ ((s.startAcc tk a).T tk).pend := by
  rw [startAcc_T, if_pos rfl]
  exact List.mem_append_right _ (List.mem_singleton_self _)

theorem mem_heldBehind {s : State} {tk : Nat} {a b : Acc} (hb : b ∈ (s.T tk).pend) (hh : b.holds a = true) : b.id ∈ heldBehind s tk a :=
  List.mem_map.mpr ⟨b, List.mem_filter.mpr ⟨hb, hh⟩, rfl⟩

/-- Another home has posted host-tier stores of a thread (R197). -/
theorem begun_post (s : State) (tk n : Nat) : Begun [tk] s (s.modT tk fun t => { t with posted := (t.posted ++ [n]).eraseDups }) :=
  begun_setT (pend := (s.T tk).pend) fun _ h => h

/-! ### What precedes a release access (R178, R197) -/

/-- A flushing read of a home that has posted host-tier stores of a thread (R197). -/
def flushRead (tk : Nat) (pc : BitVec 56) (s : State) (h : Nat) : State :=
  (s.fresh.newOut { wait := [tk], chip := h / 2 ^ 16, core := h % 2 ^ 16, src := coreOfTk tk, ev := ⟨.pcieCompletion, .flush tk s.ids (homeNum s.chip (coreOfTk tk))⟩ }).startAcc tk
    { id := s.ids, kind := .flush, line := none, pkind := 1, acq := false, rel := true, scope := 0, held := [], out := s.fresh.ids
      pc := pc, d := 0, ea := 0, heldAt := none, recd := false }

theorem flushReads_eq (s : State) (tk : Nat) :
    s.flushReads tk = (s.T tk).posted.foldl (flushRead tk (s.T tk).pc) (s.setT tk { s.T tk with posted := [] }) := rfl

theorem begun_flushRead (tk : Nat) (pc : BitVec 56) (s : State) (h : Nat) : Begun [tk] s (flushRead tk pc s h) :=
  ((begun_fresh _ s).trans (begun_newOut ..)).trans (begun_startAcc ..)

theorem begun_flushReads (s : State) (tk : Nat) : Begun [tk] s (s.flushReads tk) := by
  rw [flushReads_eq]
  exact (begun_setT (pend := (s.T tk).pend) fun _ h => h).trans (.foldl _ (fun u h _ => begun_flushRead tk _ u h) _)

/-- Marks of a crew's bound ranges changed (R178). -/
theorem begun_modC {s : State} {ck : Nat} {f : Crew → Crew} (hf : ∀ c, f c = { c with bind := (f c).bind }) (on : List Nat) : Begun on s (s.modC ck f) := by
  refine begun_of_T (s := s) (t := s.modC ck f) rfl (fun c => ?_) (fun _ => rfl) (fun _ _ _ h => h) on
  rw [modC_eq, C_setC]
  split
  case isTrue h => rw [h]; exact hf _
  case isFalse => rfl

theorem begun_writeBack (s : State) (tk : Nat) : Begun [tk] s (s.writeBack tk) := by
  unfold State.writeBack
  dsimp only
  refine .ite (.refl _ s) ?_
  refine Begun.trans (begun_modC ?_ _) (.foldl _ (fun u j _ => ?_) _)
  · exact fun _ => rfl
  · split
    case h_1 => exact ((begun_fresh _ u).trans (begun_newOut ..)).trans (begun_startAcc ..)
    case h_2 h _ =>
      exact (((begun_fresh _ u).trans (begun_newOut ..)).trans (.ite (begun_post ..) (.refl _ _))).trans (begun_startAcc ..)

theorem begun_beforeRelease (s : State) (tk scope : Nat) : Begun [tk] s (s.beforeRelease tk scope) := by
  unfold State.beforeRelease
  exact .ite ((begun_writeBack s tk).trans (begun_flushReads ..)) (begun_writeBack s tk)

end Sys2Proof.Proofs
end

section
/-! Links and the host port (08 R197, R234, 19 R407-R410): a link's registers read after a change of one link, what a reply and a record of the device fault log keep, and a
host-tier read at its home. -/

namespace Sys2Proof.Proofs
open Sys2Proof Machine Claims Laws

/-! ### One link changed (R408, R409) -/

theorem onlyLink_modLink (s : State) (n : Nat) (f : Link → Link) : OnlyLink s (s.modLink n f) n (f (s.link n)) := by
  refine ⟨rfl, fun m => ?_⟩
  simp only [State.link, State.modLink, get_set]
  split <;> rfl

theorem link_modLink_same (s : State) (n : Nat) (f : Link → Link) : (s.modLink n f).link n = f (s.link n) := by
  rw [(onlyLink_modLink s n f).2 n, if_pos rfl]

/-- A discarded frame or host access is a change of its link (R408). -/
theorem countDrop_eq (s : State) (n : Nat) : s.countDrop n = s.modLink n fun l => { l with drops := min 65535 (l.drops + 1) } := rfl

theorem countDrop_drops (s : State) (n : Nat) : ((s.countDrop n).link n).drops = min 65535 ((s.link n).drops + 1) := by
  rw [countDrop_eq, link_modLink_same]

theorem linkTrains_iff (s : State) (n : Nat) : s.linkTrains n = true ↔ (s.link n).st = .training ∨ (s.link n).st = .retraining := by
  simp [State.linkTrains]

theorem linkUp_iff (s : State) (n : Nat) : s.linkUp n = true ↔ (s.link n).st = .up ∨ (s.link n).st = .degraded := by
  simp [State.linkUp]

/-- A link that carries traffic is not being trained. -/
theorem linkTrains_of_up {s : State} {n : Nat} (h : s.linkUp n = true) : s.linkTrains n = false := by
  rw [linkUp_iff] at h
  rcases h with h | h <;> simp [State.linkTrains, h]

theorem hostLost_of_up {s : State} (h : s.linkUp 16 = true) : s.hostLost = false := by
  simp [State.hostLost, h]

/-! ### Replies and records of the device fault log (R390, R434, R455) -/

/-- Firmware threads woken from HALT: only threads, their messages and the note of a wake without a sleeper differ (R390). -/
theorem wakeHalt_frame (s : State) : ∃ p, ThrMsgs { s with dev := { s.dev with haltPend := p } } s.wakeHalt := by
  unfold State.wakeHalt
  split
  case h_1 => exact ⟨true, rfl⟩
  case h_2 => exact ⟨s.dev.haltPend, ThrMsgs.foldl (fun u (p : Nat × Thr) => (ownThread_wake u p.1).frame) _ s⟩

theorem wakeHalt_mem (s : State) : s.wakeHalt.mem = s.mem := by
  obtain ⟨p, h⟩ := wakeHalt_frame s
  rw [h]

theorem wakeHalt_replies (s : State) : s.wakeHalt.replies = s.replies := by
  obtain ⟨p, h⟩ := wakeHalt_frame s
  rw [h]

theorem wakeHalt_replace (s : State) : s.wakeHalt.dev.replace = s.dev.replace := by
  obtain ⟨p, h⟩ := wakeHalt_frame s
  rw [h]

theorem wakeHalt_links (s : State) : s.wakeHalt.dev.links = s.dev.links := by
  obtain ⟨p, h⟩ := wakeHalt_frame s
  rw [h]

theorem link_congr {s t : State} (h : t.dev.links = s.dev.links) (n : Nat) : t.link n = s.link n := by
  rw [State.link, State.link, h]

theorem answerHost_replies (s : State) (st : Status) (v : Nat) : (s.answerHost st v).replies = s.replies ++ [⟨st.num, v⟩] := wakeHalt_replies _

theorem answerHost_link (s : State) (st : Status) (v n : Nat) : (s.answerHost st v).link n = s.link n := link_congr (wakeHalt_links _) n

/-- A record of the device fault log: a longer log, and HALT woken (R434). -/
theorem devLog_eq (s : State) (event loc addr info : Nat) :
    ∃ log, s.devLog event loc addr info = ({ s with dev := { s.dev with log := log } } : State).wakeHalt := ⟨_, rfl⟩

theorem devLog_links (s : State) (event loc addr info : Nat) : (s.devLog event loc addr info).dev.links = s.dev.links := by
  obtain ⟨log, h⟩ := devLog_eq s event loc addr info
  rw [h, wakeHalt_links]

theorem devLog_replace (s : State) (event loc addr info : Nat) : (s.devLog event loc addr info).dev.replace = s.dev.replace := by
  obtain ⟨log, h⟩ := devLog_eq s event loc addr info
  rw [h, wakeHalt_replace]

theorem devLog_mem (s : State) (event loc addr info : Nat) : (s.devLog event loc addr info).mem = s.mem := wakeHalt_mem _

/-! ### The states of a link (R409) -/

theorem gives_onlyLink {i : Instr} {s : State} {n : Nat} {f : Link → Link} (hexec : exec i s = .next (s.modLink n f)) :
    Gives i s fun t => OnlyLink s t n (f (s.link n)) := ⟨_, hexec, onlyLink_modLink s n f⟩

theorem exec_linkEnable {s : State} {n : Nat} (hev : s.ev = .n1 n) :
    exec .linkEnable s = .next (if (s.link n).st = .down then s.modLink n (·.train .training) else s) := by
  change execLinkEnable s = _
  rw [execLinkEnable, hev]

theorem exec_linkDisable {s : State} {n : Nat} (hev : s.ev = .n1 n) :
    exec .linkDisable s = .next (s.modLink n fun l => { l with st := .down, cap := 0 }) := by
  change execLinkDisable s = _
  rw [execLinkDisable, hev]

theorem exec_linkTrainingFailed {s : State} {n : Nat} (hev : s.ev = .n1 n) (h : s.linkTrains n = true) :
    exec .linkTrainingFailed s = .next (s.modLink n fun l => if 2 ≤ l.fails then { l with st := .failed, fails := 0 }
      else { l with fails := l.fails + 1, trains := (l.trains + 1) % 65536 }) := by
  change execLinkTrainingFailed s = _
  simp only [execLinkTrainingFailed, hev, h, if_true]

theorem exec_linkRetrain {s : State} {n : Nat} (hev : s.ev = .n1 n) :
    exec .linkRetrain s = .next (if s.linkUp n then s.modLink n (·.train .retraining) else s) := by
  change execLinkRetrain s = _
  rw [execLinkRetrain, hev]

theorem exec_linkRetryRequest {s : State} {n : Nat} (hev : s.ev = .n1 n) : exec .linkRetryRequest s =
    .next (if (s.link n).st = .failed then (s.modLink n (·.train .training)).answerHost .ok 0 else s.answerHost .badState 0) := by
  change execLinkRetryRequest s = _
  rw [execLinkRetryRequest, hev]

theorem exec_linkCrcError {s : State} {n : Nat} (hev : s.ev = .n1 n) :
    exec .linkCrcError s = .next (s.modLink n fun l => { l with crcerr := min 65535 (l.crcerr + 1), retries := min 65535 (l.retries + 1) }) := by
  change execLinkCrcError s = _
  rw [execLinkCrcError, hev]

/-- A trained link's registers (R409, R410). -/
def trainedLink (cap : Nat) (l : Link) : Link := { l with st := if cap = 100 then .up else .degraded, cap := cap, fails := 0 }

theorem exec_linkTrained {s : State} {n cap : Nat} (hev : s.ev = .n2 n cap) : exec .linkTrained s = .next (if s.linkTrains n then
      if cap = 100 then s.modLink n (trainedLink cap)
      else ({ s.modLink n (trainedLink cap) with dev := { (s.modLink n (trainedLink cap)).dev with replace := true } } : State).devLog 0x31 (s.chip * 2 ^ 32 + n) 0 0
    else s) := by
  change execLinkTrained s = _
  rw [execLinkTrained, hev]
  rfl

/-- A failed training: the third in a row makes the link FAILED (R409). -/
theorem linkTrainingFailed (s : State) (n : Nat) (hev : s.ev = .n1 n) (h : s.linkTrains n = true) :
    (2 ≤ (s.link n).fails → Gives .linkTrainingFailed s fun t => OnlyLink s t n { s.link n with st := .failed, fails := 0 })
    ∧ ((s.link n).fails < 2 → Gives .linkTrainingFailed s fun t =>
        OnlyLink s t n { s.link n with fails := (s.link n).fails + 1, trains := ((s.link n).trains + 1) % 65536 }) := by
  have hgives := gives_onlyLink (exec_linkTrainingFailed hev h)
  refine ⟨fun hf => ?_, fun hf => ?_⟩
  · rwa [if_pos hf] at hgives
  · rwa [if_neg (by omega)] at hgives

/-- A link trained at full or at part capacity (R409, R410). -/
theorem linkTrained (s : State) (n cap : Nat) (hev : s.ev = .n2 n cap) (h : s.linkTrains n = true) :
    (cap = 100 → Gives .linkTrained s fun t => OnlyLink s t n { s.link n with st := .up, cap := 100, fails := 0 })
    ∧ (cap ≠ 100 → Gives .linkTrained s fun t => t.link n = { s.link n with st := .degraded, cap := cap, fails := 0 } ∧ t.dev.replace = true ∧ t.mem = s.mem) := by
  have hexec := exec_linkTrained hev
  rw [if_pos h] at hexec
  refine ⟨fun hc => ?_, fun hc => ?_⟩
  · subst hc
    exact gives_onlyLink hexec
  · rw [if_neg hc] at hexec
    refine ⟨_, hexec, ?_, by rw [devLog_replace], by rw [devLog_mem]; rfl⟩
    refine (link_congr (devLog_links ..) n).trans ((link_modLink_same s n (trainedLink cap)).trans ?_)
    rw [trainedLink, if_neg hc]

theorem linkStates : Claims.LinkStates := by
  intro s n l trains up
  have htrains : trains ↔ s.linkTrains n = true := (linkTrains_iff s n).symm
  have hup : up ↔ s.linkUp n = true := (linkUp_iff s n).symm
  refine ⟨fun hev => ⟨?_, ?_, ?_, ?_, ?_, ?_, ?_, ?_, ?_, ?_⟩, fun cap hev => ⟨?_, ?_, ?_⟩⟩
  · intro hst
    exact gives_onlyLink ((exec_linkEnable hev).trans (congrArg _ (if_pos hst)))
  · intro hst
    exact (exec_linkEnable hev).trans (congrArg _ (if_neg hst))
  · exact gives_onlyLink (exec_linkDisable hev)
  · exact fun ht => (linkTrainingFailed s n hev (htrains.mp ht)).1
  · exact fun ht => (linkTrainingFailed s n hev (htrains.mp ht)).2
  · intro hu
    exact gives_onlyLink ((exec_linkRetrain hev).trans (congrArg _ (if_pos (hup.mp hu))))
  · intro hu
    exact (exec_linkRetrain hev).trans (congrArg _ (if_neg fun h => hu (hup.mpr h)))
  · intro hst
    refine ⟨_, (exec_linkRetryRequest hev).trans (congrArg _ (if_pos hst)), answerHost_replies .., ?_⟩
    rw [answerHost_link]
    exact link_modLink_same ..
  · intro hst
    exact ⟨_, (exec_linkRetryRequest hev).trans (congrArg _ (if_neg hst)), answerHost_replies .., answerHost_link ..⟩
  · exact gives_onlyLink (exec_linkCrcError hev)
  · exact fun ht => (linkTrained s n cap hev (htrains.mp ht)).1
  · exact fun ht => (linkTrained s n cap hev (htrains.mp ht)).2
  · exact fun ht => (exec_linkTrained hev).trans (congrArg _ (if_neg fun h => ht (htrains.mpr h)))

end Sys2Proof.Proofs
end

section
/-! The host port (08 R197, R234, 19 R407, R410, 20 R427): accesses that wait at the port, and the host's answers. -/

namespace Sys2Proof.Proofs
open Sys2Proof Machine Claims Laws

/-! ### A thread tested again keeps its registers and its accesses (R71, R88, R216) -/

theorem needProbe_pend (s : State) (p : Probe) : ((s.needProbe p).T p.tk).pend = (s.T p.tk).pend := by
  unfold State.needProbe
  dsimp only
  split <;> simp

theorem needLine_pend (s : State) (tk k chip : Nat) (f : Fill) : ((s.needLine tk k chip f).T tk).pend = (s.T tk).pend := by
  unfold State.needLine
  dsimp only
  split
  · simp
  · rw [(mails_sendFill ..).T]
    simp

theorem seek_pend (s : State) (tk : Nat) (w : CodeWord) : ((s.seek tk w).T tk).pend = (s.T tk).pend := by
  cases w with
  | probe p => exact needProbe_pend s { p with tk := tk }
  | fill k chip f => exact needLine_pend s tk k chip f
  | word w => rfl
  | fault c i => rfl

theorem trapNow_pend (s : State) (tk : Nat) (i : TrapInfo) : ((s.trapNow tk i).T tk).pend = (s.T tk).pend := by
  unfold State.trapNow
  dsimp only
  split_ifs
  · rw [escalate_self]
  · rw [escalate_self]
  · rw [escalate_self]
  · rw [T_setT_same]

theorem trapAll_pend (s : State) (tk : Nat) (is : List TrapInfo) : ((s.trapAll tk is).T tk).pend = (s.T tk).pend := by
  induction is generalizing s with
  | nil => rfl
  | cons i is ih =>
    unfold State.trapAll
    split
    · rw [modT_eq, T_setT_same]
    · rw [ih, trapNow_pend]

theorem takePending_pend (s : State) (tk : Nat) : ((s.takePending tk).T tk).pend = (s.T tk).pend := by
  unfold State.takePending
  dsimp only
  split
  · simp
  · split
    · rw [seek_pend]
    · rw [trapAll_pend, T_setT_same]

theorem wake_pend (s : State) (tk : Nat) : ((s.wake tk).T tk).pend = (s.T tk).pend := by
  unfold State.wake
  split
  · simp
  · exact takePending_pend s tk

/-- What testing a waiting thread again keeps: memory, its registers, and its accesses, to which only flushing reads may come. -/
structure Retested (tk : Nat) (s t : State) : Prop where
  mem : t.mem = s.mem
  regs : (t.T tk).g = (s.T tk).g
  pend : ∀ a ∈ (t.T tk).pend, a ∈ (s.T tk).pend ∨ a.kind = .flush

theorem Retested.refl (tk : Nat) (s : State) : Retested tk s s := ⟨rfl, rfl, fun _ => .inl⟩
theorem Retested.trans {tk : Nat} {s t u : State} (h : Retested tk s t) (h' : Retested tk t u) : Retested tk s u :=
  ⟨h'.mem.trans h.mem, h'.regs.trans h.regs, fun a ha => (h'.pend a ha).elim (h.pend a) .inr⟩
theorem Retested.ite {tk : Nat} {s t u : State} {p : Prop} [Decidable p] (ht : Retested tk s t) (hu : Retested tk s u) : Retested tk s (if p then t else u) := by
  split <;> assumption
theorem OwnThread.retested {tk : Nat} {s t : State} (h : OwnThread tk s t) (hp : (t.T tk).pend = (s.T tk).pend) : Retested tk s t :=
  ⟨h.frame.mem, h.regs, fun _ ha => .inl (hp ▸ ha)⟩
theorem CrewWork.retested {s t : State} (h : CrewWork s t) (tk : Nat) : Retested tk s t :=
  ⟨h.frame.mem, by rw [h.T], fun a ha => .inl (h.T tk ▸ ha)⟩
theorem Mails.retested {s t : State} (h : Mails s t) (tk : Nat) : Retested tk s t := h.crewWork.retested tk

theorem retested_modT {s : State} {tk : Nat} {f : Thr → Thr} (hg : ∀ x, (f x).g = x.g) (hp : ∀ x, (f x).pend = x.pend) : Retested tk s (s.modT tk f) :=
  ⟨rfl, by rw [modT_eq, T_setT_same, hg], fun a ha => .inl (by rwa [modT_eq, T_setT_same, hp] at ha)⟩

theorem retested_wake (s : State) (tk : Nat) : Retested tk s (s.wake tk) := (ownThread_wake s tk).retested (wake_pend s tk)

theorem retested_takePending (s : State) (tk : Nat) : Retested tk s (s.takePending tk) := (ownThread_takePending s tk).retested (takePending_pend s tk)

theorem retested_flushReads (s : State) (tk : Nat) : Retested tk s (s.flushReads tk) := by
  rw [flushReads_eq]
  refine Retested.trans (t := s.setT tk { s.T tk with posted := [] }) ?_ ?_
  · exact retested_modT (f := fun t => { t with posted := [] }) (fun _ => rfl) fun _ => rfl
  · refine List.foldlRecOn (motive := Retested tk _) _ _ (.refl ..) fun u hu h _ => hu.trans ?_
    have hbegun := begun_flushRead tk (s.T tk).pc u h
    refine ⟨hbegun.mem, by rw [hbegun.T], fun a ha => ?_⟩
    unfold flushRead at ha
    rw [startAcc_T, if_pos rfl] at ha
    rcases List.mem_append.mp ha with ha | ha
    · exact .inl ha
    · rw [List.mem_singleton.mp ha]
      exact .inr rfl

theorem retested_recheck (s : State) (tk : Nat) : Retested tk s (s.recheck tk) := by
  unfold State.recheck
  dsimp only
  have hcrew : Retested tk s (if (s.T tk).kind = 2 then s.crewTests (ckOfTk tk) else s) := .ite ((crewWork_crewTests ..).retested tk) (.refl tk s)
  generalize (if (s.T tk).kind = 2 then s.crewTests (ckOfTk tk) else s) = u at hcrew ⊢
  refine hcrew.trans ?_
  refine .ite (.refl tk u) ?_
  cases (u.T tk).wait
  case tempo =>
    dsimp only
    split
    · refine .ite (Retested.trans ?_ (((mails_post ..).trans (mails_send ..)).retested tk)) (.refl tk u)
      exact retested_modT (fun _ => rfl) fun _ => rfl
    · exact .refl tk u
  case fence k sc =>
    have hdropped : Retested tk u (if k ≠ 2 ∧ 4 ≤ sc then u.dropAway (dieOf (coreOfTk tk)) else u) := .ite ((mails_dropAway ..).retested tk) (.refl tk u)
    exact .ite (.ite (retested_flushReads u tk) (hdropped.trans (retested_wake ..))) (.refl tk u)
  case depart => exact .ite ((mails_post ..).retested tk) (.refl tk u)
  case exitDrain pc =>
    refine .ite (.ite (retested_takePending u tk) (.ite (Retested.trans ?_ ((mails_send ..).retested tk)) ((mails_post ..).retested tk))) (.refl tk u)
    exact retested_modT (fun _ => rfl) fun _ => rfl
  case sealRel => exact .ite (retested_wake u tk) (.refl tk u)
  all_goals exact .refl tk u

/-! ### Accesses at the port (R407, R410, R427) -/

/-- The port asks for its turn while an access waits. -/
def asksTurn (s : State) : State := if s.hostq = [] ∨ s.agenda.contains ⟨.hostBar2Access, .none⟩ then s else s.post .hostBar2Access .none

theorem asksTurn_frame (s : State) : asksTurn s = { s with agenda := (asksTurn s).agenda } := by
  unfold asksTurn
  split <;> rfl

theorem asksTurn_idle {s : State} (h : s.hostq = []) : asksTurn s = s := if_pos (.inl h)

theorem asksTurn_asks {s : State} (h : s.hostq ≠ []) : ⟨.hostBar2Access, .none⟩ ∈ (asksTurn s).agenda := by
  unfold asksTurn
  split
  case isTrue h' => exact List.contains_iff_mem.mp (h'.resolve_left h)
  case isFalse => exact List.mem_append_right _ (List.mem_singleton_self _)

theorem exec_hostArrival {s : State} {h : HostAcc} (hev : s.ev = .host h) : exec .hostBar2Access s = .next (asksTurn
    (if s.hostLost then s.countDrop 16
     else if s.dev.band = 3 then (if h.op = 1 then s.countDrop 16 else (s.countDrop 16).hostReply 1 0) else { s with hostq := s.hostq ++ [h] })) := by
  change execHostBar2Access s = _
  rw [execHostBar2Access, hev]
  rfl

theorem exec_hostTurn {s : State} (hev : s.ev = .none) : exec .hostBar2Access s = .next (asksTurn s.hostPump) := by
  change execHostBar2Access s = _
  rw [execHostBar2Access, hev]
  rfl

/-- A dropped access is counted, and a read is answered with Unsupported Request. -/
theorem dropped_spec (s : State) (op : Nat) : let t := if op = 1 then s.countDrop 16 else (s.countDrop 16).hostReply 1 0
    t.hostq = s.hostq ∧ t.mem = s.mem ∧ (t.link 16).drops = min 65535 ((s.link 16).drops + 1) ∧ t.replies = s.replies ++ if op = 1 then [] else [⟨1, 0⟩] := by
  by_cases hop : op = 1
  · rw [if_pos hop, if_pos hop, List.append_nil]
    exact ⟨rfl, rfl, countDrop_drops s 16, rfl⟩
  · rw [if_neg hop, if_neg hop]
    exact ⟨rfl, rfl, countDrop_drops s 16, rfl⟩

theorem hostArrives (s : State) (h : HostAcc) (hev : s.ev = .host h) :
    (s.hostLost = false → s.dev.band ≠ 3 → Gives .hostBar2Access s fun t => t = { s with hostq := s.hostq ++ [h], agenda := t.agenda } ∧ ⟨.hostBar2Access, .none⟩ ∈ t.agenda)
      ∧ (s.hostLost = true → Gives .hostBar2Access s fun t => t.hostq = s.hostq ∧ t.replies = s.replies ∧ (t.link 16).drops = min 65535 ((s.link 16).drops + 1))
      ∧ (s.hostLost = false → s.dev.band = 3 → Gives .hostBar2Access s fun t => t.hostq = s.hostq ∧ (t.link 16).drops = min 65535 ((s.link 16).drops + 1)
        ∧ t.replies = s.replies ++ if h.op = 1 then [] else [⟨1, 0⟩]) := by
  have hexec := exec_hostArrival hev
  refine ⟨fun hlost hband => ?_, fun hlost => ?_, fun hlost hband => ?_⟩
  · rw [hlost, if_neg Bool.false_ne_true, if_neg hband] at hexec
    exact ⟨_, hexec, asksTurn_frame _, asksTurn_asks (by simp)⟩
  · rw [hlost, if_pos rfl] at hexec
    refine ⟨_, hexec, ?_⟩
    rw [asksTurn_frame]
    exact ⟨rfl, rfl, countDrop_drops s 16⟩
  · rw [hlost, if_neg Bool.false_ne_true, if_pos hband] at hexec
    obtain ⟨hq, -, hdrops, hreplies⟩ := dropped_spec s h.op
    refine ⟨_, hexec, ?_⟩
    rw [asksTurn_frame]
    exact ⟨hq, hdrops, hreplies⟩

/-- The port with no access waiting. -/
def unqueued (s : State) : State := { s with hostq := [] }

/-- The only access at the port, with no posted write outstanding, is sent at its turn (R234). -/
theorem hostPump_one {s : State} {h : HostAcc} (hup : s.linkUp 16 = true) (hq : s.hostq = [h]) (hout : s.hostOut = []) : s.hostPump = (unqueued s).hostSend h := by
  have hready : s.hostReady [] h = true := by simp [State.hostReady, hout]
  unfold State.hostPump
  rw [if_pos hup, hq]
  simp [List.range_succ, hready, unqueued]

theorem hostSend_unlocated {s : State} {h : HostAcc} (hloc : s.hostLoc h = none) :
    s.hostSend h = if h.op = 1 then s.countDrop 16 else (s.countDrop 16).hostReply 1 0 := by
  rw [State.hostSend, hloc]

/-- A host access as a request to its home (R407). -/
def hostReq (s : State) (h : HostAcc) (ctx va : Nat) (l : HomeLoc) : MemReq :=
  { op := hostOp h, ctx := ctx, home := l.core, chip := s.chip, core := hostCore, sum := 0, fl := 0
    lanes := [{ tk := 2 ^ 31, id := s.ids, tid := ⟨0, 3, 0⟩, pcw := 0, ea := va, size := h.size, data := h.data, cmp := h.cmp, mode := 0 }] }

theorem hostReq_op {s : State} {h : HostAcc} {ctx va : Nat} {l : HomeLoc} (hop : h.op < 2) :
    (hostReq s h ctx va l).op = (if h.op = 0 then .load false else .store) ∧ (hostReq s h ctx va l).event = (if h.op = 0 then .remoteRead else .writeRequest) := by
  rcases (by omega : h.op = 0 ∨ h.op = 1) with h0 | h1
  · simp [MemReq.event, hostReq, hostOp, h0]
  · simp [MemReq.event, hostReq, hostOp, h1]

theorem hostSend_located {s : State} {h : HostAcc} {ctx va : Nat} {l : HomeLoc} (hloc : s.hostLoc h = some (ctx, va, l)) (hop : h.op < 2) :
    let t := s.hostSend h
    t.hostq = s.hostq ∧ t.mem = s.mem ∧ t.replies = s.replies ∧ Sent t ⟨(hostReq s h ctx va l).event, .req (hostReq s h ctx va l)⟩ l.chip l.core := by
  have hsend : s.hostSend h = ({ s with hostOut := if h.op = 1 then s.hostOut ++ [(s.ids, h.id)] else s.hostOut } : State).fresh.send hostCore l.chip l.core
      (hostReq s h ctx va l).event (.req (hostReq s h ctx va l)) := by
    rw [State.hostSend, hloc]
    dsimp only
    rw [if_neg (by omega)]
    split <;> rfl
  rw [hsend]
  generalize (if h.op = 1 then s.hostOut ++ [(s.ids, h.id)] else s.hostOut) = out
  obtain ⟨_, _, _, hframe⟩ := send_frame ({ s with hostOut := out } : State).fresh hostCore l.chip l.core (hostReq s h ctx va l).event (.req (hostReq s h ctx va l))
  exact ⟨by rw [hframe]; rfl, by rw [hframe]; rfl, by rw [hframe]; rfl, sent_send ..⟩

theorem hostSends (s : State) (h : HostAcc) (hev : s.ev = .none) (hup : s.linkUp 16 = true) (hq : s.hostq = [h]) (hout : s.hostOut = []) :
    (s.hostLoc h = none → Gives .hostBar2Access s fun t => t.hostq = [] ∧ t.mem = s.mem ∧ (t.link 16).drops = min 65535 ((s.link 16).drops + 1)
        ∧ t.replies = s.replies ++ if h.op = 1 then [] else [⟨1, 0⟩])
      ∧ ∀ ctx va l, s.hostLoc h = some (ctx, va, l) → h.op < 2 → Gives .hostBar2Access s fun t => t.hostq = [] ∧ t.mem = s.mem ∧ t.replies = s.replies
        ∧ ∃ r ml, Sent t ⟨if h.op = 0 then .remoteRead else .writeRequest, .req r⟩ l.chip l.core ∧ r.ctx = ctx ∧ r.home = l.core ∧ r.lanes = [ml]
          ∧ r.op = (if h.op = 0 then .load false else .store) ∧ ml.ea = va ∧ ml.size = h.size ∧ ml.data = h.data := by
  have hexec := exec_hostTurn hev
  rw [hostPump_one hup hq hout] at hexec
  refine ⟨fun hloc => ?_, fun ctx va l hloc hop => ?_⟩
  · obtain ⟨hqueue, hmem, hdrops, hreplies⟩ := dropped_spec (unqueued s) h.op
    rw [hostSend_unlocated (s := unqueued s) hloc, asksTurn_idle hqueue] at hexec
    exact ⟨_, hexec, hqueue, hmem, hdrops, hreplies⟩
  · obtain ⟨hqueue, hmem, hreplies, hsent⟩ := hostSend_located (s := unqueued s) hloc hop
    rw [asksTurn_idle hqueue] at hexec
    obtain ⟨hop', hevent⟩ := hostReq_op (s := unqueued s) (ctx := ctx) (va := va) (l := l) hop
    rw [hevent] at hsent
    exact ⟨_, hexec, hqueue, hmem, hreplies, hostReq (unqueued s) h ctx va l, _, hsent, rfl, rfl, rfl, hop', rfl, rfl, rfl⟩

/-! ### The host's answers (R197) -/

theorem verdict_of_grants {s : State} {key : Nat} {p : Page} {rd : Bool} (hp : s.pages.get? key = some p) (hg : Grants p rd false) :
    s.verdict key rd false = .ok p := by
  obtain ⟨hretired, hunmapped, hrehoming, hrd, -⟩ := hg
  have hrights : (rd && !p.rd) = false := by
    cases rd
    · rfl
    · simp [hrd rfl]
  simp [State.verdict, hp, hretired, hunmapped, hrehoming, hrights]

theorem net_trans {s t u : State} (h : Net s t) (h' : Net t u) : Net s u := by
  unfold Net at *; rw [h', h]

theorem net_send (s : State) (src chip dst : Nat) (i : Instr) (a : Arg) : Net s (s.send src chip dst i a) := by
  obtain ⟨_, _, _, h⟩ := send_frame s src chip dst i a
  rw [h]
  rfl

/-- Each lane's answer of some that are sent one after another is on its way. -/
theorem replies_spec (r : MemReq) (i : Instr) (o : State → MLane → ROut) (o' : MLane → ROut) (s : State) (ls : List MLane) (ho : ∀ u, Net s u → ∀ l, o u l = o' l) :
    let t := ls.foldl (fun u l => u.send r.home r.chip r.core i (.resp l.tk l.id (o u l))) s
    Net s t ∧ ∀ l ∈ ls, Answered t i r l (o' l) := by
  induction ls generalizing s with
  | nil => exact ⟨rfl, fun _ h => absurd h List.not_mem_nil⟩
  | cons l ls ih =>
    have hsend := net_send s r.home r.chip r.core i (.resp l.tk l.id (o s l))
    obtain ⟨hnet, hall⟩ := ih _ fun u hu => ho u (net_trans hsend hu)
    have hkeeps := (Mails.foldl (fun u l => mails_send u r.home r.chip r.core i (.resp l.tk l.id (o u l))) ls (s.send r.home r.chip r.core i (.resp l.tk l.id (o s l)))).keeps
    refine ⟨net_trans hsend hnet, fun x hx => ?_⟩
    rcases List.mem_cons.mp hx with rfl | hx
    · rw [Answered, ← ho s rfl x]
      exact sent_mono (sent_send ..) hkeeps
    · exact hall x hx

/-- A read performed at its home answers each lane with its bytes (R186, R189). -/
theorem doReq_load {s : State} {r : MemReq} {sx : Bool} (hop : r.op = .load sx) (k : Nat → Nat) :
    Net s (s.doReq r k) ∧ ∀ l ∈ r.lanes, Answered (s.doReq r k) .readDataResponse r l (.data (loadVal sx l.size (memRdN s.mem (k l.ea) l.size)) 0) := by
  have hdo : s.doReq r k = r.lanes.foldl (fun u l =>
      u.send r.home r.chip r.core .readDataResponse (.resp l.tk l.id (.data (loadVal sx l.size (memRdN u.mem (k l.ea) l.size)) 0))) s := by
    simp only [State.doReq, State.reply, hop]
  rw [hdo]
  exact replies_spec r .readDataResponse (fun u l => .data (loadVal sx l.size (memRdN u.mem (k l.ea) l.size)) 0) _ s r.lanes
    fun u hu l => by rw [show u.mem = s.mem by rw [hu]]

theorem hostRead (s : State) (r : MemReq) (sx : Bool) (l0 : MLane) (h : HomeLoc) (p : Page) (hev : s.ev = .req r) (hup : s.linkUp 16 = true) (hop : r.op = .load sx)
    (hat : AtHome s r l0 h p) (hg : Grants p true false) (hpoison : s.poison = []) :
    Gives .pcieCompletion s fun t => Net s t ∧ ∀ l ∈ r.lanes, Answered t .readDataResponse r l
        (.data (if sx then BitVec.ofInt 64 (sgn (8 * l.size) (memRdN s.mem (at_ s r l0 h p l.ea) l.size)) else W (memRdN s.mem (at_ s r l0 h p l.ea) l.size)) 0) := by
  obtain ⟨hhead, hhome, -, -, hpage, -⟩ := hat
  have hfinish : s.finishHost r = s.doReq r (at_ s r l0 h p) := by
    obtain ⟨ls, hls⟩ : ∃ ls, r.lanes = l0 :: ls := List.head?_eq_some_iff.mp hhead
    have hverdict : s.verdict (h.key r.ctx) r.op.needs.1 r.op.needs.2 = .ok p := by
      rw [hop]
      exact verdict_of_grants hpage hg
    unfold State.finishHost
    rw [hls]
    dsimp only
    rw [hhome]
    dsimp only
    rw [hverdict]
    dsimp only
    rw [hostLost_of_up hup, if_neg Bool.false_ne_true, State.doSound, if_pos hpoison]
    rfl
  have hexec : exec .pcieCompletion s = .next (s.doReq r (at_ s r l0 h p)) := by
    change execPcieCompletion s = _
    rw [execPcieCompletion, hev, ← hfinish]
    simp only [linkTrains_of_up hup, Bool.false_eq_true, if_false]
  exact ⟨_, hexec, doReq_load hop _⟩

theorem hostFlushed (s : State) (tk id h : Nat) (hev : s.ev = .flush tk id h) (hup : s.linkUp 16 = true) :
    (h / 2 ^ 16 = s.chip → Gives .pcieCompletion s fun t => t.mem = s.mem ∧ (t.T tk).g = (s.T tk).g ∧ ∀ a ∈ (t.T tk).pend, a.id = id → a.kind = .flush)
      ∧ (h / 2 ^ 16 ≠ s.chip → Gives .pcieCompletion s fun t => Net s t ∧ Sent t ⟨.ackResponse, .resp tk id .ack⟩ (h / 2 ^ 16) (h % 2 ^ 16)) := by
  have hexec : exec .pcieCompletion s = .next (if h / 2 ^ 16 = s.chip then (s.complete tk id).recheck tk
      else s.send hostCore (h / 2 ^ 16) (h % 2 ^ 16) .ackResponse (.resp tk id .ack)) := by
    change execPcieCompletion s = _
    rw [execPcieCompletion, hev]
    simp only [linkTrains_of_up hup, Bool.false_eq_true, if_false]
  refine ⟨fun hhere => ?_, fun haway => ?_⟩
  · rw [if_pos hhere] at hexec
    have hretested := retested_recheck (s.complete tk id) tk
    refine ⟨_, hexec, hretested.mem.trans (complete_mem ..), by rw [hretested.regs, complete_T], fun a ha hid => ?_⟩
    rcases hretested.pend a ha with ha | ha
    · rw [complete_T] at ha
      exact absurd hid (id_of_mem_pendWithout ha)
    · exact ha
  · rw [if_neg haway] at hexec
    exact ⟨_, hexec, net_send .., sent_send ..⟩

theorem hostPort : Claims.HostPort := ⟨hostArrives, hostSends, hostRead, hostFlushed⟩

/-- Settles O42: each event of a link as one change of its registers; the host port event by event. -/
theorem linksAndHost : Obligations.LinksAndHost := ⟨linkStates, hostPort⟩

end Sys2Proof.Proofs
end

section
/-! SUPPORT. Requests that leave for their homes (08 R185, R192, R194-R197, R207): one request of some lanes, and the requests of a word's groups of lanes. -/

namespace Sys2Proof.Proofs
open Sys2Proof Machine Claims Laws

/-! ### A property that each step of a fold sets up for its element and every step keeps -/

theorem starts_foldl {α : Type} {on : List Nat} {g : State → α → State} {l : List α} (hg : ∀ u, ∀ x ∈ l, Starts on u (g u x)) (s : State) : Starts on s (l.foldl g s) :=
  List.foldlRecOn (motive := Starts on s) l g (.refl on s) fun u hu x hx => hu.trans (hg u x hx)

theorem starts_foldl_each {α : Type} {on : List Nat} {g : State → α → State} {P : α → State → Prop} {l : List α} {s : State} (hg : ∀ u, ∀ x ∈ l, Starts on u (g u x))
    (hset : ∀ u, Starts on s u → ∀ x ∈ l, P x (g u x)) (hkeep : ∀ u x, ∀ y ∈ l, P x u → P x (g u y)) : ∀ x ∈ l, P x (l.foldl g s) := by
  induction l generalizing s with
  | nil => exact fun _ h => absurd h List.not_mem_nil
  | cons y ys ih =>
    have hfirst := hset s (.refl on s) y List.mem_cons_self
    have hys : ∀ z ∈ ys, z ∈ y :: ys := fun _ => List.mem_cons_of_mem _
    intro x hx
    rcases List.mem_cons.mp hx with rfl | hx
    · exact List.foldlRecOn (motive := P x) ys g hfirst fun u hu z hz => hkeep u x z (hys z hz) hu
    · refine ih (fun u z hz => hg u z (hys z hz)) (fun u hu z hz => hset u ?_ z (hys z hz)) (fun u z w hw => hkeep u z w (hys w hw)) x hx
      exact (hg s y List.mem_cons_self).trans hu

/-! ### One request -/

/-- An access of a lane has begun: it is outstanding, held behind the earlier ones that R194-R197 name. -/
def AccBegun (s t : State) (m : MemLane) (id : Nat) (k : AKind) : Prop :=
  ∃ b ∈ (t.T m.l.tk).pend, b.id = id ∧ b.kind = k ∧ b.line = some (m.ea.toNat / 128) ∧ b.pkind = m.e.ord ∧ b.pc = s.iss.pc
    ∧ ∀ b' ∈ (s.T m.l.tk).pend, b'.holds b = true → b'.id ∈ b.held

/-- A request of the issuing core is on its way to a home. -/
def ReqBegun (s t : State) (op : MOp) (h : HomeLoc) (lanes : List MLane) : Prop :=
  ∃ r : MemReq, InTransit t ⟨r.event, .req r⟩ h.chip h.core ∧ r.op = op ∧ r.ctx = s.iss.ctx ∧ r.home = h.core ∧ r.chip = s.chip ∧ r.core = s.iss.core ∧ r.lanes = lanes

theorem AccBegun.later {on : List Nat} {s t u : State} {m : MemLane} {id : Nat} {k : AKind} (h : AccBegun s t m id k) (hu : Starts on t u) : AccBegun s u m id k := by
  obtain ⟨b, hb, hspec⟩ := h
  exact ⟨b, hu.grows _ b hb, hspec⟩

theorem AccBegun.earlier {on : List Nat} {s t u : State} {m : MemLane} {id : Nat} {k : AKind} (h : AccBegun t u m id k) (ht : Starts on s t) : AccBegun s u m id k := by
  obtain ⟨b, hb, hid, hkind, hline, hord, hpc, hheld⟩ := h
  exact ⟨b, hb, hid, hkind, hline, hord, by rw [hpc, ht.iss], fun b' hb' => hheld b' (ht.grows _ b' hb')⟩

theorem ReqBegun.later {on : List Nat} {s t u : State} {op : MOp} {h : HomeLoc} {ls : List MLane} (hr : ReqBegun s t op h ls) (hu : Starts on t u) :
    ReqBegun s u op h ls := by
  obtain ⟨r, hmail, hspec⟩ := hr
  exact ⟨r, hu.mail _ _ _ hmail, hspec⟩

theorem ReqBegun.earlier {on : List Nat} {s t u : State} {op : MOp} {h : HomeLoc} {ls : List MLane} (hr : ReqBegun t u op h ls) (ht : Starts on s t) :
    ReqBegun s u op h ls := by
  obtain ⟨r, hmail, hop, hctx, hhome, hchip, hcore, hlanes⟩ := hr
  exact ⟨r, hmail, hop, by rw [hctx, ht.iss], hhome, by rw [hchip, ht.chip], by rw [hcore, ht.iss], hlanes⟩

/-- The lanes of a request that carries a release annotation do first what precedes a release (R178, R197). -/
def released (s : State) (m0 : MemLane) (k : AKind) (d : Nat) (ls : List (MemLane × MLane)) : State :=
  if (s.acc m0 0 k d 0).rel then ls.foldl (fun s x => s.beforeRelease x.1.l.tk s.ordOf.2) s else s

/-- A store into the host tier is noted in its thread (R197). -/
def noted (m0 : MemLane) (k : AKind) (s : State) (x : MemLane × MLane) : State :=
  if m0.h.tier = 2 ∧ k = .store then s.modT x.1.l.tk fun t => { t with posted := (t.posted ++ [homeNum m0.h.chip m0.h.core]).eraseDups } else s

/-- One lane's access of a request begins. -/
def startLane (m0 : MemLane) (k : AKind) (d o : Nat) (s : State) (x : MemLane × MLane) : State :=
  (noted m0 k s x).startAcc x.1.l.tk ((noted m0 k s x).acc x.1 x.2.id k d o)

/-- The message of a request to the home of its first lane. -/
def reqOut (core : Nat) (s : State) (op : MOp) (sum : Nat) (fl : Flags) (m0 : MemLane) (ls : List (MemLane × MLane)) : Out :=
  let r : MemReq := { op := op, ctx := s.iss.ctx, home := m0.h.core, chip := s.chip, core := core, lanes := ls.map (·.2), sum := sum, fl := fl }
  { wait := ls.map (·.1.l.tk), chip := m0.h.chip, core := m0.h.core, src := core, ev := ⟨r.event, .req r⟩ }

theorem begun_released (s : State) (m0 : MemLane) (k : AKind) (d : Nat) (ls : List (MemLane × MLane)) : Begun (ls.map (·.1.l.tk)) s (released s m0 k d ls) := by
  unfold released
  refine .ite (.foldl ls (fun u x hx => ?_) s) (.refl _ s)
  exact (begun_beforeRelease u _ _).mono fun j hj => List.mem_singleton.mp hj ▸ List.mem_map_of_mem hx

theorem begun_noted (m0 : MemLane) (k : AKind) (s : State) (x : MemLane × MLane) : Begun [x.1.l.tk] s (noted m0 k s x) := .ite (begun_post ..) (.refl _ s)

theorem begun_startLane (m0 : MemLane) (k : AKind) (d o : Nat) (s : State) (x : MemLane × MLane) : Begun [x.1.l.tk] s (startLane m0 k d o s x) :=
  (begun_noted m0 k s x).trans (begun_startAcc ..)

theorem startLane_accBegun (m0 : MemLane) (k : AKind) (d o : Nat) (s : State) (x : MemLane × MLane) : AccBegun s (startLane m0 k d o s x) x.1 x.2.id k := by
  refine AccBegun.earlier (t := noted m0 k s x) ?_ (begun_noted m0 k s x).toStarts
  exact ⟨_, startAcc_mem .., rfl, rfl, rfl, rfl, rfl, fun b' hb' hholds => mem_heldBehind hb' hholds⟩

theorem sendReq_cons (s : State) (op : MOp) (k : AKind) (d sum : Nat) (fl : Flags) (x0 : MemLane × MLane) (xs : List (MemLane × MLane)) :
    let u := released s x0.1 k d (x0 :: xs)
    s.sendReq op k d sum fl (x0 :: xs) = (x0 :: xs).foldl (startLane x0.1 k d u.ids) (u.newOut (reqOut s.iss.core u op sum fl x0.1 (x0 :: xs))) := rfl

/-- A request: its lanes' accesses begin, and it is on its way. -/
theorem sendReq_spec (s : State) (op : MOp) (k : AKind) (d sum : Nat) (fl : Flags) (x0 : MemLane × MLane) (xs : List (MemLane × MLane)) :
    let t := s.sendReq op k d sum fl (x0 :: xs)
    Begun ((x0 :: xs).map (·.1.l.tk)) s t ∧ ReqBegun s t op x0.1.h ((x0 :: xs).map (·.2)) ∧ ∀ x ∈ x0 :: xs, AccBegun s t x.1 x.2.id k := by
  dsimp only
  rw [sendReq_cons]
  have hrel := begun_released s x0.1 k d (x0 :: xs)
  generalize x0 :: xs = ls at hrel ⊢
  generalize released s x0.1 k d ls = u at hrel ⊢
  have hout := begun_newOut (ls.map (·.1.l.tk)) u (reqOut s.iss.core u op sum fl x0.1 ls)
  have hsent : ReqBegun s (u.newOut (reqOut s.iss.core u op sum fl x0.1 ls)) op x0.1.h (ls.map (·.2)) :=
    ⟨_, inTransit_newOut .., rfl, by rw [← hrel.iss], rfl, by rw [← hrel.chip], rfl, rfl⟩
  generalize u.newOut (reqOut s.iss.core u op sum fl x0.1 ls) = v at hout hsent ⊢
  have hlane (w : State) (x : MemLane × MLane) (hx : x ∈ ls) : Begun (ls.map (·.1.l.tk)) w (startLane x0.1 k d u.ids w x) :=
    (begun_startLane ..).mono fun j hj => List.mem_singleton.mp hj ▸ List.mem_map_of_mem hx
  have hlanes := Begun.foldl ls hlane v
  have hbefore := (hrel.trans hout).toStarts
  refine ⟨(hrel.trans hout).trans hlanes, hsent.later hlanes.toStarts, ?_⟩
  exact starts_foldl_each (P := fun x t => AccBegun s t x.1 x.2.id k) (fun w x hx => (hlane w x hx).toStarts)
    (fun w hw x _ => (startLane_accBegun x0.1 k d u.ids w x).earlier (hbefore.trans hw)) fun w x y hy h => AccBegun.later h (hlane w y hy).toStarts

/-! ### The requests of a word -/

/-- What a word's step sends for a group, whose lanes `lanes` gives: one request of them. -/
def Requests {α : Type} (lanes : α → List MemLane) (op : MOp) (k : AKind) (id size : Nat) (data : State → LaneRef → Nat) (step : State → α → State) : Prop :=
  ∀ u g, ∃ op' d sum fl ls, step u g = u.sendReq op' k d sum fl ls ∧ sameOp op' op ∧ ls.map (·.1) = lanes g
    ∧ ∀ x ∈ ls, ∃ n cmp mode, x.2 = u.mlane x.1 id size n cmp mode ∧ (op = .store → n = data u x.1.l)

/-- A lane's request is on its way to its home (R185, R192, R207). -/
def LaneSent (s t : State) (op : MOp) (id size : Nat) (data : State → LaneRef → Nat) (m : MemLane) : Prop :=
  ∃ r ml, InTransit t ⟨r.event, .req r⟩ m.h.chip m.h.core ∧ sameOp r.op op ∧ r.ctx = s.iss.ctx ∧ r.home = m.h.core ∧ r.chip = s.chip ∧ r.core = s.iss.core
    ∧ ml ∈ r.lanes ∧ ml.tk = m.l.tk ∧ ml.id = id ∧ ml.ea = m.ea.toNat ∧ ml.size = size ∧ ml.tid = (s.rT m.l.tk).tid ∧ (op = .store → ml.data = data s m.l)

theorem LaneSent.later {on : List Nat} {s t u : State} {op : MOp} {id size : Nat} {data : State → LaneRef → Nat} {m : MemLane} (h : LaneSent s t op id size data m)
    (hu : Starts on t u) : LaneSent s u op id size data m := by
  obtain ⟨r, ml, hmail, hspec⟩ := h
  exact ⟨r, ml, hu.mail _ _ _ hmail, hspec⟩

/-- The same, from an earlier state in which the word reads its lanes alike. -/
theorem LaneSent.earlier {s u t : State} {op : MOp} {id size : Nat} {data : State → LaneRef → Nat} {m : MemLane} (h : LaneSent u t op id size data m) (hiss : u.iss = s.iss)
    (hchip : u.chip = s.chip) (htid : (u.rT m.l.tk).tid = (s.rT m.l.tk).tid) (hdata : data u m.l = data s m.l) : LaneSent s t op id size data m := by
  obtain ⟨r, ml, hmail, hop, hctx, hhome, hrchip, hcore, hlanes, htk, hid, hea, hsize, hmtid, hval⟩ := h
  exact ⟨r, ml, hmail, hop, by rw [hctx, hiss], hhome, by rw [hrchip, hchip], by rw [hcore, hiss], hlanes, htk, hid, hea, hsize, hmtid.trans htid,
    fun h => (hval h).trans hdata⟩

/-- The lanes of a group have one home. -/
def OneHome (g : List MemLane) : Prop := ∃ m0 ms, g = m0 :: ms ∧ ∀ m ∈ g, m0.h.chip = m.h.chip ∧ m0.h.core = m.h.core

section
variable {α : Type} {lanes : α → List MemLane} {op : MOp} {k : AKind} {id size : Nat} {data : State → LaneRef → Nat} {step : State → α → State}

theorem requests_step (hstep : Requests lanes op k id size data step) (u : State) {g : α} (hg : OneHome (lanes g)) :
    Begun ((lanes g).map (·.l.tk)) u (step u g) ∧ ∀ m ∈ lanes g, AccBegun u (step u g) m id k ∧ LaneSent u (step u g) op id size data m := by
  obtain ⟨op', d, sum, fl, ls, hsend, hop, hls, hlanes⟩ := hstep u g
  rw [← hls] at hg ⊢
  obtain ⟨m0, ms, hcons, hhome⟩ := hg
  cases ls with
  | nil => cases hcons
  | cons x0 xs =>
    obtain ⟨rfl, -⟩ := List.cons.inj hcons
    obtain ⟨hbegun, ⟨r, hmail, hrop, hctx, hrhome, hchip, hcore, hrlanes⟩, hacc⟩ := sendReq_spec u op' k d sum fl x0 xs
    rw [← hsend] at hbegun hmail hacc
    refine ⟨by rwa [List.map_map], fun m hm => ?_⟩
    obtain ⟨hmchip, hmcore⟩ := hhome m hm
    obtain ⟨x, hx, rfl⟩ := List.mem_map.mp hm
    obtain ⟨n, cmp, mode, hx2, hn⟩ := hlanes x hx
    refine ⟨?_, r, x.2, ?_, hrop ▸ hop, hctx, hrhome.trans hmcore, hchip, hcore, hrlanes ▸ List.mem_map_of_mem hx, ?_⟩
    · have hb := hacc x hx
      rwa [hx2] at hb
    · rwa [← hmchip, ← hmcore]
    · rw [hx2]
      exact ⟨rfl, rfl, rfl, rfl, rfl, hn⟩

/-- The requests of a word's groups: every lane's access begins, and its request is on its way to its home. -/
theorem requests_spec (hstep : Requests lanes op k id size data step) (hdata : ∀ on u v l, Starts on u v → data v l = data u l) {gs : List α}
    (hhome : ∀ g ∈ gs, OneHome (lanes g)) (s : State) :
    Begun ((gs.flatMap lanes).map (·.l.tk)) s (gs.foldl step s)
      ∧ ∀ m ∈ gs.flatMap lanes, AccBegun s (gs.foldl step s) m id k ∧ LaneSent s (gs.foldl step s) op id size data m := by
  have hbegun (u : State) (g : α) (hg : g ∈ gs) : Begun ((gs.flatMap lanes).map (·.l.tk)) u (step u g) := by
    refine (requests_step hstep u (hhome g hg)).1.mono fun j hj => ?_
    obtain ⟨m, hm, rfl⟩ := List.mem_map.mp hj
    exact List.mem_map_of_mem (List.mem_flatMap_of_mem hg hm)
  refine ⟨.foldl gs hbegun s, fun m hm => ?_⟩
  obtain ⟨g, hg, hmg⟩ := List.mem_flatMap.mp hm
  refine starts_foldl_each (P := fun g t => ∀ m ∈ lanes g, AccBegun s t m id k ∧ LaneSent s t op id size data m) (fun u g hg => (hbegun u g hg).toStarts) ?_ ?_ g hg m hmg
  · intro u hu g hg m hm
    obtain ⟨hacc, hsent⟩ := (requests_step hstep u (hhome g hg)).2 m hm
    exact ⟨hacc.earlier hu, hsent.earlier hu.iss hu.chip (hu.rT _).2 (hdata _ _ _ _ hu)⟩
  · intro u g g' hg' h m hm
    have hlater := (hbegun u g' hg').toStarts
    exact ⟨(h m hm).1.later hlater, (h m hm).2.later hlater⟩

end

/-! ### The checks of a word's lanes (R182, R183) -/

/-- The scaled immediate of an address (R182). -/
theorem lmEa_eq (t : Thr) (a o : BitVec 5) (size : Nat) : lmEa t a o size = t.gr a.toNat + o.signExtend 64 * W size := by
  have hsgn : sgn 5 o.toNat = o.toInt := by
    revert o
    decide
  rw [lmEa, hsgn, BitVec.ofInt_mul, BitVec.ofInt_natCast]
  rfl

/-- The checks of one lane, after those of the lanes before it. -/
def checkLane (s : State) (pr : Bool) (size : Nat) (n : Need) (tier : Nat → Bool) (ea : Thr → Word) (c : State × List MemLane) (l : LaneRef) : State × List MemLane :=
  if s.active pr l then
    match s.check l (ea (s.rT l.tk)) size n tier with
    | .ok h e => (c.1, c.2 ++ [⟨l, ea (s.rT l.tk), h, e⟩])
    | .fault x => (c.1.fail l x (ea (s.rT l.tk)) 0, c.2)
    | .probe p => (c.1.drop l (.probe p), c.2)
  else c

theorem checkAll_eq (s : State) (pr : Bool) (size : Nat) (n : Need) (tier : Nat → Bool) (ea : Thr → Word) :
    s.checkAll pr size n tier ea = s.iss.lanes.foldl (checkLane s pr size n tier ea) (s, []) := rfl

theorem checkLanes_ok {s : State} {pr : Bool} {size : Nat} {n : Need} {tier : Nat → Bool} {ea : Thr → Word} {h : LaneRef → HomeLoc} {e : LaneRef → PermE} (u : State)
    {ls : List LaneRef} (acc : List MemLane) (hok : ∀ l ∈ ls.filter (s.active pr), s.check l (ea (s.rT l.tk)) size n tier = .ok (h l) (e l)) :
    ls.foldl (checkLane s pr size n tier ea) (u, acc) = (u, acc ++ (ls.filter (s.active pr)).map fun l => ⟨l, ea (s.rT l.tk), h l, e l⟩) := by
  induction ls generalizing acc with
  | nil => rw [List.filter_nil, List.map_nil, List.append_nil]; rfl
  | cons l ls ih =>
    rw [List.foldl_cons, checkLane]
    by_cases hact : s.active pr l = true
    · rw [List.filter_cons_of_pos hact] at hok ⊢
      rw [if_pos hact, hok l List.mem_cons_self]
      dsimp only
      rw [ih _ fun x hx => hok x (List.mem_cons_of_mem _ hx), List.map_cons, List.append_assoc]
      rfl
    · rw [List.filter_cons_of_neg hact] at hok ⊢
      rw [if_neg hact]
      exact ih acc hok

/-- Where every active lane's address passes, no lane leaves the chain. -/
theorem checkAll_ok {s : State} {pr : Bool} {size : Nat} {n : Need} {tier : Nat → Bool} {ea : Thr → Word} {h : LaneRef → HomeLoc} {e : LaneRef → PermE}
    (hok : ∀ l ∈ s.iss.lanes.filter (s.active pr), s.check l (ea (s.rT l.tk)) size n tier = .ok (h l) (e l)) :
    s.checkAll pr size n tier ea = (s, (s.iss.lanes.filter (s.active pr)).map fun l => ⟨l, ea (s.rT l.tk), h l, e l⟩) :=
  (checkAll_eq ..).trans (checkLanes_ok s [] hok)

/-- What the accesses of a word leave alone. -/
theorem Starts.memFrame {on : List Nat} {s t : State} (h : Starts on s t) : MemFrame s t.endWord := by
  refine ⟨h.mem, ?_, ?_, ?_, h.chip, ?_, h.crews⟩
  · rw [h.frame]; rfl
  · rw [h.frame]; rfl
  · rw [h.frame]; rfl
  · rw [← h.iss]; rfl

end Sys2Proof.Proofs
end

section
/-! FENCE and WAITW (08 R215-R217): what a fence waits for in each lane, and the watches of a word's lanes. -/

namespace Sys2Proof.Proofs
open Sys2Proof Machine Claims Laws

/-! ### Bound ranges are kept by what a crew's lanes wait for together (R178) -/

/-- The crews keep their bound ranges. -/
structure BindKept (s t : State) : Prop where
  bind : ∀ c, (t.C c).bind = (s.C c).bind

theorem BindKept.refl (s : State) : BindKept s s := ⟨fun _ => rfl⟩
theorem BindKept.trans {s t u : State} (h : BindKept s t) (h' : BindKept t u) : BindKept s u := ⟨fun c => (h'.bind c).trans (h.bind c)⟩
theorem BindKept.ite {s t u : State} {p : Prop} [Decidable p] (ht : BindKept s t) (hu : BindKept s u) : BindKept s (if p then t else u) := by
  split <;> assumption
theorem BindKept.foldl {α : Type} {g : State → α → State} (hg : ∀ u x, BindKept u (g u x)) (l : List α) (s : State) : BindKept s (l.foldl g s) :=
  List.foldlRecOn (motive := BindKept s) l g (.refl s) fun u hu x _ => hu.trans (hg u x)

theorem bindKept_of_crews {s t : State} (h : t.crews = s.crews) : BindKept s t := ⟨fun c => by rw [State.C, h]; rfl⟩

theorem bindKept_modC {s : State} {ck : Nat} {f : Crew → Crew} (hf : ∀ c, (f c).bind = c.bind) : BindKept s (s.modC ck f) := by
  refine ⟨fun c => ?_⟩
  rw [oneCrew_modC s ck f c]
  split
  · exact hf _
  · rfl

theorem bindKept_sendDir (s : State) (dir src chip dst : Nat) (i : Instr) (a : Arg) : BindKept s (s.sendDir dir src chip dst i a) :=
  bindKept_of_crews (send_crews s src chip dst i a)

theorem bindKept_crewTests (s : State) (ck : Nat) : BindKept s (s.crewTests ck) := by
  have hbar : BindKept s (s.barTest ck) := by
    unfold State.barTest
    refine .foldl (fun u b => .ite (BindKept.trans ?_ (bindKept_of_crews (send_crews ..))) (.refl u)) _ s
    exact bindKept_modC fun _ => rfl
  have htempo (u : State) : BindKept u (u.tempoTest ck) := by
    unfold State.tempoTest
    refine .ite (BindKept.trans ?_ (bindKept_of_crews (send_crews ..))) (.refl u)
    exact bindKept_modC fun _ => rfl
  have hsends (u : State) : BindKept u (u.sendTest ck) := by
    unfold State.sendTest
    refine .foldl (fun v w => .ite (BindKept.trans ?_ (bindKept_sendDir ..)) (.refl v)) _ u
    exact bindKept_modC fun _ => rfl
  have hwdet (u : State) : BindKept u (u.wdetTest ck) := by
    unfold State.wdetTest
    refine .ite (BindKept.trans ?_ (bindKept_of_crews (send_crews ..))) (.refl u)
    exact bindKept_modC fun _ => rfl
  exact ((hbar.trans (htempo _)).trans (hsends _)).trans (hwdet _)

/-! ### FENCE in one lane (R215, R216) -/

/-- A thread whose crew has no marked word to write back. -/
def Unmarked (s : State) (tk : Nat) : Prop := (s.T tk).kind = 2 → ∀ b ∈ (s.C (ckOfTk tk)).bind, b.wb = true → b.marks = []

/-- Two states that differ in the table of crews, but in no crew. -/
def SameCrews (s t : State) : Prop := t = { s with crews := t.crews } ∧ ∀ c, t.C c = s.C c

theorem unmark_bind {l : List Bind} (h : ∀ b ∈ l, b.wb = true → b.marks = []) : (l.map fun b => if b.wb then { b with marks := [] } else b) = l := by
  refine (List.map_congr_left fun b hb => ?_).trans (List.map_id l)
  by_cases hwb : b.wb = true
  · rw [if_pos hwb, ← h b hb hwb]; rfl
  · rw [if_neg hwb]; rfl

/-- A write-back without a marked word stores nothing (R178). -/
theorem writeBack_unmarked {s : State} {tk : Nat} (h : Unmarked s tk) : SameCrews s (s.writeBack tk) := by
  unfold State.writeBack
  dsimp only
  split
  case isTrue => exact ⟨rfl, fun _ => rfl⟩
  case isFalse hkind =>
    have hmarks := h (not_not.mp hkind)
    have hjobs : ((s.C (ckOfTk tk)).bind.flatMap fun b => if b.wb then b.marks.map fun o => (b.va + (o - b.spoff), o) else []) = [] := by
      refine List.flatMap_eq_nil_iff.mpr fun b hb => ?_
      by_cases hwb : b.wb = true
      · rw [if_pos hwb, hmarks b hb hwb]; rfl
      · rw [if_neg hwb]
    rw [hjobs]
    refine ⟨rfl, fun c => (oneCrew_modC s (ckOfTk tk) _ c).trans ?_⟩
    split
    case isTrue hc => subst hc; rw [unmark_bind hmarks]
    case isFalse => rfl

/-- What FENCE does in a lane. -/
def fenceLane (k sc : Nat) (s : State) (l : LaneRef) : State :=
  let s := if k = 1 then s else s.writeBack l.tk
  if sc = 0 then s else (s.block l.tk (.fence k sc)).recheck l.tk

theorem exec_fence {f : FenceF} {s : State} (h : s.staticFault (.fence f) = none) : exec (.fence f) s = .next (s.iss.lanes.foldl (fenceLane f.d.toNat f.s.toNat) s).endWord :=
  word_ok (i := .fence f) (fun s => s.eachLane (fenceLane f.d.toNat f.s.toNat)) h

/-- Whether what a fence waits for is done (R216), flushing reads apart. -/
def fenceMet (k : Nat) (x : Thr) : Bool := if k = 1 then x.noLoads else x.pend.isEmpty

/-- A thread that waits at a fence tested again: its crew is tested first. -/
theorem recheck_fence {s : State} {tk k sc : Nat} (hst : (s.T tk).st = .blocked) (hwait : (s.T tk).wait = .fence k sc) :
    ∃ u, CrewWork s u ∧ BindKept s u ∧ s.recheck tk =
      if fenceMet k (s.T tk) then
        if k ≠ 1 ∧ sc = 5 ∧ (s.T tk).posted ≠ [] then u.flushReads tk else (if k ≠ 2 ∧ 4 ≤ sc then u.dropAway (dieOf (coreOfTk tk)) else u).wake tk
      else u := by
  have hcrew : CrewWork s (if (s.T tk).kind = 2 then s.crewTests (ckOfTk tk) else s) := .ite (crewWork_crewTests ..) (.refl s)
  refine ⟨_, hcrew, .ite (bindKept_crewTests ..) (.refl s), ?_⟩
  have hT := hcrew.T tk
  simp only [State.recheck, hT, Thr.waiting, hst, hwait]
  rfl

/-- What a fence leaves of its lane's thread (R216): nothing at THREAD scope; READY once what it waits for is done; else it waits. -/
def FenceLeft (k sc clock : Nat) (x y : Thr) : Prop :=
  if sc = 0 then y = x
  else if fenceMet k x = true ∧ ¬ (k ≠ 1 ∧ sc = 5 ∧ x.posted ≠ []) then y = { x with st := .ready, wait := .none, readyAt := clock }
  else y.st = .blocked ∧ y.wait = .fence k sc ∧ y.g = x.g ∧ y.pc = x.pc

/-- What a fence in one lane keeps. -/
structure FenceKeeps (on : List Nat) (s t : State) : Prop where
  frame : ThrMsgs s t
  others : ∀ j, j ∉ on → t.T j = s.T j
  bind : BindKept s t

theorem SameCrews.keeps {s t : State} (h : SameCrews s t) (on : List Nat) : FenceKeeps on s t :=
  ⟨by unfold ThrMsgs; rw [h.1], fun j _ => by rw [h.1]; rfl, ⟨fun c => by rw [h.2]⟩⟩

theorem FenceKeeps.trans {on : List Nat} {s t u : State} (h : FenceKeeps on s t) (h' : FenceKeeps on t u) : FenceKeeps on s u :=
  ⟨h.frame.trans h'.frame, fun j hj => (h'.others j hj).trans (h.others j hj), h.bind.trans h'.bind⟩

theorem FenceKeeps.mono {on on' : List Nat} {s t : State} (h : FenceKeeps on s t) (hon : ∀ j ∈ on, j ∈ on') : FenceKeeps on' s t :=
  ⟨h.frame, fun j hj => h.others j fun hj' => hj (hon j hj'), h.bind⟩

theorem OwnThread.fenceKeeps {tk : Nat} {s t : State} (h : OwnThread tk s t) : FenceKeeps [tk] s t :=
  ⟨h.frame, fun j hj => h.others j fun heq => hj (List.mem_singleton.mpr heq), bindKept_of_crews h.crews⟩

theorem ThrMsgs.clockOf {s t : State} (h : ThrMsgs s t) (c : Nat) : t.clockOf c = s.clockOf c := clockOf_of (by rw [h])

theorem ownThread_flushReads (s : State) (tk : Nat) : OwnThread tk s (s.flushReads tk) := by
  rw [flushReads_eq]
  refine OwnThread.trans (t := s.setT tk { s.T tk with posted := [] }) (ownThread_setT rfl rfl) ?_
  refine List.foldlRecOn (motive := OwnThread tk _) _ _ (.refl tk _) fun u hu h _ => hu.trans ?_
  unfold flushRead
  exact (((mails_fresh u).trans (mails_newOut ..)).ownThread tk).trans (ownThread_startAcc ..)

/-- A thread that comes to a fence above THREAD scope. -/
theorem fenceWait_spec {s : State} {tk k sc : Nat} (hsc : sc ≠ 0) (hp : (s.T tk).ptrap = []) :
    let t := (s.block tk (.fence k sc)).recheck tk
    FenceKeeps [tk] s t ∧ FenceLeft k sc (s.clockOf (coreOfTk tk)) (s.T tk) (t.T tk) := by
  have hblock := (ownThread_block s tk (.fence k sc)).fenceKeeps
  have hB : (s.block tk (.fence k sc)).T tk = { s.T tk with st := .blocked, wait := .fence k sc } := by rw [block_eq, T_setT_same]
  obtain ⟨u, hcrew, hbind, hrecheck⟩ := recheck_fence (s := s.block tk (.fence k sc)) (tk := tk) (k := k) (sc := sc) (by rw [hB]) (by rw [hB])
  have hu : FenceKeeps [tk] s u := hblock.trans ⟨hcrew.frame, fun j _ => hcrew.T j, hbind⟩
  have huT : u.T tk = { s.T tk with st := .blocked, wait := .fence k sc } := (hcrew.T tk).trans hB
  have hmet : fenceMet k ((s.block tk (.fence k sc)).T tk) = fenceMet k (s.T tk) := by rw [hB]; rfl
  dsimp only
  rw [hrecheck, hmet, show ((s.block tk (.fence k sc)).T tk).posted = (s.T tk).posted by rw [hB]]
  unfold FenceLeft
  rw [if_neg hsc]
  by_cases hm : fenceMet k (s.T tk) = true
  case neg =>
    rw [if_neg hm, if_neg fun h => hm h.1, huT]
    exact ⟨hu, rfl, rfl, rfl, rfl⟩
  case pos =>
    rw [if_pos hm]
    by_cases hflush : k ≠ 1 ∧ sc = 5 ∧ (s.T tk).posted ≠ []
    case pos =>
      rw [if_pos hflush, if_neg fun h => h.2 hflush]
      have hreads := begun_flushReads u tk
      refine ⟨hu.trans (ownThread_flushReads u tk).fenceKeeps, ?_⟩
      rw [hreads.T, huT]
      exact ⟨rfl, rfl, rfl, rfl⟩
    case neg =>
      rw [if_neg hflush]
      have hdrop : Mails u (if k ≠ 2 ∧ 4 ≤ sc then u.dropAway (dieOf (coreOfTk tk)) else u) := .ite (mails_dropAway ..) (.refl u)
      generalize (if k ≠ 2 ∧ 4 ≤ sc then u.dropAway (dieOf (coreOfTk tk)) else u) = v at hdrop ⊢
      rw [if_pos ⟨hm, hflush⟩]
      have hv : FenceKeeps [tk] s v := hu.trans (hdrop.ownThread tk).fenceKeeps
      have hvT : v.T tk = { s.T tk with st := .blocked, wait := .fence k sc } := (hdrop.T tk).trans huT
      refine ⟨hv.trans (ownThread_wake v tk).fenceKeeps, ?_⟩
      rw [wake_ready (by rw [hvT]; exact hp), T_setT_same, hvT, hv.frame.clockOf]

theorem FenceKeeps.refl (on : List Nat) (s : State) : FenceKeeps on s s := ⟨.refl s, fun _ _ => rfl, .refl s⟩

theorem FenceKeeps.unmarked {on : List Nat} {s t : State} (h : FenceKeeps on s t) {tk : Nat} (htk : tk ∉ on) (hu : Unmarked s tk) : Unmarked t tk := by
  unfold Unmarked
  rw [h.others tk htk, h.bind.bind]
  exact hu

theorem fenceLane_spec {s : State} {l : LaneRef} (k sc : Nat) (hp : (s.T l.tk).ptrap = []) (hu : Unmarked s l.tk) :
    FenceKeeps [l.tk] s (fenceLane k sc s l) ∧ FenceLeft k sc (s.clockOf (coreOfTk l.tk)) (s.T l.tk) ((fenceLane k sc s l).T l.tk) := by
  have hback : SameCrews s (if k = 1 then s else s.writeBack l.tk) := by
    split
    · exact ⟨rfl, fun _ => rfl⟩
    · exact writeBack_unmarked hu
  unfold fenceLane
  generalize (if k = 1 then s else s.writeBack l.tk) = u at hback ⊢
  have hkeeps := hback.keeps [l.tk]
  have hT : u.T l.tk = s.T l.tk := by rw [hback.1]; rfl
  dsimp only
  split
  case isTrue hsc => exact ⟨hkeeps, by rw [FenceLeft, if_pos hsc, hT]⟩
  case isFalse hsc =>
    obtain ⟨hwait, hleft⟩ := fenceWait_spec (k := k) hsc (by rw [hT]; exact hp)
    rw [hT, hkeeps.frame.clockOf] at hleft
    exact ⟨hkeeps.trans hwait, hleft⟩

/-- A fence in the lanes of a list, one after another. -/
theorem fenceLanes_spec (k sc : Nat) {ls : List LaneRef} (hn : (ls.map (·.tk)).Nodup) (s : State) (hp : ∀ l ∈ ls, (s.T l.tk).ptrap = [] ∧ Unmarked s l.tk) :
    let t := ls.foldl (fenceLane k sc) s
    FenceKeeps (ls.map (·.tk)) s t ∧ ∀ l ∈ ls, FenceLeft k sc (s.clockOf (coreOfTk l.tk)) (s.T l.tk) (t.T l.tk) := by
  induction ls generalizing s with
  | nil => exact ⟨.refl _ s, fun _ h => absurd h List.not_mem_nil⟩
  | cons l ls ih =>
    obtain ⟨hl, hn⟩ := List.nodup_cons.mp hn
    obtain ⟨hkeeps, hleft⟩ := fenceLane_spec k sc (hp l List.mem_cons_self).1 (hp l List.mem_cons_self).2
    have hother (x : LaneRef) (hx : x ∈ ls) : x.tk ∉ [l.tk] := fun h => hl (List.mem_map.mpr ⟨x, hx, List.mem_singleton.mp h⟩)
    obtain ⟨hkeeps', hleft'⟩ := ih hn (fenceLane k sc s l) fun x hx => by
      rw [hkeeps.others _ (hother x hx)]
      exact ⟨(hp x (List.mem_cons_of_mem _ hx)).1, hkeeps.unmarked (hother x hx) (hp x (List.mem_cons_of_mem _ hx)).2⟩
    refine ⟨(hkeeps.mono fun j hj => ?_).trans (hkeeps'.mono fun j hj => List.mem_cons_of_mem _ hj), fun x hx => ?_⟩
    · exact List.mem_singleton.mp hj ▸ List.mem_cons_self
    · rcases List.mem_cons.mp hx with rfl | hx
      · rw [List.foldl_cons, hkeeps'.others _ hl]
        exact hleft
      · have hx' := hleft' x hx
        rwa [hkeeps.others _ (hother x hx), hkeeps.frame.clockOf] at hx'

theorem fenceWords (f : FenceF) (s : State) (h : Issues (.fence f) s)
    (hlanes : ∀ l ∈ s.iss.lanes, (s.T l.tk).ptrap = [] ∧ ((s.T l.tk).kind = 2 → ∀ b ∈ (s.C (ckOfTk l.tk)).bind, b.wb = true → b.marks = [])) :
    Gives (.fence f) s fun t => t.mem = s.mem ∧ (∀ tk, tk ∉ s.iss.lanes.map (·.tk) → t.T tk = s.T tk) ∧ ∀ l ∈ s.iss.lanes,
      if f.s = 0 then t.T l.tk = s.T l.tk
      else if (if f.d = 1 then (s.T l.tk).noLoads = true else (s.T l.tk).pend = []) ∧ ¬ (f.d ≠ 1 ∧ f.s = 5 ∧ (s.T l.tk).posted ≠ []) then
        t.T l.tk = { s.T l.tk with st := .ready, wait := .none, readyAt := s.clockOf (coreOfTk l.tk) }
      else (t.T l.tk).st = .blocked ∧ (t.T l.tk).wait = .fence f.d.toNat f.s.toNat ∧ (t.T l.tk).g = (s.T l.tk).g ∧ (t.T l.tk).pc = (s.T l.tk).pc := by
  obtain ⟨hkeeps, hleft⟩ := fenceLanes_spec f.d.toNat f.s.toNat h.2 s hlanes
  refine ⟨_, exec_fence h.1, hkeeps.frame.mem, hkeeps.others, fun l hl => ?_⟩
  have hl' := hleft l hl
  have hd : f.d = 1 ↔ f.d.toNat = 1 := ⟨fun h => by rw [h]; rfl, fun h => BitVec.eq_of_toNat_eq h⟩
  have hs0 : f.s = 0 ↔ f.s.toNat = 0 := ⟨fun h => by rw [h]; rfl, fun h => BitVec.eq_of_toNat_eq h⟩
  have hs5 : f.s = 5 ↔ f.s.toNat = 5 := ⟨fun h => by rw [h]; rfl, fun h => BitVec.eq_of_toNat_eq h⟩
  have hmet : (if f.d.toNat = 1 then (s.T l.tk).noLoads = true else (s.T l.tk).pend = []) ↔ fenceMet f.d.toNat (s.T l.tk) = true := by
    unfold fenceMet
    split
    · exact Iff.rfl
    · exact List.isEmpty_iff.symm
  have hnd : f.d ≠ 1 ↔ f.d.toNat ≠ 1 := not_congr hd
  simp only [hd, hnd, hs0, hs5, hmet]
  exact hl'

/-! ### WAITW (R217) -/

/-- One lane's watch: the lane waits, and its request leaves. -/
def watchLane (f : WaitwF) (size id : Nat) (s : State) (m : MemLane) : State :=
  (s.block m.l.tk .watch).sendReq .watch .watch f.d.toNat 0 0 [(m, s.mlane m id size ((s.rT m.l.tk).gr f.d.toNat).toNat 0 0)]

theorem exec_waitw {f : WaitwF} {s : State} (hok : s.staticFault (.waitw f) = none) : exec (.waitw f) s = .next (let size := if f.s = 1 then 8 else 4
    let c := s.checkAll (f.p == 1) size ⟨true, false, false⟩ (fun _ => true) fun t => lmEa t f.a f.o size
    (c.2.foldl (watchLane f size c.1.ids) c.1.fresh).endWord) := by
  change execWaitw f s = _
  rw [execWaitw, word_ok _ hok]
  rfl

theorem watchLane_spec (f : WaitwF) (size id : Nat) (s : State) (m : MemLane) :
    let t := watchLane f size id s m
    Starts [m.l.tk] s t ∧ ((t.T m.l.tk).st = .blocked ∧ (t.T m.l.tk).wait = .watch) ∧ AccBegun s t m id .watch
      ∧ ReqBegun s t .watch m.h [s.mlane m id size ((s.rT m.l.tk).gr f.d.toNat).toNat 0 0] := by
  have hblock := starts_block s m.l.tk .watch
  obtain ⟨hbegun, hreq, hacc⟩ := sendReq_spec (s.block m.l.tk .watch) .watch .watch f.d.toNat 0 0 (m, s.mlane m id size ((s.rT m.l.tk).gr f.d.toNat).toNat 0 0) []
  refine ⟨hblock.trans hbegun.toStarts, ?_, (hacc _ (List.mem_singleton_self _)).earlier hblock, hreq.earlier hblock⟩
  obtain ⟨hst, hwait⟩ := hbegun.still m.l.tk
  rw [block_eq, T_setT_same] at hst hwait
  exact ⟨hst, hwait⟩

/-- A watch of a lane has begun. -/
def Watching (f : WaitwF) (size id : Nat) (s t : State) (m : MemLane) : Prop :=
  ((t.T m.l.tk).st = .blocked ∧ (t.T m.l.tk).wait = .watch) ∧ AccBegun s t m id .watch
    ∧ ∃ ml, ReqBegun s t .watch m.h [ml] ∧ ml.tk = m.l.tk ∧ ml.ea = m.ea.toNat ∧ ml.size = size ∧ ml.data = ((s.rT m.l.tk).gr f.d.toNat).toNat

theorem watchLanes_spec (f : WaitwF) (size id : Nat) (ms : List MemLane) (s : State) :
    let t := ms.foldl (watchLane f size id) s
    Starts (ms.map (·.l.tk)) s t ∧ ∀ m ∈ ms, Watching f size id s t m := by
  have hstep (u : State) (m : MemLane) (hm : m ∈ ms) : Starts (ms.map (·.l.tk)) u (watchLane f size id u m) :=
    (watchLane_spec f size id u m).1.mono fun j hj => List.mem_singleton.mp hj ▸ List.mem_map_of_mem hm
  refine ⟨starts_foldl hstep s, starts_foldl_each (P := fun m t => Watching f size id s t m) hstep (fun u hu m _ => ?_) fun u m m' hm' h => ?_⟩
  · obtain ⟨-, hwait, hacc, hreq⟩ := watchLane_spec f size id u m
    exact ⟨hwait, hacc.earlier hu, _, hreq.earlier hu, rfl, rfl, rfl, by rw [← (hu.rT _).1]; rfl⟩
  · obtain ⟨hwait, hacc, ml, hreq, hml⟩ := h
    obtain ⟨hstarts, hwait', -, -⟩ := watchLane_spec f size id u m'
    refine ⟨?_, hacc.later hstarts, ml, hreq.later hstarts, hml⟩
    by_cases htk : m.l.tk = m'.l.tk
    · rwa [htk]
    · rwa [hstarts.others _ fun h => htk (List.mem_singleton.mp h)]

theorem waitwWords (f : WaitwF) (s : State) (h : LaneRef → HomeLoc) (e : LaneRef → PermE) (hiss : Issues (.waitw f) s) :
    let size := if f.s = 1 then 8 else 4
    let ea (l : LaneRef) : Word := (s.rT l.tk).gr f.a.toNat + f.o.signExtend 64 * W size
    let act := s.iss.lanes.filter (s.active (f.p == 1))
    (∀ l ∈ act, s.check l (ea l) size ⟨true, false, false⟩ (fun _ => true) = .ok (h l) (e l)) →
    Gives (.waitw f) s fun t => MemFrame s t ∧ (∀ tk, tk ∉ act.map (·.tk) → t.T tk = s.T tk) ∧ ∀ l ∈ act,
      t.T l.tk = { s.T l.tk with st := .blocked, wait := .watch, pend := (t.T l.tk).pend, posted := (t.T l.tk).posted }
      ∧ (∃ b ∈ (t.T l.tk).pend, b.id = s.ids ∧ b.kind = .watch)
      ∧ ∃ r ml, Carried t ⟨.watchRequest, .req r⟩ (h l).chip (h l).core ∧ r.op = .watch ∧ r.home = (h l).core ∧ r.lanes = [ml] ∧ ml.tk = l.tk
        ∧ ml.ea = (ea l).toNat ∧ ml.size = size ∧ ml.data = ((s.rT l.tk).gr f.d.toNat).toNat := by
  intro size ea act hok
  let ms := act.map fun l => (⟨l, ea l, h l, e l⟩ : MemLane)
  have hlanes : ms.map (·.l.tk) = act.map (·.tk) := by rw [List.map_map]; rfl
  have hcheck : s.checkAll (f.p == 1) size ⟨true, false, false⟩ (fun _ => true) (fun t => lmEa t f.a f.o size) = (s, ms) := by
    simp only [lmEa_eq]
    exact checkAll_ok hok
  have hexec : exec (.waitw f) s = .next (ms.foldl (watchLane f size s.ids) s.fresh).endWord := by
    rw [exec_waitw hiss.1]
    dsimp only
    rw [hcheck]
  obtain ⟨hstarts, hall⟩ := watchLanes_spec f size s.ids ms s.fresh
  have hbegun := (begun_fresh (ms.map (·.l.tk)) s).toStarts.trans hstarts
  refine ⟨_, hexec, hbegun.memFrame, fun tk htk => hbegun.others tk (hlanes ▸ htk), fun l hl => ?_⟩
  obtain ⟨⟨hst, hwait⟩, ⟨b, hb, hid, hkind, -⟩, ml, ⟨r, hmail, hop, -, hhome, -, -, hrlanes⟩, htk, hea, hsize, hdata⟩ := hall _ (List.mem_map_of_mem hl)
  refine ⟨?_, ⟨b, hb, hid, hkind⟩, r, ml, ?_, hop, hhome, hrlanes, htk, hea, hsize, hdata⟩
  · have hthread := hbegun.thread l.tk
    rw [hst, hwait] at hthread
    exact hthread
  · have hevent : r.event = .watchRequest := by rw [MemReq.event, hop]
    rw [← hevent]
    exact hmail.carried

/-- Settles O23: a fence lane by lane, tested as a thread that waits is; the watches of a word's lanes as requests of one lane each. -/
theorem fenceAndWatch : Obligations.FenceAndWatch := ⟨fenceWords, waitwWords⟩

end Sys2Proof.Proofs
end

section
/-! The memory words (08 R182-R185, R189-R192, R204-R208): the groups of a word's lanes, the lock of its destination, and its requests. -/

namespace Sys2Proof.Proofs
open Sys2Proof Machine Claims Laws

/-! ### Groups of lanes (R192, R207) -/

/-- The groups of a list: those that go with the first element, then the groups of the others; the number bounds the groups. -/
def groupBy {α : Type} (same : α → α → Bool) : Nat → List α → List (List α)
  | 0, _ => []
  | _ + 1, [] => []
  | n + 1, m :: t => (m :: t.filter (same m)) :: groupBy same n (t.filter fun x => !same m x)

theorem groupsOf_eq (same : MemLane → MemLane → Bool) (n : Nat) (ms : List MemLane) : groupsOf same n ms = groupBy same n ms := by
  induction n generalizing ms with
  | zero => rfl
  | succ n ih =>
    cases ms with
    | nil => rfl
    | cons m t => simp only [groupsOf, splitGroup, groupBy, ih]

theorem atomGroups_eq (op : Nat) (w64 : Bool) (n : Nat) (ms : List (MemLane × Nat)) : atomGroups op w64 n ms = groupBy (sameGroup op w64) n ms := by
  induction n generalizing ms with
  | zero => rfl
  | succ n ih =>
    cases ms with
    | nil => rfl
    | cons m t => simp only [atomGroups, splitAtom, groupBy, ih]

/-- A group is an element with those that go with it. -/
theorem groupBy_head {α : Type} {same : α → α → Bool} {n : Nat} {ms g : List α} (hg : g ∈ groupBy same n ms) : ∃ m t, g = m :: t ∧ ∀ x ∈ t, same m x = true := by
  induction n generalizing ms with
  | zero => exact absurd hg List.not_mem_nil
  | succ n ih =>
    cases ms with
    | nil => exact absurd hg List.not_mem_nil
    | cons m t =>
      rcases List.mem_cons.mp hg with rfl | hg
      · exact ⟨m, _, rfl, fun x hx => (List.mem_filter.mp hx).2⟩
      · exact ih hg

/-- The groups share out the list. -/
theorem mem_groupBy {α : Type} {same : α → α → Bool} {n : Nat} {ms : List α} (hn : ms.length ≤ n) (x : α) : x ∈ (groupBy same n ms).flatten ↔ x ∈ ms := by
  induction n generalizing ms with
  | zero => rw [List.length_eq_zero_iff.mp (Nat.le_zero.mp hn)]; rfl
  | succ n ih =>
    cases ms with
    | nil => rfl
    | cons m t =>
      have hrest : (t.filter fun x => !same m x).length ≤ n := (List.length_filter_le ..).trans (Nat.le_of_succ_le_succ hn)
      rw [groupBy, List.flatten_cons, List.mem_append, ih hrest, List.mem_cons, List.mem_cons, List.mem_filter, List.mem_filter, or_assoc, ← and_or_left]
      cases same m x <;> simp

/-! ### The lock of the destination (R56) -/

/-- The lock that a word with some active lanes leaves in an issuing lane: without one, it is delivered at once. -/
def destLock (s : State) (act : List LaneRef) (d regs la : Nat) (l : LaneRef) : Lock :=
  { id := s.ids, d := d, regs := regs, left := la, active := act.contains l
    due := if act = [] then some (s.clockOf s.iss.core) else none, val := if s.mz ∧ l ∉ act then some 0 else none, fl := 0 }

theorem lock_eq {s : State} {act : List LaneRef} (hact : act ⊆ s.iss.lanes) (d regs la : Nat) (l : LaneRef) :
    lockOf s.ids d regs la (act.contains l) (if act.contains l || s.iss.lanes.any act.contains then none else some (s.clockOf s.iss.core))
        (if !act.contains l && s.mz then some 0 else none) = destLock s act d regs la l := by
  have hdue : (act.contains l || s.iss.lanes.any act.contains) = true ↔ act ≠ [] := by
    rw [Bool.or_eq_true, List.any_eq_true]
    constructor
    · rintro (h | ⟨x, -, h⟩) rfl <;> cases h
    · intro h
      obtain ⟨x, hx⟩ := List.exists_mem_of_ne_nil act h
      exact .inr ⟨x, hact hx, List.contains_iff_mem.mpr hx⟩
  have hval : (!act.contains l && s.mz) = true ↔ s.mz = true ∧ l ∉ act := by simp [and_comm]
  unfold lockOf destLock
  congr 1
  · by_cases h : act = []
    · rw [if_pos h, if_neg fun h' => hdue.mp h' h]
    · rw [if_neg h, if_pos (hdue.mpr h)]
  · simp only [hval]

theorem find_lane_none {lanes : List LaneRef} {tk : Nat} (h : tk ∉ lanes.map (·.tk)) : lanes.find? (·.tk == tk) = none :=
  List.find?_eq_none.mpr fun x hx heq => h (List.mem_map.mpr ⟨x, hx, beq_iff_eq.mp heq⟩)

/-- A word that takes its number and locks its destination changes the issuing lanes' locks. -/
theorem lockLanes_act {s : State} {act : List LaneRef} (hact : act ⊆ s.iss.lanes) (hn : (s.iss.lanes.map (·.tk)).Nodup) (d regs la : Nat) :
    let u := s.fresh.lockLanes s.ids d regs la act.contains
    u = { s with thr := u.thr, ids := s.ids + 1 } ∧ (∀ tk, tk ∉ s.iss.lanes.map (·.tk) → u.T tk = s.T tk)
      ∧ ∀ l ∈ s.iss.lanes, u.T l.tk = { s.T l.tk with locks := (s.T l.tk).locks ++ [destLock s act d regs la l] } := by
  obtain ⟨honly, hthr⟩ := lockLanes_threads s.fresh s.ids d regs la act.contains hn
  refine ⟨honly, fun tk htk => ?_, fun l hl => ?_⟩
  · rw [hthr, show s.fresh.iss.lanes.find? (·.tk == tk) = none from find_lane_none htk]
    rfl
  · rw [hthr, show s.fresh.iss.lanes.find? (·.tk == l.tk) = some l from find_lane hn hl, ← lock_eq hact]
    rfl

/-- The state in which a memory word with some active lanes has taken its number and locked its destination. -/
def lockedFor (w : MemWord) (s : State) (act : List LaneRef) : State :=
  if w.regs = 0 then s.fresh else s.fresh.lockLanes s.ids w.d w.regs w.look act.contains

/-- The lock that a memory word leaves in an issuing lane. -/
def memLocks (w : MemWord) (s : State) (act : List LaneRef) (l : LaneRef) : List Lock := if w.regs = 0 then [] else [destLock s act w.d w.regs w.look l]

/-- The locked state differs in the issuing lanes' locks and in the numbers given. -/
theorem lockedFor_spec (w : MemWord) {s : State} {act : List LaneRef} (hact : act ⊆ s.iss.lanes) (hn : (s.iss.lanes.map (·.tk)).Nodup) :
    let u := lockedFor w s act
    u = { s with thr := u.thr, ids := s.ids + 1 } ∧ (∀ tk, tk ∉ s.iss.lanes.map (·.tk) → u.T tk = s.T tk)
      ∧ ∀ l ∈ s.iss.lanes, u.T l.tk = { s.T l.tk with locks := (s.T l.tk).locks ++ memLocks w s act l } := by
  unfold lockedFor memLocks
  by_cases hregs : w.regs = 0
  · simp only [if_pos hregs, List.append_nil]
    exact ⟨rfl, fun _ _ => rfl, fun _ _ => rfl⟩
  · simp only [if_neg hregs]
    exact lockLanes_act hact hn w.d w.regs w.look

/-- The word reads its lanes' registers and identity as before it locked them. -/
theorem lockedFor_rT (w : MemWord) {s : State} {act : List LaneRef} (hact : act ⊆ s.iss.lanes) (hn : (s.iss.lanes.map (·.tk)).Nodup) {l : LaneRef} (hl : l ∈ s.iss.lanes) :
    ((lockedFor w s act).rT l.tk).gr = (s.rT l.tk).gr ∧ ((lockedFor w s act).rT l.tk).tid = (s.rT l.tk).tid := by
  obtain ⟨hframe, -, hlocked⟩ := lockedFor_spec w hact hn
  have hiss : (lockedFor w s act).iss = s.iss := by rw [hframe]
  unfold State.rT
  rw [hiss]
  cases s.iss.pre with
  | none => dsimp only; rw [hlocked l hl]; exact ⟨rfl, rfl⟩
  | some p => exact ⟨rfl, rfl⟩

/-! ### Words that lock and send (R185, R192, R207) -/

/-- A lane's datum: its register D (R182). -/
def laneDatum (w : MemWord) (s : State) (l : LaneRef) : Nat := ((s.rT l.tk).gr w.d).toNat

/-- What a memory word leaves that locks its destination and sends a request for each of some lanes. -/
def LocksAndSends (w : MemWord) (s t : State) (act : List LaneRef) (ms : List MemLane) : Prop :=
  Begun (act.map (·.tk)) (lockedFor w s act) t
    ∧ ∀ m ∈ ms, AccBegun (lockedFor w s act) t m s.ids w.kind ∧ LaneSent (lockedFor w s act) t w.op s.ids w.size (laneDatum w) m

/-- The lanes of a word, as its checks leave them. -/
def memLanes (w : MemWord) (s : State) (h : LaneRef → HomeLoc) (e : LaneRef → PermE) (act : List LaneRef) : List MemLane := act.map fun l => ⟨l, w.ea s l, h l, e l⟩

theorem memLanes_tk (w : MemWord) (s : State) (h : LaneRef → HomeLoc) (e : LaneRef → PermE) (act : List LaneRef) : (memLanes w s h e act).map (·.l.tk) = act.map (·.tk) := by
  rw [memLanes, List.map_map]; rfl

/-- Requests of groups that share out a word's lanes, each with one home. -/
theorem locksAndSends {α : Type} {lanes : α → List MemLane} {w : MemWord} {s : State} {h : LaneRef → HomeLoc} {e : LaneRef → PermE} {act : List LaneRef}
    {step : State → α → State} {gs : List α} (hstep : Requests lanes w.op w.kind s.ids w.size (laneDatum w) step) (hhome : ∀ g ∈ gs, OneHome (lanes g))
    (hmem : ∀ m, m ∈ gs.flatMap lanes ↔ m ∈ memLanes w s h e act) :
    LocksAndSends w s (gs.foldl step (lockedFor w s act)) act (memLanes w s h e act) := by
  obtain ⟨hbegun, hall⟩ := requests_spec hstep (fun _ u v l huv => by rw [laneDatum, (huv.rT _).1]; rfl) hhome (lockedFor w s act)
  refine ⟨hbegun.mono fun j hj => ?_, fun m hm => hall m ((hmem m).mpr hm)⟩
  obtain ⟨m, hm, rfl⟩ := List.mem_map.mp hj
  rw [← memLanes_tk w s h e]
  exact List.mem_map_of_mem ((hmem m).mp hm)

/-- One request for each lane by itself. -/
theorem oneHome_singleton (m : MemLane) : OneHome [m] := ⟨m, [], rfl, fun _ hx => by rw [List.mem_singleton.mp hx]; exact ⟨rfl, rfl⟩⟩

/-! ### Loads (R189, R190) -/

theorem loadLane_unsealed {s : State} {k : LoadKind} {m : MemLane} (hs : m.e.s = false) (d size id : Nat) :
    s.loadLane k d size id m = s.sendReq (.load k.sx) .load d 0 0 [(m, s.mlane m id size 0 0 0)] := by
  unfold State.loadLane
  rw [hs]
  rfl

/-- The lanes of a list made of some lanes are these. -/
theorem any_lane {α : Type} {lane : α → LaneRef} {mk : LaneRef → α} (h : ∀ l, lane (mk l) = l) (act : List LaneRef) :
    (fun l => (act.map mk).any fun x => lane x == l) = act.contains := by
  funext l
  rw [List.any_map, List.contains_eq_any_beq, Bool.eq_iff_iff, List.any_eq_true, List.any_eq_true]
  exact exists_congr fun x => and_congr_right fun _ => by rw [Function.comp_apply, h, beq_iff_eq, beq_iff_eq, eq_comm]

theorem memLanes_any (w : MemWord) (s : State) (h : LaneRef → HomeLoc) (e : LaneRef → PermE) (act : List LaneRef) :
    (fun l => (memLanes w s h e act).any (·.l == l)) = act.contains := any_lane (lane := MemLane.l) (fun _ => rfl) act

theorem gbit_ne_zero (n : Nat) : gbit n ≠ 0 := Nat.two_pow_pos n |>.ne'

theorem lockedFor_of_regs {w : MemWord} {s : State} {act : List LaneRef} (h : w.regs ≠ 0) : lockedFor w s act = s.fresh.lockLanes s.ids w.d w.regs w.look act.contains :=
  if_neg h

/-- The issuing lanes set to what they are. -/
theorem set_lanes_self {u : State} {ls : List LaneRef} (h : u.iss.lanes = ls) : ({ u with iss := { u.iss with lanes := ls } } : State) = u := by
  subst h
  rfl

/-- The requests of a load word none of whose lanes departs. -/
theorem gload_stays {s : State} {f : LmF} {k : LoadKind} {ms : List MemLane} (hn : (s.iss.lanes.map (·.tk)).Nodup)
    (hcheck : s.checkAll (f.p == 1) (2 ^ f.s.toNat) ⟨true, false, k.strict⟩ (fun _ => true) (fun t => lmEa t f.a f.o (2 ^ f.s.toNat)) = (s, ms))
    (hstay : ∀ m ∈ ms, s.migrates k m = false) :
    s.gload f k = ms.foldl (fun s' m => s'.loadLane k f.d.toNat (2 ^ f.s.toNat) s.ids m)
      (s.fresh.lockLanes s.ids f.d.toNat (gbit f.d.toNat) f.l.toNat fun l => ms.any (·.l == l)) := by
  have hgo : ms.filter (s.migrates k) = [] := List.filter_eq_nil_iff.mpr fun m hm => by rw [hstay m hm]; exact Bool.false_ne_true
  have hall : (ms.filter fun m => !s.migrates k m) = ms := List.filter_eq_self.mpr fun m hm => by rw [hstay m hm]; rfl
  have hlanes : s.fresh.iss.lanes.filter (fun l => !([] : List MemLane).any (·.l == l)) = s.fresh.iss.lanes := List.filter_eq_self.mpr fun _ _ => rfl
  have hlocked := (lockLanes_threads s.fresh s.ids f.d.toNat (gbit f.d.toNat) f.l.toNat (fun l => ms.any (·.l == l)) hn).1.iss
  unfold State.gload
  dsimp only
  rw [hcheck]
  dsimp only
  rw [hgo, hall, List.foldl_nil, hlanes, set_lanes_self rfl, set_lanes_self (by rw [hlocked])]

/-- The row of a load word. -/
def loadRow (f : LmF) (k : LoadKind) : MemWord := (memWord.load f k.sx k.strict).get rfl

/-- The lanes of a load that stay and read at their homes lock and send. -/
theorem gload_sends {s : State} {f : LmF} {k : LoadKind} {h : LaneRef → HomeLoc} {e : LaneRef → PermE} (hn : (s.iss.lanes.map (·.tk)).Nodup) :
    let w := loadRow f k
    let act := s.iss.lanes.filter (s.active (w.p == 1))
    (∀ l ∈ act, okAt w s l (h l) (e l)) → (∀ m ∈ memLanes w s h e act, s.migrates k m = false ∧ m.e.s = false) →
    LocksAndSends w s (s.gload f k) act (memLanes w s h e act) := by
  intro w act hok hstay
  have hcheck : s.checkAll (f.p == 1) (2 ^ f.s.toNat) ⟨true, false, k.strict⟩ (fun _ => true) (fun t => lmEa t f.a f.o (2 ^ f.s.toNat)) = (s, memLanes w s h e act) := by
    simp only [lmEa_eq]
    exact checkAll_ok hok
  rw [gload_stays hn hcheck fun m hm => (hstay m hm).1, memLanes_any,
    List.foldl_ext _ (fun s' m => s'.sendReq (.load k.sx) .load f.d.toNat 0 0 [(m, s'.mlane m s.ids (2 ^ f.s.toNat) 0 0 0)]) _
      fun s' m hm => loadLane_unsealed (hstay m hm).2 ..]
  have hlocked : s.fresh.lockLanes s.ids f.d.toNat (gbit f.d.toNat) f.l.toNat act.contains = lockedFor w s act := (lockedFor_of_regs (w := w) (gbit_ne_zero f.d.toNat)).symm
  rw [hlocked]
  refine locksAndSends (lanes := fun m => [m]) (fun u m => ?_) (fun m _ => oneHome_singleton m) fun m => by rw [List.flatMap_singleton']
  exact ⟨.load k.sx, f.d.toNat, 0, 0, [(m, u.mlane m s.ids (2 ^ f.s.toNat) 0 0 0)], rfl, rfl, rfl, fun x hx => by
    rw [List.mem_singleton.mp hx]
    exact ⟨0, 0, 0, rfl, fun h => nomatch h⟩⟩

/-! ### Stores (R191, R192) -/

/-- The row of a store word. -/
def storeRow (f : StF) : MemWord := (memWord.store f).get rfl

theorem gstore_sends {s : State} {f : StF} {comb : Bool} {h : LaneRef → HomeLoc} {e : LaneRef → PermE} :
    let w := storeRow f
    let act := s.iss.lanes.filter (s.active (w.p == 1))
    (∀ l ∈ act, okAt w s l (h l) (e l)) → LocksAndSends w s (s.gstore f comb) act (memLanes w s h e act) := by
  intro w act hok
  have hcheck : s.checkAll (f.p == 1) (2 ^ f.s.toNat) ⟨false, true, false⟩ (fun _ => true) (fun t => lmEa t f.a f.o (2 ^ f.s.toNat)) = (s, memLanes w s h e act) := by
    simp only [lmEa_eq]
    exact checkAll_ok hok
  unfold State.gstore
  dsimp only
  rw [hcheck]
  dsimp only
  rw [groupsOf_eq]
  have hlocked : s.fresh = lockedFor w s act := rfl
  rw [hlocked]
  refine locksAndSends (lanes := id) (fun u g => ?_) (fun g hg => ?_) fun m => by rw [List.flatMap_id, mem_groupBy le_rfl]
  · refine ⟨.store, f.d.toNat, 0, 0, _, rfl, rfl, by rw [List.map_map]; exact List.map_id g, fun x hx => ?_⟩
    obtain ⟨m, -, rfl⟩ := List.mem_map.mp hx
    exact ⟨_, 0, 0, rfl, fun _ => rfl⟩
  · obtain ⟨m, t, rfl, hsame⟩ := groupBy_head hg
    refine ⟨m, t, rfl, fun x hx => ?_⟩
    rcases List.mem_cons.mp hx with rfl | hx
    · exact ⟨rfl, rfl⟩
    · have hline := hsame x hx
      simp only [sameLine, Bool.and_eq_true, beq_iff_eq] at hline
      exact ⟨hline.2.1.2, hline.2.2⟩

/-! ### Atomics and reductions (R204, R207) -/

/-- The row of an atomic (`ret`) or of a reduction: operation, width, destination, address and lookahead. -/
def atomRow (op : Nat) (ret w64 : Bool) (d a la : Nat) : MemWord where
  p := 0
  size := if w64 then 8 else 4
  need := ⟨ret, true, false⟩
  tier := memWord.tiers op
  ea s l := (s.rT l.tk).gr a
  kind := if ret then .atom else .store
  op := .atom op w64 ret false
  regs := if ret then gbit d ||| (if atomFloat op then flagsBit else 0) else 0
  d := d
  look := la

theorem wide_iff (t : BitVec 1) : decide (t.toNat = 1) = decide (t = 1) := by
  revert t
  decide

theorem memWord_atom (f : AtomF) {op : Nat} (hop : op ≤ 13) : memWord.atom f op = some (atomRow op true (decide (f.t.toNat = 1)) f.d.toNat f.a.toNat f.l.toNat) := by
  have hfloat : atomFloat op = decide (op = 1 ∨ 11 ≤ op) := by
    unfold atomFloat
    grind
  rw [wide_iff]
  simp only [memWord.atom, atomRow, hfloat, decide_eq_true_eq, if_true]

theorem memWord_red (f : RedF) (op : Nat) : memWord.red f op = some (atomRow op false (decide (f.t.toNat = 1)) 0 f.a.toNat 0) := by
  rw [wide_iff]
  simp only [memWord.red, atomRow, decide_eq_true_eq, Bool.false_eq_true, if_false]

theorem tiers_eq (op : Nat) : (fun tier => decide (tier ≠ 2) || op == 0 || op == 7 || op == 8) = memWord.tiers op := by
  funext tier
  simp only [memWord.tiers, Bool.decide_or, Bool.or_assoc]
  rfl

/-- A combining group's trees give every lane its value. -/
theorem combTrees_length (w64 ret : Bool) (mode : Nat) (g : List (Nat × Nat)) : (combTrees w64 ret mode g).2.1.length = g.length := List.length_map ..

theorem zip_lanes {g : List (MemLane × Nat)} {es : List Nat} (h : g.length ≤ es.length) : (g.zip es).map (fun x => x.1.1) = g.map (·.1) := by
  conv_rhs => rw [← List.map_fst_zip h, List.map_map]
  rfl

/-- The requests of an atomic word's groups. -/
theorem sendGroup_requests (op d id : Nat) (w64 ret : Bool) (data : State → LaneRef → Nat) :
    Requests (List.map (·.1)) (.atom op w64 ret false) (if ret then .atom else .store) id (if w64 then 8 else 4) data fun s g => s.sendGroup op d w64 ret id g := by
  intro u g
  unfold State.sendGroup
  dsimp only
  split
  case isTrue =>
    cases g with
    | nil => exact ⟨.atom op w64 ret true, d, 0, 0, [], rfl, ⟨rfl, rfl, rfl⟩, rfl, fun x hx => absurd hx List.not_mem_nil⟩
    | cons m g =>
      dsimp only
      refine ⟨.atom op w64 ret true, d, _, _, _, rfl, ⟨rfl, rfl, rfl⟩, ?_, fun x hx => ?_⟩
      · rw [List.map_map]
        exact zip_lanes (by rw [combTrees_length, List.length_map])
      · obtain ⟨y, -, rfl⟩ := List.mem_map.mp hx
        exact ⟨_, _, _, rfl, fun h => nomatch h⟩
  case isFalse =>
    refine ⟨.atom op w64 ret _, d, 0, 0, _, rfl, ⟨rfl, rfl, rfl⟩, ?_, fun x hx => ?_⟩
    · rw [List.map_map]
      rfl
    · obtain ⟨y, -, rfl⟩ := List.mem_map.mp hx
      exact ⟨_, _, _, rfl, fun h => nomatch h⟩

theorem atomWord_sends {s : State} {op : Nat} {ret : Bool} {d a b t la : Nat} {h : LaneRef → HomeLoc} {e : LaneRef → PermE} :
    let w := atomRow op ret (decide (t = 1)) d a la
    let act := s.iss.lanes.filter (s.active (w.p == 1))
    (∀ l ∈ act, okAt w s l (h l) (e l)) → LocksAndSends w s (s.atomWord op ret d a b t la) act (memLanes w s h e act) := by
  intro w act hok
  have hcheck : s.checkAll false (if decide (t = 1) then 8 else 4) ⟨ret, true, false⟩ (memWord.tiers op) (fun x => x.gr a) = (s, memLanes w s h e act) := checkAll_ok hok
  have hlocked : (if ret then s.fresh.lockLanes s.ids d (gbit d ||| (if atomFloat op then flagsBit else 0)) la act.contains else s.fresh) = lockedFor w s act := by
    cases ret with
    | false => rfl
    | true => exact (lockedFor_of_regs (w := w) fun h0 => gbit_ne_zero d (Nat.or_eq_zero_iff.mp h0).1).symm
  unfold State.atomWord
  dsimp only
  rw [tiers_eq, hcheck]
  dsimp only
  rw [memLanes_any, hlocked, atomGroups_eq]
  refine locksAndSends (sendGroup_requests op d s.ids _ ret _) (fun g hg => ?_) fun m => ?_
  · obtain ⟨x, t, rfl, hsame⟩ := groupBy_head hg
    refine ⟨x.1, t.map (·.1), rfl, fun m hm => ?_⟩
    obtain ⟨y, hy, rfl⟩ := List.mem_map.mp hm
    rcases List.mem_cons.mp hy with rfl | hy
    · exact ⟨rfl, rfl⟩
    · have hgroup := hsame y hy
      simp only [sameGroup, Bool.and_eq_true, beq_iff_eq] at hgroup
      exact ⟨hgroup.1.1.2, hgroup.1.2⟩
  · rw [List.flatMap_def, ← List.map_flatten, List.mem_map]
    simp only [mem_groupBy le_rfl]
    rw [← List.mem_map, List.map_map]
    exact iff_of_eq (congrArg (m ∈ ·) (List.map_id _))

/-! ### The memory words -/

theorem migrates_roaming {s : State} {k : LoadKind} (m : MemLane) (h : k.nm = false) :
    s.migrates k m = (s.roaming && !m.e.s && !(m.h.chip == s.chip && m.h.core == s.iss.core) && (s.rT m.l.tk).frames.isEmpty) := by
  rw [State.migrates, h, Bool.not_false, Bool.and_true]

theorem migrates_never {s : State} {k : LoadKind} (m : MemLane) (h : k.nm = true) : s.migrates k m = false := by
  rw [State.migrates, h, Bool.not_true, Bool.and_false, Bool.false_and, Bool.false_and, Bool.false_and]

/-- Lanes that do not depart, on pages that are not sealed, read at their homes (R185). -/
theorem stays_of {s : State} {k : LoadKind} {w : MemWord} {i : Instr} {h : LaneRef → HomeLoc} {e : LaneRef → PermE} {act : List LaneRef} (hk : w.kind = .load)
    (hdep : ∀ m : MemLane, s.migrates k m = departs s i m.l m.h m.e) (hgo : ∀ l ∈ act, departs s i l (h l) (e l) = false ∧ cached w (e l) = false) :
    ∀ m ∈ memLanes w s h e act, s.migrates k m = false ∧ m.e.s = false := by
  intro m hm
  obtain ⟨l, hl, rfl⟩ := List.mem_map.mp hm
  obtain ⟨hdeparts, hcached⟩ := hgo l hl
  rw [cached, hk] at hcached
  exact ⟨(hdep _).trans hdeparts, hcached⟩

/-- Each memory word locks its destination and sends its lanes' requests. -/
theorem exec_memWord {i : Instr} {w : MemWord} {s : State} {h : LaneRef → HomeLoc} {e : LaneRef → PermE} (hi : memWord i = some w) (hiss : Issues i s) :
    let act := s.iss.lanes.filter (s.active (w.p == 1))
    (∀ l ∈ act, okAt w s l (h l) (e l) ∧ departs s i l (h l) (e l) = false ∧ cached w (e l) = false) →
    ∃ t, exec i s = .next t.endWord ∧ LocksAndSends w s t act (memLanes w s h e act) := by
  intro act hall
  obtain ⟨hok, hn⟩ := hiss
  have hchecks : ∀ l ∈ act, okAt w s l (h l) (e l) := fun l hl => (hall l hl).1
  have hgo : ∀ l ∈ act, departs s i l (h l) (e l) = false ∧ cached w (e l) = false := fun l hl => (hall l hl).2
  cases i
  case ld f =>
    obtain rfl : loadRow f ⟨false, false, false, true⟩ = w := Option.some.inj hi
    exact ⟨_, word_ok (fun s => s.gload f _) hok, gload_sends hn hchecks (stays_of rfl (fun m => migrates_roaming m rfl) hgo)⟩
  case ldsx f =>
    obtain rfl : loadRow f ⟨true, false, false, true⟩ = w := Option.some.inj hi
    exact ⟨_, word_ok (fun s => s.gload f _) hok, gload_sends hn hchecks (stays_of rfl (fun m => migrates_roaming m rfl) hgo)⟩
  case ldnm f =>
    obtain rfl : loadRow f ⟨false, true, false, true⟩ = w := Option.some.inj hi
    exact ⟨_, word_ok (fun s => s.gload f _) hok, gload_sends hn hchecks (stays_of rfl (fun m => migrates_never m rfl) hgo)⟩
  case ldr f =>
    obtain rfl : loadRow f ⟨false, true, true, true⟩ = w := Option.some.inj hi
    exact ⟨_, word_ok (fun s => s.gload f _) hok, gload_sends hn hchecks (stays_of rfl (fun m => migrates_never m rfl) hgo)⟩
  case ldrna f =>
    obtain rfl : loadRow f ⟨false, true, true, false⟩ = w := Option.some.inj hi
    exact ⟨_, word_ok (fun s => s.gload f _) hok, gload_sends hn hchecks (stays_of rfl (fun m => migrates_never m rfl) hgo)⟩
  case st f | stnm f =>
    obtain rfl : storeRow f = w := Option.some.inj hi
    exact ⟨_, word_ok (fun s => s.gstore f _) hok, gstore_sends hchecks⟩
  case atomAdd f | atomFadd f | atomMin f | atomMax f | atomAnd f | atomOr f | atomXor f | atomXchg f | atomCas f | atomInc f | atomDec f | atomFmin f | atomFmax f
      | atomFaddComb f =>
    obtain rfl := Option.some.inj ((memWord_atom f (by decide)).symm.trans hi)
    exact ⟨_, word_ok (fun s => s.atomWord _ true _ _ _ _ _) hok, atomWord_sends hchecks⟩
  case redAdd f | redFadd f | redMin f | redMax f | redAnd f | redOr f | redXor f | redInc f | redDec f | redFmin f | redFmax f | redFaddComb f =>
    obtain rfl := Option.some.inj ((memWord_red f _).symm.trans hi)
    exact ⟨_, word_ok (fun s => s.atomWord _ false _ _ _ _ _) hok, atomWord_sends hchecks⟩
  all_goals exact nomatch hi

/-- Settles O15: the requests of each lane begin in the state where the destination is locked, and each begun access stays outstanding, and each message in transit, while
those of the later lanes begin. -/
theorem memoryRequests : Obligations.MemoryRequests := by
  intro i w s h e hi hiss act hall
  obtain ⟨t, hexec, hbegun, hms⟩ := exec_memWord hi hiss hall
  have hact : act ⊆ s.iss.lanes := List.filter_subset_self _
  obtain ⟨hframe, hother, hlocked⟩ := lockedFor_spec w hact hiss.2
  have hissu : (lockedFor w s act).iss = s.iss := by rw [hframe]
  have hchip : (lockedFor w s act).chip = s.chip := by rw [hframe]
  refine ⟨_, hexec, ?_, fun tk htk => ?_, fun l hl => ?_, fun l hl => ?_⟩
  · have hmem := hbegun.memFrame
    rw [hframe] at hmem
    exact hmem
  · have hnot : tk ∉ act.map (·.tk) := fun hmem => htk (List.map_subset _ hact hmem)
    exact (hbegun.others tk hnot).trans (hother tk htk)
  · have hT := hbegun.T l.tk
    rw [hlocked l hl] at hT
    exact hT
  · obtain ⟨⟨b, hb, hid, hkind, hline, hord, hpc, hheld⟩, hsent⟩ := hms ⟨l, w.ea s l, h l, e l⟩ (List.mem_map_of_mem hl)
    have hgr := lockedFor_rT w hact hiss.2 (hact hl)
    obtain ⟨r, ml, hmail, hspec⟩ := hsent.earlier hissu hchip hgr.2 (by rw [laneDatum, hgr.1]; rfl)
    refine ⟨⟨b, hb, hid, hkind, hline, hord, hpc.trans (by rw [hissu]), fun b' hb' => hheld b' ?_⟩, r, ml, hmail.carried, hspec⟩
    rw [hlocked l (hact hl)]
    exact hb'

end Sys2Proof.Proofs
end

section
/-! SUPPORT. The full/empty words of the scratchpad and the banks that serve them (08 R174, R177, R199-R203). -/

namespace Sys2Proof.Proofs
open Sys2Proof Machine Claims Laws

/-! ### Offsets into the share (R177, R198) -/

/-- The check of one lane's offset, after those of the lanes before it. -/
def offsetLane (s : State) (pr : Bool) (size limit : Nat) (ea : Thr → Word) (c : State × List (LaneRef × Nat)) (l : LaneRef) : State × List (LaneRef × Nat) :=
  if s.active pr l then
    if (ea (s.rT l.tk)).toNat % size ≠ 0 then (c.1.fail l .misaligned (ea (s.rT l.tk)) 0, c.2)
    else if limit ≤ (ea (s.rT l.tk)).toNat then (c.1.fail l .permission (ea (s.rT l.tk)) 0, c.2)
    else (c.1, c.2 ++ [(l, (ea (s.rT l.tk)).toNat)])
  else c

theorem offsets_eq (s : State) (pr : Bool) (size limit : Nat) (ea : Thr → Word) :
    s.offsets pr size limit ea = s.iss.lanes.foldl (offsetLane s pr size limit ea) (s, []) := rfl

theorem offsetLanes_ok {s : State} {pr : Bool} {size limit : Nat} {ea : Thr → Word} {ls : List LaneRef} (acc : List (LaneRef × Nat))
    (hok : ∀ l ∈ ls.filter (s.active pr), (ea (s.rT l.tk)).toNat % size = 0 ∧ (ea (s.rT l.tk)).toNat < limit) :
    ls.foldl (offsetLane s pr size limit ea) (s, acc) = (s, acc ++ (ls.filter (s.active pr)).map fun l => (l, (ea (s.rT l.tk)).toNat)) := by
  induction ls generalizing acc with
  | nil => rw [List.filter_nil, List.map_nil, List.append_nil]; rfl
  | cons l ls ih =>
    rw [List.foldl_cons, offsetLane]
    by_cases hact : s.active pr l = true
    · rw [List.filter_cons_of_pos hact] at hok ⊢
      obtain ⟨haligned, hinside⟩ := hok l List.mem_cons_self
      rw [if_pos hact, if_neg (not_not.mpr haligned), if_neg (Nat.not_le.mpr hinside), ih _ fun x hx => hok x (List.mem_cons_of_mem _ hx), List.map_cons, List.append_assoc]
      rfl
    · rw [List.filter_cons_of_neg hact] at hok ⊢
      rw [if_neg hact]
      exact ih acc hok

/-- Where every active lane's offset passes, no lane leaves the chain. -/
theorem offsets_ok {s : State} {a o : BitVec 5} {pr : Bool} {size limit : Nat}
    (hok : ∀ l ∈ s.iss.lanes.filter (s.active pr), ofsOf s a o size l % size = 0 ∧ ofsOf s a o size l < limit) :
    s.offsets pr size limit (fun t => lmEa t a o size) = (s, (s.iss.lanes.filter (s.active pr)).map fun l => (l, ofsOf s a o size l)) := by
  simp only [lmEa_eq]
  exact (offsets_eq ..).trans (offsetLanes_ok [] hok)

theorem sound_clean {x : State × List (LaneRef × Nat)} (h : x.1.poison = []) (wr : Bool) (size : Nat) (key : LaneRef → Nat → Nat) : State.sound x wr size key = x :=
  if_pos h

/-! ### Words reached (R174, R199) -/

/-- The locks of a thread that some loads name, delivered anew at a cycle. -/
def redue (due : Nat) (loads : List (Nat × Nat)) (tk : Nat) (x : Thr) : Thr :=
  { x with locks := x.locks.map fun k => if loads.contains (tk, k.id) ∧ k.due.isSome then { k with due := some due } else k }

/-- The locks of one load, delivered anew. -/
def redueLoad (due : Nat) (s : State) (l : Nat × Nat) : State :=
  s.modT l.1 fun t => { t with locks := t.locks.map fun k => if k.id = l.2 ∧ k.due.isSome = true then { k with due := some due } else k }

theorem redue_cons (due : Nat) (l : Nat × Nat) (loads : List (Nat × Nat)) (tk : Nat) (s : State) :
    redue due loads tk ((redueLoad due s l).T tk) = redue due (l :: loads) tk (s.T tk) := by
  rw [redueLoad, modT_eq, T_setT]
  split
  case isTrue heq =>
    subst heq
    simp only [redue, List.map_map]
    congr 2
    funext k
    simp only [Function.comp_apply, List.contains_cons, Bool.or_eq_true, beq_iff_eq, Prod.ext_iff, true_and]
    by_cases hid : k.id = l.2 <;> by_cases hdue : k.due.isSome = true <;> simp [hid, hdue]
  case isFalse hne =>
    have hother (i : Nat) : (tk, i) ≠ l := fun h => hne (congrArg Prod.fst h)
    simp only [redue, List.contains_cons, Bool.or_eq_true, beq_iff_eq, hother, false_or]

theorem redueLoads_spec (due : Nat) (loads : List (Nat × Nat)) (s : State) :
    ThrOnly s (loads.foldl (redueLoad due) s) ∧ ∀ tk, (loads.foldl (redueLoad due) s).T tk = redue due loads tk (s.T tk) := by
  induction loads generalizing s with
  | nil => exact ⟨rfl, fun tk => by simp [redue]⟩
  | cons l loads ih =>
    obtain ⟨honly, hthr⟩ := ih (redueLoad due s l)
    exact ⟨honly, fun tk => (hthr tk).trans (redue_cons ..)⟩

/-- A word that reaches the banks changes when the rank's loads are delivered. -/
theorem reach_spec (s : State) (words : List Nat) :
    (s.reach words) = { s with thr := (s.reach words).thr, iss := { s.iss with banks := s.iss.banks ++ words } } ∧ ∀ tk, (s.reach words).T tk = reached s words tk (s.T tk) :=
  redueLoads_spec (bankDelivery s words) s.iss.loads { s with iss := { s.iss with banks := s.iss.banks ++ words } }

/-! ### One access (R201) -/

theorem feReady_eq (s : State) (op key : Nat) : s.feReady op key = feGo op s.empt key := by
  unfold State.feReady State.isFull feGo
  rw [Bool.not_not]

/-- An access that proceeds changes its word as R201 says. -/
theorem fePerform_state {s : State} {op key : Nat} (data : Nat) (h : feGo op s.empt key = true) :
    (s.fePerform op key data).1 = { s with mem := (feDo op (s.mem, s.empt) (key, data)).1, empt := (feDo op (s.mem, s.empt) (key, data)).2 } := by
  unfold feDo
  rw [if_pos h]
  match op with
  | 0 =>
    have hfull : s.empt.contains key = false := Bool.not_eq_true' _ ▸ h
    simp only [State.fePerform, State.setFull, hfull, Bool.false_eq_true, if_false, if_true]
  | 1 => rfl
  | _ + 2 => rfl

theorem fePerform_value {s : State} {op : Nat} (hop : op ≠ 1) (key data : Nat) : (s.fePerform op key data).2 = W (memRdN s.mem key 8) := by
  match op with
  | 0 => rfl
  | 1 => exact absurd rfl hop
  | _ + 2 => rfl

/-- An access that waits does nothing. -/
theorem feDo_waits {op : Nat} {m : List Host.Cell × List Nat} {x : Nat × Nat} (h : feGo op m.2 x.1 = false) : feDo op m x = m := by
  rw [feDo, if_neg (ne_true_of_eq_false h)]

/-- The loads change no byte. -/
theorem feDo_mem {op : Nat} (hop : op ≠ 1) (m : List Host.Cell × List Nat) (x : Nat × Nat) : (feDo op m x).1 = m.1 := by
  unfold feDo
  rw [if_neg hop]
  split
  · split <;> rfl
  · rfl

theorem feDos_mem {op : Nat} (hop : op ≠ 1) (m : List Host.Cell × List Nat) (xs : List (Nat × Nat)) : (xs.foldl (feDo op) m).1 = m.1 :=
  List.foldlRecOn (motive := fun m' : List Host.Cell × List Nat => m'.1 = m.1) xs (feDo op) rfl fun m' h x _ => (feDo_mem hop m' x).trans h

/-- Only a store's datum counts. -/
theorem feDo_congr {op : Nat} {x y : Nat × Nat} (hkey : x.1 = y.1) (hdata : op = 1 → x.2 = y.2) (m : List Host.Cell × List Nat) : feDo op m x = feDo op m y := by
  unfold feDo
  rw [hkey]
  by_cases hop : op = 1
  · rw [hdata hop]
  · rw [if_neg hop, if_neg hop]

/-! ### The accesses of a word, lane after lane -/

/-- The key of a scratchpad word in the issuing crew's share. -/
def feKey (s : State) (o : Nat) : Nat := spadKey s.iss.core ((s.C s.ck).spBase + o)

/-- The access that a full/empty load leaves outstanding (R216). -/
def feAcc (s : State) (k : AKind) (id d o : Nat) : Acc := { bankAcc s d o with id := id, kind := k }

/-- The entry of an access that waits at its bank. -/
def feEntry (s : State) (op id : Nat) (l : LaneRef) (o data : Nat) : FeW :=
  { tk := l.tk, id := id, ck := s.ck, key := feKey s o, op := op, data := data, joined := s.clockOf s.iss.core }

/-- A bank's waiting list. -/
def feList (s : State) (b : Nat) : List FeW := (s.fe.get? b).getD []

/-- What full/empty accesses of the threads `on` keep. -/
structure FeKeeps (on : List Nat) (s t : State) : Prop where
  frame : t = { s with mem := t.mem, empt := t.empt, thr := t.thr, crews := t.crews, fe := t.fe, iss := { s.iss with loads := t.iss.loads } }
  crews : ∀ c, t.C c = { s.C c with bind := (t.C c).bind }
  thread : ∀ j, t.T j = { s.T j with st := (t.T j).st, wait := (t.T j).wait, locks := (t.T j).locks, pend := (t.T j).pend }
  others : ∀ j, j ∉ on → t.T j = s.T j
  waits : ∀ b, feList s b ⊆ feList t b
  loads : s.iss.loads ⊆ t.iss.loads

theorem FeKeeps.refl (on : List Nat) (s : State) : FeKeeps on s s :=
  ⟨rfl, fun _ => rfl, fun _ => rfl, fun _ _ => rfl, fun _ => List.Subset.refl _, List.Subset.refl _⟩

theorem FeKeeps.trans {on : List Nat} {s t u : State} (h : FeKeeps on s t) (h' : FeKeeps on t u) : FeKeeps on s u where
  frame := by rw [h'.frame, h.frame]
  crews c := by rw [h'.crews, h.crews]
  thread j := by rw [h'.thread, h.thread]
  others j hj := (h'.others j hj).trans (h.others j hj)
  waits b := List.Subset.trans (h.waits b) (h'.waits b)
  loads := List.Subset.trans h.loads h'.loads

theorem FeKeeps.mono {on on' : List Nat} {s t : State} (h : FeKeeps on s t) (hon : on ⊆ on') : FeKeeps on' s t :=
  { h with others := fun j hj => h.others j fun hj' => hj (hon hj') }

section
variable {on : List Nat} {s t : State}

theorem FeKeeps.core (h : FeKeeps on s t) : t.iss.core = s.iss.core := by rw [h.frame]
theorem FeKeeps.ck (h : FeKeeps on s t) : t.ck = s.ck := by rw [h.frame]; rfl
theorem FeKeeps.pc (h : FeKeeps on s t) : t.iss.pc = s.iss.pc := by rw [h.frame]
theorem FeKeeps.clock (h : FeKeeps on s t) (c : Nat) : t.clockOf c = s.clockOf c := clockOf_of (by rw [h.frame])
theorem FeKeeps.due (h : FeKeeps on s t) : t.bankDue = s.bankDue := by
  unfold State.bankDue
  rw [h.clock, h.core, show t.iss.banks = s.iss.banks by rw [h.frame]]

theorem FeKeeps.key (h : FeKeeps on s t) (o : Nat) : feKey t o = feKey s o := by
  unfold feKey
  rw [h.core, h.ck, h.crews]

theorem FeKeeps.acc (h : FeKeeps on s t) (k : AKind) (id d o : Nat) : feAcc t k id d o = feAcc s k id d o := by
  unfold feAcc bankAcc
  rw [h.pc]

theorem FeKeeps.entry (h : FeKeeps on s t) (op id : Nat) (l : LaneRef) (o data : Nat) : feEntry t op id l o data = feEntry s op id l o data := by
  unfold feEntry
  rw [h.ck, h.key, h.core, h.clock]

/-- The word reads a thread's registers as before. -/
theorem FeKeeps.gr (h : FeKeeps on s t) (j : Nat) : (t.rT j).gr = (s.rT j).gr := by
  unfold State.rT
  rw [show t.iss.pre = s.iss.pre by rw [h.frame]]
  cases s.iss.pre with
  | none => dsimp only; rw [h.thread]; rfl
  | some p => rfl

end

/-- A thread whose load the banks serve: its value, its delivery and its access (R199, R216). -/
def served (id due : Nat) (v : Word) (a : Acc) (x : Thr) : Thr :=
  { x with locks := x.locks.map fun k => if k.id = id then { k with due := some due, val := some v } else k, pend := x.pend ++ [a] }

/-- A thread whose access joins a waiting list: a store blocks it, a load is outstanding. -/
def waiting (op : Nat) (a : Acc) (x : Thr) : Thr := if op = 1 then { x with st := .blocked, wait := .fe } else { x with pend := x.pend ++ [a] }

/-- What a lane's access on the words `m` leaves in `t`, issued in `s` (R201-R203). -/
def FeDone (op d id due : Nat) (s t : State) (m : List Host.Cell × List Nat) (l : LaneRef) (o data : Nat) : Prop :=
  if feGo op m.2 (feKey s o) then
    if op = 1 then t.T l.tk = s.T l.tk
    else t.T l.tk = served id due (W (memRdN m.1 (feKey s o) 8)) (feAcc s .bank id d o) (s.T l.tk) ∧ (l.tk, id) ∈ t.iss.loads
  else feEntry s op id l o data ∈ feList t (feBank s.iss.core (feKey s o)) ∧ t.T l.tk = waiting op (feAcc s .fe id d o) (s.T l.tk)

theorem FeDone.later {op d id due : Nat} {on : List Nat} {s t u : State} {m : List Host.Cell × List Nat} {l : LaneRef} {o data : Nat} (h : FeDone op d id due s t m l o data)
    (hu : FeKeeps on t u) (hl : l.tk ∉ on) : FeDone op d id due s u m l o data := by
  unfold FeDone at h ⊢
  rw [hu.others _ hl]
  split
  case isTrue hgo =>
    rw [if_pos hgo] at h
    split
    case isTrue hop => rwa [if_pos hop] at h
    case isFalse hop =>
      rw [if_neg hop] at h
      exact ⟨h.1, hu.loads h.2⟩
  case isFalse hgo =>
    rw [if_neg hgo] at h
    exact ⟨hu.waits _ h.1, h.2⟩

theorem FeDone.earlier {op d id due : Nat} {on : List Nat} {s t u : State} {m : List Host.Cell × List Nat} {l : LaneRef} {o data : Nat} (h : FeDone op d id due t u m l o data)
    (ht : FeKeeps on s t) (hl : l.tk ∉ on) : FeDone op d id due s u m l o data := by
  unfold FeDone at h ⊢
  rwa [ht.key, ht.core, ht.acc, ht.acc, ht.entry, ht.others _ hl] at h

/-! Each way in which a lane's access can go. -/

theorem feKeeps_setT {s : State} {tk : Nat} {x : Thr} (hx : x = { s.T tk with st := x.st, wait := x.wait, locks := x.locks, pend := x.pend }) : FeKeeps [tk] s (s.setT tk x) := by
  refine ⟨rfl, fun _ => rfl, fun j => ?_, fun j hj => ?_, fun _ => List.Subset.refl _, List.Subset.refl _⟩
  · rw [T_setT]
    split
    case isTrue h => rw [h]; exact hx
    case isFalse => rfl
  · rw [T_setT, if_neg fun h => hj (List.mem_singleton.mpr h)]

theorem feKeeps_words (on : List Nat) (s : State) (m : List Host.Cell) (e : List Nat) : FeKeeps on s { s with mem := m, empt := e } :=
  ⟨rfl, fun _ => rfl, fun _ => rfl, fun _ _ => rfl, fun _ => List.Subset.refl _, List.Subset.refl _⟩

theorem feKeeps_mark (on : List Nat) (s : State) (ck o : Nat) : FeKeeps on s (s.modC ck (·.mark o)) := by
  refine ⟨rfl, fun c => ?_, fun _ => rfl, fun _ _ => rfl, fun _ => List.Subset.refl _, List.Subset.refl _⟩
  rw [modC_eq, C_setC]
  split
  case isTrue h => rw [h]; rfl
  case isFalse => rfl

theorem feKeeps_loads (on : List Nat) (s : State) (ls : List (Nat × Nat)) : FeKeeps on s { s with iss := { s.iss with loads := s.iss.loads ++ ls } } :=
  ⟨rfl, fun _ => rfl, fun _ => rfl, fun _ _ => rfl, fun _ => List.Subset.refl _, List.subset_append_left ..⟩

/-- The state in which an entry has joined a waiting list. -/
def joined (s : State) (b : Nat) (w : FeW) : State := { s with fe := s.fe.set b (feList s b ++ [w]) }

theorem feList_joined (s : State) (b : Nat) (w : FeW) (b' : Nat) : feList (joined s b w) b' = if b' = b then feList s b ++ [w] else feList s b' := by
  unfold joined
  rw [feList, get_set]
  split <;> rfl

theorem feKeeps_joined (on : List Nat) (s : State) (b : Nat) (w : FeW) : FeKeeps on s (joined s b w) := by
  refine ⟨rfl, fun _ => rfl, fun _ => rfl, fun _ _ => rfl, fun b' => ?_, List.Subset.refl _⟩
  rw [feList_joined]
  split
  case isTrue h => rw [h]; exact List.subset_append_left ..
  case isFalse => exact List.Subset.refl _

theorem feLane_store {s : State} {o : Nat} (h : feGo 1 s.empt (feKey s o) = true) (d id due : Nat) (l : LaneRef) (data : Nat) :
    s.feLane 1 d id due l o data = (s.fePerform 1 (feKey s o) data).1.modC s.ck (·.mark o) := by
  unfold State.feLane
  rw [← feReady_eq] at h
  exact if_pos h

theorem feLane_load {s : State} {op o : Nat} (hop : op ≠ 1) (h : feGo op s.empt (feKey s o) = true) (d id due : Nat) (l : LaneRef) (data : Nat) :
    let p := s.fePerform op (feKey s o) data
    s.feLane op d id due l o data = (p.1.fixLock l.tk id due p.2).bankAccs id d [(l, o)] := by
  unfold State.feLane
  rw [← feReady_eq] at h
  exact (if_pos h).trans (if_neg hop)

theorem feLane_waits {s : State} {op o : Nat} (h : feGo op s.empt (feKey s o) = false) (d id due : Nat) (l : LaneRef) (data : Nat) :
    s.feLane op d id due l o data = (joined s (feBank s.iss.core (feKey s o)) (feEntry s op id l o data)).modT l.tk (waiting op (feAcc s .fe id d o)) := by
  unfold State.feLane
  rw [← feReady_eq] at h
  refine (if_neg (ne_true_of_eq_false h)).trans ?_
  by_cases hop : op = 1
  · subst hop
    rfl
  · rw [if_neg hop, show waiting op (feAcc s .fe id d o) = fun x => { x with pend := x.pend ++ [feAcc s .fe id d o] } from funext fun _ => if_neg hop]
    rfl

theorem served_T (s : State) (id d due : Nat) (v : Word) (l : LaneRef) (o : Nat) :
    ((s.fixLock l.tk id due v).bankAccs id d [(l, o)]).T l.tk = served id due v (feAcc s .bank id d o) (s.T l.tk) := by
  have hacc (u : State) : (u.bankAccs id d [(l, o)]).T l.tk = { u.T l.tk with pend := (u.T l.tk).pend ++ [feAcc u .bank id d o] } := T_setT_same ..
  have hfix : (s.fixLock l.tk id due v).T l.tk = { s.T l.tk with locks := (s.T l.tk).locks.map fun k => if k.id = id then { k with due := some due, val := some v } else k } :=
    T_setT_same ..
  rw [hacc, hfix]
  rfl

/-- What one lane's access does (R201-R203). -/
theorem feLane_spec (s : State) (op d id due : Nat) (l : LaneRef) (o data : Nat) :
    let t := s.feLane op d id due l o data
    FeKeeps [l.tk] s t ∧ (t.mem, t.empt) = feDo op (s.mem, s.empt) (feKey s o, data) ∧ FeDone op d id due s t (s.mem, s.empt) l o data := by
  intro t
  unfold FeDone
  by_cases hgo : feGo op s.empt (feKey s o) = true
  · rw [if_pos hgo]
    by_cases hop : op = 1
    · subst hop
      rw [if_pos rfl, show t = _ from feLane_store hgo d id due l data, fePerform_state data hgo]
      exact ⟨(feKeeps_words ..).trans (feKeeps_mark ..), rfl, rfl⟩
    · rw [if_neg hop, show t = _ from feLane_load hop hgo d id due l data, fePerform_value hop, fePerform_state data hgo]
      refine ⟨((feKeeps_words ..).trans (feKeeps_setT rfl)).trans ((feKeeps_loads ..).trans (feKeeps_setT rfl)), rfl, served_T _ id d due _ l o, List.mem_append_right _ (List.mem_singleton_self _)⟩
  · rw [if_neg hgo, show t = _ from feLane_waits (eq_false_of_ne_true hgo) d id due l data, feDo_waits (eq_false_of_ne_true hgo)]
    refine ⟨(feKeeps_joined ..).trans (feKeeps_setT ?_), rfl, ?_, T_setT_same ..⟩
    · unfold waiting
      split <;> rfl
    · refine (?_ : _ ∈ feList (joined s _ _) _)
      rw [feList_joined, if_pos rfl]
      exact List.mem_append_right _ (List.mem_singleton_self _)

/-- When a word's access is delivered, and the datum it stores. -/
def feDue (op : Nat) (s : State) : Nat := if op = 1 then 0 else s.bankDue
def feData (op d : Nat) (s : State) (l : LaneRef) : Nat := if op = 1 then ((s.rT l.tk).gr d).toNat else 0

theorem FeKeeps.feDue {on : List Nat} {s t : State} (h : FeKeeps on s t) (op : Nat) : feDue op t = feDue op s := by
  unfold Proofs.feDue
  rw [h.due]

theorem FeKeeps.feData {on : List Nat} {s t : State} (h : FeKeeps on s t) (op d : Nat) (l : LaneRef) : feData op d t l = feData op d s l := by
  unfold Proofs.feData
  rw [h.gr]

/-- The access of one lane of a word. -/
def feStep (op d id : Nat) (ofs : LaneRef → Nat) (s : State) (l : LaneRef) : State := s.feLane op d id (feDue op s) l (ofs l) (feData op d s l)

/-- The accesses of a word, lane after lane: each acts on the words that those before it have left. -/
theorem feSteps_spec {op d id : Nat} {ofs : LaneRef → Nat} {arg : LaneRef → Nat × Nat} (ls : List LaneRef) (hn : (ls.map (·.tk)).Nodup) (s : State)
    (harg : ∀ l, (arg l).1 = feKey s (ofs l) ∧ (op = 1 → (arg l).2 = feData op d s l)) :
    let t := ls.foldl (feStep op d id ofs) s
    FeKeeps (ls.map (·.tk)) s t ∧ (t.mem, t.empt) = (ls.map arg).foldl (feDo op) (s.mem, s.empt)
      ∧ ∀ n l, ls[n]? = some l → FeDone op d id (feDue op s) s t (((ls.take n).map arg).foldl (feDo op) (s.mem, s.empt)) l (ofs l) (feData op d s l) := by
  induction ls generalizing s with
  | nil => exact ⟨.refl _ s, rfl, fun n l h => nomatch h⟩
  | cons l ls ih =>
    obtain ⟨hl, hn⟩ := List.nodup_cons.mp hn
    obtain ⟨hkeeps, hwords, hdone⟩ := feLane_spec s op d id (feDue op s) l (ofs l) (feData op d s l)
    rw [← feDo_congr (x := arg l) (harg l).1 (harg l).2] at hwords
    rw [List.foldl_cons, feStep]
    generalize s.feLane op d id (feDue op s) l (ofs l) (feData op d s l) = u at hkeeps hwords hdone ⊢
    obtain ⟨hkeeps', hwords', hdone'⟩ := ih hn u fun x => by rw [hkeeps.key, hkeeps.feData]; exact harg x
    rw [hwords] at hwords' hdone'
    refine ⟨(hkeeps.mono (by simp)).trans (hkeeps'.mono (by simp)), hwords', fun n x hx => ?_⟩
    cases n with
    | zero =>
      obtain rfl : l = x := Option.some.inj hx
      exact hdone.later hkeeps' hl
    | succ n =>
      have hlater := hdone' n x hx
      rw [hkeeps.feDue, hkeeps.feData] at hlater
      exact hlater.earlier hkeeps fun h => hl (List.mem_map.mpr ⟨x, List.mem_of_getElem? hx, List.mem_singleton.mp h⟩)

/-! ### The words (R201) -/

/-- The state in which a word's accesses begin: it has its number, a load has locked its destination, and the banks know the words reached. -/
def feStart (op d la : Nat) (s : State) (act : List LaneRef) (words : List Nat) : State :=
  if op = 1 then s.fresh.reach words else (s.fresh.lockLanes s.ids d (gbit d) la act.contains).reach words

/-- What the state in which a word's accesses begin has of the state that issues the word. -/
structure FeBegins (op d la : Nat) (s : State) (act : List LaneRef) (words : List Nat) (u : State) : Prop where
  frame : u = { s with thr := u.thr, ids := s.ids + 1, iss := { s.iss with banks := s.iss.banks ++ words } }
  others : ∀ tk, tk ∉ s.iss.lanes.map (·.tk) → u.T tk = reached s words tk (s.T tk)
  store : op = 1 → ∀ tk, u.T tk = reached s words tk (s.T tk)
  load : op ≠ 1 → ∀ l ∈ s.iss.lanes, u.T l.tk = reached s words l.tk { s.T l.tk with locks := (s.T l.tk).locks ++ [destLock s act d (gbit d) la l] }

theorem feStart_begins (op d la : Nat) {s : State} {act : List LaneRef} (hact : act ⊆ s.iss.lanes) (hn : (s.iss.lanes.map (·.tk)).Nodup) (words : List Nat) :
    FeBegins op d la s act words (feStart op d la s act words) := by
  unfold feStart
  split
  case isTrue hop =>
    obtain ⟨hframe, hthr⟩ := reach_spec s.fresh words
    exact ⟨hframe, fun tk _ => hthr tk, fun _ => hthr, fun h => absurd hop h⟩
  case isFalse hop =>
    obtain ⟨hframe, hother, hlocked⟩ := lockLanes_act hact hn d (gbit d) la
    obtain ⟨hreach, hthr⟩ := reach_spec (s.fresh.lockLanes s.ids d (gbit d) la act.contains) words
    have hwas (tk : Nat) (x : Thr) : reached (s.fresh.lockLanes s.ids d (gbit d) la act.contains) words tk x = reached s words tk x := by rw [hframe]; rfl
    refine ⟨by rw [hreach, hframe], fun tk htk => ?_, fun h => absurd h hop, fun _ l hl => ?_⟩
    · rw [hthr, hwas, hother tk htk]
    · rw [hthr, hwas, hlocked l hl]

section
variable {op d la : Nat} {s u : State} {act : List LaneRef} {words : List Nat}

theorem FeBegins.key (h : FeBegins op d la s act words u) (o : Nat) : feKey u o = feKey s o := by
  rw [h.frame]
  rfl

theorem FeBegins.core (h : FeBegins op d la s act words u) : u.iss.core = s.iss.core := by rw [h.frame]

theorem FeBegins.acc (h : FeBegins op d la s act words u) (k : AKind) (id d' o : Nat) : feAcc u k id d' o = feAcc s k id d' o := by
  unfold feAcc bankAcc
  rw [h.frame]

theorem FeBegins.entry (h : FeBegins op d la s act words u) (id : Nat) (l : LaneRef) (o data : Nat) : feEntry u op id l o data = feEntry s op id l o data := by
  unfold feEntry
  rw [h.key, h.frame]
  rfl

theorem FeBegins.due (h : FeBegins op d la s act words u) (hop : op ≠ 1) : feDue op u = bankDelivery s words := by
  rw [feDue, if_neg hop, h.frame]
  rfl

theorem FeBegins.data (h : FeBegins op d la s act words u) (l : LaneRef) : feData op d u l = feData op d s l := by
  unfold feData
  split
  case isTrue hop =>
    unfold State.rT
    rw [show u.iss.pre = s.iss.pre by rw [h.frame]]
    cases s.iss.pre with
    | none => dsimp only; rw [h.store hop]; rfl
    | some p => rfl
  case isFalse => rfl

end

/-- The lock of a load that some lanes make stays as it is while the banks learn the words reached. -/
theorem destLock_reached {s : State} {act : List LaneRef} {l : LaneRef} (hl : l ∈ act) (d la : Nat) (words : List Nat) :
    (destLock s act d (gbit d) la l).due = none
      ∧ destLock s act d (gbit d) la l ∈ (reached s words l.tk { s.T l.tk with locks := (s.T l.tk).locks ++ [destLock s act d (gbit d) la l] }).locks := by
  have hfree : (destLock s act d (gbit d) la l).due = none := if_neg (List.ne_nil_of_mem hl)
  refine ⟨hfree, List.mem_map.mpr ⟨_, List.mem_append_right _ (List.mem_singleton_self _), if_neg fun h => ?_⟩⟩
  rw [hfree] at h
  exact Bool.false_ne_true h.2

theorem feLoad_steps {s : State} {f : LdfeF} {op : Nat} (hop : op ≠ 1) (hpoison : s.poison = []) :
    let act := s.iss.lanes.filter (s.active (f.p == 1))
    (∀ l ∈ act, ofsOf s f.a f.o 8 l % 8 = 0 ∧ ofsOf s f.a f.o 8 l < (s.C s.ck).spSize) →
    s.feLoad f op = act.foldl (feStep op f.d.toNat s.ids (ofsOf s f.a f.o 8)) (feStart op f.d.toNat f.l.toNat s act (act.map fun l => ofsOf s f.a f.o 8 l / 8)) := by
  intro act hok
  unfold State.feLoad
  dsimp only
  rw [offsets_ok hok, sound_clean hpoison]
  dsimp only
  have hstep : feStep op f.d.toNat s.ids (ofsOf s f.a f.o 8) = fun u l => u.feLane op f.d.toNat s.ids u.bankDue l (ofsOf s f.a f.o 8 l) 0 := by
    funext u l
    rw [feStep, feDue, feData, if_neg hop, if_neg hop]
  rw [any_lane (lane := Prod.fst) fun _ => rfl, List.map_map, List.foldl_map, feStart, if_neg hop, hstep]
  rfl

/-- The word of R201 in its lanes. -/
theorem exec_feWord {i : Instr} {s : State} {op la : Nat} {p : BitVec 1} {a o d : BitVec 5} (hi : feWord i = some (op, p, a, o, d, la)) (hstatic : s.staticFault i = none)
    (hpoison : s.poison = []) :
    let act := s.iss.lanes.filter (s.active (p == 1))
    (∀ l ∈ act, ofsOf s a o 8 l % 8 = 0 ∧ ofsOf s a o 8 l < (s.C s.ck).spSize) →
    exec i s = .next (act.foldl (feStep op d.toNat s.ids (ofsOf s a o 8)) (feStart op d.toNat la s act (act.map fun l => ofsOf s a o 8 l / 8))).endWord := by
  intro act hok
  cases i <;> simp only [feWord, reduceCtorEq, Option.some.injEq, Prod.mk.injEq] at hi
  case ldfe f =>
    obtain ⟨rfl, rfl, rfl, rfl, rfl, rfl⟩ := hi
    rw [← feLoad_steps (by decide) hpoison hok]
    exact word_ok (fun s => s.feLoad f 0) hstatic
  case ldff f =>
    obtain ⟨rfl, rfl, rfl, rfl, rfl, rfl⟩ := hi
    rw [← feLoad_steps (by decide) hpoison hok]
    exact word_ok (fun s => s.feLoad f 2) hstatic
  case stef f =>
    obtain ⟨rfl, rfl, rfl, rfl, rfl, rfl⟩ := hi
    change execStef f s = _
    unfold execStef
    rw [word_ok _ hstatic]
    dsimp only
    rw [offsets_ok hok, sound_clean hpoison]
    dsimp only
    rw [List.map_map, List.foldl_map]
    rfl

theorem fullEmptyWords : Claims.FullEmptyWords := by
  intro i op p a o d la s hi ⟨hstatic, hn⟩ hpoison act hok arg words was
  have hsub : act.Sublist s.iss.lanes := List.filter_sublist
  have hact : act ⊆ s.iss.lanes := hsub.subset
  refine ⟨_, exec_feWord hi hstatic hpoison hok, ?_⟩
  have hu := feStart_begins op d.toNat la hact hn words
  generalize feStart op d.toNat la s act words = u at hu ⊢
  obtain ⟨hkeeps, hwords, hdone⟩ := feSteps_spec (op := op) (d := d.toNat) (id := s.ids) (ofs := ofsOf s a o 8) (arg := arg) act (hn.sublist (hsub.map _)) u fun l =>
    ⟨(hu.key _).symm, fun hop => by rw [hu.data, feData, if_pos hop]⟩
  have humem : (u.mem, u.empt) = (s.mem, s.empt) := by rw [hu.frame]
  rw [humem] at hwords hdone
  generalize act.foldl (feStep op d.toNat s.ids (ofsOf s a o 8)) u = t at hkeeps hwords hdone ⊢
  refine ⟨hwords, ?_, fun c => ?_, fun tk htk => ?_, fun n l hl => ?_⟩
  · have hframe := hkeeps.frame
    rw [hu.frame] at hframe
    change t.endWord = _
    conv_lhs => rw [hframe]
    rfl
  · have hcrew := hkeeps.crews c
    rwa [show u.C c = s.C c by rw [hu.frame]; rfl] at hcrew
  · exact (hkeeps.others tk fun h => htk (List.map_subset _ hact h)).trans (hu.others tk htk)
  · have hlact : l ∈ act := List.mem_of_getElem? hl
    have hlane := hdone n l hl
    unfold FeDone at hlane
    rw [hu.key, hu.acc, hu.acc, hu.entry, hu.data, hu.core, show feKey s (ofsOf s a o 8 l) = shareKey s a o l from rfl] at hlane
    obtain ⟨hfree, hlock⟩ := destLock_reached hlact d.toNat la words
    intro e
    by_cases hgo : feGo op e.2 (shareKey s a o l) = true
    · rw [if_pos hgo] at hlane ⊢
      by_cases hop : op = 1
      · rw [if_pos hop] at hlane ⊢
        exact hlane.trans (hu.store hop _)
      · rw [if_neg hop] at hlane ⊢
        obtain ⟨hT, hloads⟩ := hlane
        rw [hu.load hop l (hact hlact), hu.due hop, show e.1 = s.mem from feDos_mem hop _ _] at hT
        rw [endWord_T, hT]
        exact ⟨⟨_, List.mem_map.mpr ⟨_, hlock, if_pos rfl⟩, rfl, rfl, rfl, rfl, rfl⟩, hloads, rfl⟩
    · rw [if_neg hgo] at hlane ⊢
      obtain ⟨hlist, hT⟩ := hlane
      refine ⟨⟨_, hlist, rfl, rfl, rfl, rfl, rfl, rfl⟩, ?_⟩
      rw [endWord_T, hT, waiting]
      by_cases hop : op = 1
      · rw [if_pos hop, if_pos hop, hu.store hop]
      · rw [if_neg hop, if_neg hop, hu.load hop l (hact hlact)]
        exact ⟨⟨_, hlock, rfl, rfl, hfree⟩, ⟨_, List.mem_append_right _ (List.mem_singleton_self _), rfl, rfl⟩, rfl⟩

/-! ### SETE and the banks (R201, R203) -/

/-- One lane's word made EMPTY. -/
def emptyLane (ofs : LaneRef → Nat) (s : State) (l : LaneRef) : State := s.setFull (feKey s (ofs l)) false

theorem mem_setEmpty (s : State) (key k : Nat) : k ∈ (s.setFull key false).empt ↔ k ∈ s.empt ∨ k = key := by
  simp only [State.setFull, Bool.false_eq_true, if_false, List.contains_iff_mem]
  split
  case isTrue h => exact ⟨.inl, fun h' => h'.elim id fun h' => h' ▸ h⟩
  case isFalse => rw [List.mem_cons, or_comm]

theorem emptyLanes_spec (ofs : LaneRef → Nat) (ls : List LaneRef) (s : State) :
    let t := ls.foldl (emptyLane ofs) s
    t = { s with empt := t.empt } ∧ ∀ k, k ∈ t.empt ↔ k ∈ s.empt ∨ ∃ l ∈ ls, k = feKey s (ofs l) := by
  induction ls generalizing s with
  | nil => exact ⟨rfl, fun k => by simp⟩
  | cons l ls ih =>
    obtain ⟨hframe, hmem⟩ := ih (emptyLane ofs s l)
    refine ⟨hframe, fun k => (hmem k).trans ?_⟩
    rw [show (k ∈ (emptyLane ofs s l).empt ↔ _) from mem_setEmpty .., or_assoc]
    simp only [List.mem_cons, exists_eq_or_imp]
    rfl

theorem exec_sete {f : SeteF} {s : State} (hstatic : s.staticFault (.sete f) = none) :
    let act := s.iss.lanes.filter (s.active (f.p == 1))
    (∀ l ∈ act, ofsOf s f.a f.o 8 l % 8 = 0 ∧ ofsOf s f.a f.o 8 l < (s.C s.ck).spSize) →
    exec (.sete f) s = .next (act.foldl (emptyLane (ofsOf s f.a f.o 8)) (s.reach (act.map fun l => ofsOf s f.a f.o 8 l / 8))).endWord := by
  intro act hok
  change execSete f s = _
  unfold execSete
  rw [word_ok _ hstatic]
  dsimp only
  rw [offsets_ok hok]
  dsimp only
  rw [List.map_map, List.foldl_map]
  rfl

/-- SETE empties the words of its active lanes (R201). -/
theorem sete_gives {f : SeteF} {s : State} (hstatic : s.staticFault (.sete f) = none) :
    let act := s.iss.lanes.filter (s.active (f.p == 1))
    (∀ l ∈ act, ofsOf s f.a f.o 8 l % 8 = 0 ∧ ofsOf s f.a f.o 8 l < (s.C s.ck).spSize) →
    let words := act.map fun l => ofsOf s f.a f.o 8 l / 8
    Gives (.sete f) s fun t => t = { s with empt := t.empt, thr := t.thr, iss := bankIss s words [] } ∧ (∀ tk, t.T tk = reached s words tk (s.T tk))
      ∧ ∀ k, k ∈ t.empt ↔ k ∈ s.empt ∨ ∃ l ∈ act, k = shareKey s f.a f.o l := by
  intro act hok words
  refine ⟨_, exec_sete hstatic hok, ?_⟩
  obtain ⟨hreach, hthr⟩ := reach_spec s words
  obtain ⟨hframe, hmem⟩ := emptyLanes_spec (ofsOf s f.a f.o 8) act (s.reach words)
  have hkey (o : Nat) : feKey (s.reach words) o = feKey s o := by
    rw [hreach]
    rfl
  have hempt : (s.reach words).empt = s.empt := by rw [hreach]
  simp only [hkey, hempt] at hmem
  generalize act.foldl (emptyLane (ofsOf s f.a f.o 8)) (s.reach words) = t at hframe hmem ⊢
  have hthrs : t.thr = (s.reach words).thr := by rw [hframe]
  refine ⟨?_, fun tk => ?_, hmem⟩
  · rw [endWord_thr, hthrs, bankIss, List.map_nil, List.append_nil]
    conv_lhs => rw [hframe, hreach]
    rfl
  · rw [endWord_T, hframe]
    exact hthr tk

/-- The state in which an access has left its bank's waiting list. -/
def unlisted (s : State) (b : Nat) (w : FeW) : State :=
  let rest := (feList s b).filter (· != w)
  { s with fe := if rest = [] then s.fe.del b else s.fe.set b rest }

theorem feWaiting_none {s : State} {c b : Nat} (h : s.fePick (s.clockOf c) (feList s (c * 32 + b)) = none) : s.feWaiting c b = s := by
  unfold State.feWaiting
  dsimp only
  rw [show (s.fe.get? (c * 32 + b)).getD [] = feList s (c * 32 + b) from rfl, h]

theorem feWaiting_some {s : State} {c b : Nat} {w : FeW} (h : s.fePick (s.clockOf c) (feList s (c * 32 + b)) = some w) :
    let p := (unlisted s (c * 32 + b) w).fePerform w.op w.key w.data
    s.feWaiting c b = if w.op = 1 then (p.1.modC w.ck (·.mark (w.key - spadKey c (p.1.C w.ck).spBase))).wake w.tk
      else p.1.fixLock w.tk w.id (p.1.clockOf c + 4) p.2 := by
  unfold State.feWaiting
  dsimp only
  rw [show (s.fe.get? (c * 32 + b)).getD [] = feList s (c * 32 + b) from rfl, h]
  rfl

/-- The access that a bank performs can proceed. -/
theorem fePick_go {s : State} {now : Nat} {ws : List FeW} {w : FeW} (h : s.fePick now ws = some w) : feGo w.op s.empt w.key = true := by
  have hpick := List.find?_some h
  simp only [Bool.and_eq_true, feReady_eq] at hpick
  exact hpick.2

theorem exec_feWaiting {s : State} {c b : Nat} (h : s.ev = .bank c b) : exec .feWaitingAccess s = .next (s.feWaiting c b) := by
  change execFeWaitingAccess s = _
  unfold execFeWaitingAccess
  rw [h]

theorem wake_T {s : State} {tk : Nat} (h : (s.T tk).ptrap = []) :
    (s.wake tk).T tk = { s.T tk with st := .ready, wait := .none, readyAt := s.clockOf (coreOfTk tk) } := by
  rw [wake_ready h, T_setT_same]

/-- A thread that wakes changes no scratchpad word. -/
theorem wake_words (s : State) (tk : Nat) : ((s.wake tk).mem, (s.wake tk).empt) = (s.mem, s.empt) := by
  have hframe : ThrMsgs s (s.wake tk) := (ownThread_wake s tk).frame
  rw [show s.wake tk = _ from hframe]

/-- A bank performs the access that it picks: a store wakes its thread, a load fixes its lock (R203). -/
theorem feWaiting_picks {s : State} {c b : Nat} {w : FeW} (hpick : s.fePick (s.clockOf c) (feList s (c * 32 + b)) = some w) :
    let t := s.feWaiting c b
    (t.mem, t.empt) = feDo w.op (s.mem, s.empt) (w.key, w.data) ∧ (∀ tk, tk ≠ w.tk → t.T tk = s.T tk)
      ∧ (w.op = 1 → (s.T w.tk).ptrap = [] → t.T w.tk = { s.T w.tk with st := .ready, wait := .none, readyAt := s.clockOf (coreOfTk w.tk) })
      ∧ (w.op ≠ 1 → t.T w.tk = { s.T w.tk with locks := (s.T w.tk).locks.map fun k =>
          if k.id = w.id then { k with due := some (s.clockOf c + 4), val := some (W (memRdN s.mem w.key 8)) } else k }) := by
  have hgo : feGo w.op (unlisted s (c * 32 + b) w).empt w.key = true := fePick_go hpick
  intro t
  rw [show t = _ from feWaiting_some hpick, fePerform_state w.data hgo]
  by_cases hop : w.op = 1
  · rw [if_pos hop]
    exact ⟨wake_words .., (ownThread_wake _ w.tk).others, fun _ h => wake_T h, fun h => absurd hop h⟩
  · rw [if_neg hop, fePerform_value hop]
    exact ⟨rfl, fun tk htk => (T_setT ..).trans (if_neg htk), fun h => absurd h hop, fun _ => T_setT_same ..⟩

theorem fullEmptyBank : Claims.FullEmptyBank := by
  refine ⟨fun f s hiss hok => sete_gives hiss.1 hok, fun s c b hpick => ?_, fun s c b w hev hpick => ⟨_, exec_feWaiting hev, feWaiting_picks hpick⟩⟩
  exact congrArg Host.Outcome.next (feWaiting_none (s := State.carry s (.bank c b)) hpick)

/-- Settles O14: a word's accesses run lane after lane, each on the words that those before it left; a bank performs the access that it picks. -/
theorem fullEmpty : Obligations.FullEmpty := ⟨fullEmptyWords, fullEmptyBank⟩

end Sys2Proof.Proofs
end
